-- ==== Sys2Proof/Word.lean ====
section
/-! DEFINITION. The word types: a byte, a 32-bit register word, and an instant. -/

namespace Sys2Proof

/-- One byte of a memory or a frame. -/
abbrev Byte := BitVec 8

/-- One 32-bit register word (R54). -/
abbrev Word := BitVec 32

/-- An instant, in picoseconds since the release of PORST_N (R17, R19). -/
abbrev Time := Nat

end Sys2Proof
end

