-- ==== Sys2Proof/Syntax.lean ====
section
/-! DEFINITION. The commands the block takes: one constructor per row of spec/opcode_table.json, and the operand
types they carry. Every command carries `t`, the instant (ps) it comes at (log 1). -/

namespace Sys2Proof

/-- R57, R77: the masters of the register space, in the order that serves one cycle. -/
inductive Master where
  | host | mgmt | smp
  deriving DecidableEq, Repr

/-- The encoding of a master in DEV_UNMAPPED_ADDR.MASTER (R77). -/
def Master.code : Master → Nat
  | .host => 0
  | .mgmt => 1
  | .smp => 2

/-- R53: the kinds of register page; a page is a kind and an instance number. -/
inductive Page where
  | dev | pen | kps0 | kps1 | kps2 | kps3 | thm | cal | upd | clk | seq | mem
  | hal0 | hal1 | hal2 | hal3 | eth | lnk0 | lnk1 | jst0 | jst1 | bnd0 | bnd1 | scr
  | ft | en | hl | lk | fbk | ax0 | ax1 | mgp
  deriving DecidableEq, Repr

/-- The two width-plan registers of R150. -/
inductive PlanReg where
  | slot | seq
  deriving DecidableEq, Repr

/-- The two overdrive registers of R192. -/
inductive BudgetReg where
  | win | budget
  deriving DecidableEq, Repr

/-- R413: the two kinds of calibration channel. -/
inductive CalKind where
  | timing | adc
  deriving DecidableEq, Repr

/-- R276: the two limit inputs of an axis. -/
inductive LimitInput where
  | limn | limp
  deriving DecidableEq, Repr

/-- R347: the three ways the PCIe endpoint is reset. -/
inductive PcieReset where
  | hot | linkDown | flr
  deriving DecidableEq, Repr

/-- R169: the contents of an IDENT frame of a head. -/
structure Ident where
  ver : Nat
  vendor : Nat
  cls : Nat
  dies : Nat
  rateMax : Nat
  nozzles : Nat
  serial : Nat
  wmax : Nat
  ppmin : Nat
  setup : Nat
  deriving DecidableEq, Repr

/-- R315: a received Ethernet frame: the lane of its first block, whether the firmware queue is full, and its octets from
the destination address to the FCS. -/
structure EthFrame where
  lane : Nat
  fwFull : Bool
  octets : List Byte
  deriving DecidableEq, Repr

/-- R54, R344: an access: n bytes from an address, or offset, on. -/
structure Span where
  addr : Nat
  len : Nat
  deriving DecidableEq, Repr

/-- R198: the latest raw samples of input I of a feedback channel. -/
structure IndexSamples where
  ch : Nat
  samples : List Bool
  deriving DecidableEq, Repr

/-- R318: a frame of firmware to be sent, without its FCS, and the receive stamp (1/256 ns) of the request that a
Pdelay_Resp answers. -/
structure PtpTx where
  req : Int
  octets : List Byte
  deriving DecidableEq, Repr

/-- R328: what follows the EtherType of a Bexgar frame that a link has received. -/
structure BxOctets where
  link : Nat
  octets : List Byte
  deriving DecidableEq, Repr

/-- R379, R381: a strobe (0 A, 1 B, 2 C) whose readback has been high since an instant. -/
structure StrobeHigh where
  strobe : Nat
  since : Time
  deriving DecidableEq, Repr

/-- R346: the errors that the endpoint reports under AER, the correctable ones first. -/
inductive AerErr where
  | receiver | badTlp | badDllp | replayRollover | replayTimeout | advisory | correctedInternal | headerOverflow
  | dataLink | surpriseDown | poisoned | completionTimeout | completerAbort | unexpectedCompletion | receiverOverflow
  | malformed | ecrc | unsupported | internal
  deriving DecidableEq, Repr

/-- R346: an error, with the 4 DW header of its request where it has one. -/
structure AerReport where
  err : AerErr
  header : List Word
  deriving DecidableEq, Repr

/-- R341: the capabilities that a function may have, and the features that the endpoint has or lacks. -/
inductive PcieFeature where
  | powerManagement | msi | express | aer | deviceSerial | msix | srIov | ats | pasid | atomicOps | aspmL0s | aspmL1
  | l1Substates | resizableBar | flr | tag10Requester | tag10Completer | ecrcGenerate | ecrcCheck
  deriving DecidableEq, Repr

/-- R341, R343, R345, R346, R351: what a configuration read asks for. -/
inductive CfgItem where
  | identity | classRevision | headerType | interruptPin | bar (n : Nat) | serial | feature (f : PcieFeature)
  | busMaster | powerState | msiEnable | msiMask | msiPending | msiAddress | msiData | maxPayload | maxReadReq
  | aerCorrectable | aerUncorrectable | aerSeverity | aerHeader (n : Nat)
  deriving DecidableEq, Repr

/-- R341 to R346, R351: what a configuration request of type 0 reads or writes, and the requests that complete with
Unsupported Request (R344). -/
inductive CfgReq where
  | busMaster (v : Bool)
  | msiEnable (v : Bool)
  | msiMask (v : Bool)
  | msiAddress (a : BitVec 64)
  | msiData (d : BitVec 16)
  | d0 (v : Bool)
  | maxPayload (bytes : Nat)
  | maxReadReq (bytes : Nat)
  | bar (n : Nat) (value : Word)
  | aerSeverity (value : Word)
  | aerClear (correctable uncorrectable : Word)
  | read (item : CfgItem)
  | ioRequest
  | lockedRead
  | type1
  deriving DecidableEq, Repr

/-- The commands of the UL-9600: one constructor per row of the opcode table, in the table's order. Operands named
`arg` are the 24-bit ARG field of CMD (R61); `port`, `ch`, `ax`, `g`, `e` are instance numbers. -/
inductive Instr where
  | porstNAssert (t : Time)
  | porstNRelease (t : Time) (profileHigh ftmHigh : Bool)
  | registerWrite (t : Time) (m : Master) (addr size value : Nat)
  | unmappedAccess (t : Time) (m : Master) (bar2 : Bool) (addr : Nat) (write : Bool)
  | aliasAccess (t : Time) (m : Master) (r : Span) (write : Option (List Byte))
  | lockWrite (t : Time) (m : Master) (page : Page) (inst : Nat) (value : Word)
  | causeClear (t : Time) (m : Master) (page : Page) (inst : Nat) (value : Word)
  | causeForce (t : Time) (m : Master) (page : Page) (inst : Nat) (value : Word)
  | wideLowerWrite (t : Time) (m : Master) (addr : Nat) (value : Word)
  | wideUpperWrite (t : Time) (m : Master) (addr : Nat) (value : Word)
  | wideLowerRead (t : Time) (m : Master) (r : Span)
  | halTimeCapture (t : Time) (m : Master)
  | historyEntryCapture (t : Time) (m : Master) (slot : Nat)
  | nop (t : Time) (m : Master) (page : Page) (inst : Nat)
  | clrUnmapped (t : Time) (m : Master)
  | shadowNow (t : Time) (m : Master) (port : Nat)
  | nowTransferDone (t : Time) (port : Nat)
  | shadowAccessResume (t : Time) (port : Nat)
  | natWrite (t : Time) (m : Master) (port entry : Nat) (value : Word)
  | widthTableWrite (t : Time) (m : Master) (port word : Nat) (value : Word)
  | maskSlotWrite (t : Time) (m : Master) (g slot word : Nat) (value : Word)
  | sineTableWrite (t : Time) (m : Master) (g word : Nat) (value : Word)
  | pvtSegmentWrite (t : Time) (m : Master) (g word : Nat) (value : Word)
  | planWrite (t : Time) (m : Master) (port : Nat) (reg : PlanReg) (value : Word)
  | budgetCfgWrite (t : Time) (m : Master) (port : Nat) (reg : BudgetReg) (value : Word)
  | calResultWrite (t : Time) (m : Master) (ch reg : Nat) (value : Word)
  | bar2Write (t : Time) (off : Nat) (data : List Byte)
  | bar2Read (t : Time) (off len : Nat)
  | bar4Access (t : Time) (off len : Nat) (write : Option (List Byte))
  | poisonedWrite (t : Time)
  | wptrWrite (t : Time) (m : Master) (port : Nat) (value : Word)
  | ringReset (t : Time) (m : Master) (arg : Nat)
  | ringFlush (t : Time) (m : Master) (arg : Nat)
  | bndClrEcc (t : Time) (m : Master) (arg : Nat)
  | bandHeader (t : Time) (port : Nat)
  | resyncBlock (t : Time) (port : Nat)
  | screenDeadline (t : Time) (port : Nat)
  | historyStage (t : Time) (port : Nat)
  | train (t : Time) (m : Master)
  | trainComplete (t : Time) (pass : Nat)
  | srEnter (t : Time) (m : Master)
  | srExit (t : Time) (m : Master)
  | memClrEcc (t : Time) (m : Master)
  | scrubBlock (t : Time)
  | arm (t : Time) (m : Master)
  | stop (t : Time) (m : Master)
  | abort (t : Time) (m : Master)
  | boundaryEntry (t : Time) (port : Nat)
  | boundaryComplete (t : Time) (port : Nat)
  | portSvcEnter (t : Time) (m : Master) (port arg : Nat)
  | serviceEntryLand (t : Time) (port : Nat)
  | svcPower (t : Time) (m : Master) (port arg : Nat)
  | portSvcLeave (t : Time) (m : Master) (port : Nat)
  | portOff (t : Time) (m : Master) (port : Nat)
  | ready (t : Time) (m : Master) (port : Nat)
  | grpApply (t : Time) (m : Master) (port : Nat)
  | lineClockTick (t : Time) (g : Nat)
  | observerTick (t : Time) (ch : Nat)
  | stateArrival (t : Time) (port : Nat)
  | placementCompare (t : Time) (port : Nat)
  | phaseStart (t : Time) (port k : Nat)
  | strobeDelayedRise (t : Time) (port : Nat)
  | phaseMarker (t : Time) (port : Nat)
  | lineFrameSend (t : Time) (port : Nat)
  | trimFrameSend (t : Time) (port : Nat)
  | idReq (t : Time) (m : Master) (port : Nat)
  | lkClrCnt (t : Time) (m : Master) (port : Nat)
  | ackFrame (t : Time) (port lseq result : Nat)
  | ackDeadline (t : Time) (port : Nat)
  | statusFrame (t : Time) (port sseq hflags : Nat) (t0 t1 t2 t3 : Int)
  | identFrame (t : Time) (port : Nat) (id : Ident)
  | cfgAckFrame (t : Time) (port result : Nat)
  | cfgAckTimeout (t : Time) (port : Nat)
  | rtFrameError (t : Time) (port : Nat)
  | rtLoss (t : Time) (port : Nat)
  | ovdBinBoundary (t : Time) (port : Nat)
  | graceExpiry (t : Time) (port : Nat)
  | enClrCnt (t : Time) (m : Master) (port : Nat)
  | budgetReset (t : Time) (m : Master) (port : Nat)
  | scrClrCnt (t : Time) (m : Master) (g arg : Nat)
  | natImm (t : Time) (m : Master) (g arg : Nat)
  | countTransition (t : Time) (ch : Nat) (sa sb : List Bool)
  | doubleTransition (t : Time) (ch : Nat) (sa sb : List Bool)
  | indexEvent (t : Time) (x : IndexSamples)
  | fbkSvcEnter (t : Time) (m : Master) (ch : Nat)
  | fbkOff (t : Time) (m : Master) (ch : Nat)
  | loadPos (t : Time) (m : Master) (ch : Nat)
  | fbkSvcLeave (t : Time) (m : Master) (ch : Nat)
  | fbkClrCnt (t : Time) (m : Master) (ch : Nat)
  | scanStart (t : Time) (m : Master) (port arg : Nat)
  | scanStop (t : Time) (m : Master) (port : Nat)
  | scanSvc (t : Time) (m : Master) (port : Nat)
  | driftReset (t : Time) (m : Master) (port : Nat)
  | hlClrCnt (t : Time) (m : Master) (port : Nat)
  | resReset (t : Time) (m : Master) (port : Nat)
  | scanStep (t : Time) (port : Nat)
  | scanStepDone (t : Time) (port : Nat) (base window : List (List Int))
  | driftMeasure (t : Time) (port k : Nat) (y : Int)
  | axSvcEnter (t : Time) (m : Master) (ax : Nat)
  | axSvcLeave (t : Time) (m : Master) (ax : Nat)
  | axOff (t : Time) (m : Master) (ax : Nat)
  | enable (t : Time) (m : Master) (ax : Nat)
  | disable (t : Time) (m : Master) (ax : Nat)
  | move (t : Time) (m : Master) (ax : Nat)
  | axStop (t : Time) (m : Master) (ax : Nat)
  | qstop (t : Time) (m : Master) (ax : Nat)
  | resume (t : Time) (m : Master) (ax : Nat)
  | home (t : Time) (m : Master) (ax : Nat)
  | pvtStart (t : Time) (m : Master) (ax arg : Nat)
  | setPos (t : Time) (m : Master) (ax : Nat)
  | clrFault (t : Time) (m : Master) (ax : Nat)
  | profileTick (t : Time) (g : Nat)
  | pwmPeriod (t : Time) (g vbusCode : Nat)
  | snsEdge (t : Time) (ax : Nat)
  | limitQualify (t : Time) (ax : Nat) (which : LimitInput) (level : Bool)
  | setMove (t : Time) (m : Master) (g arg : Nat)
  | setStop (t : Time) (m : Master) (g arg : Nat)
  | setResume (t : Time) (m : Master) (g arg : Nat)
  | vbusClr (t : Time) (m : Master) (g : Nat)
  | jstStart (t : Time) (m : Master) (e arg : Nat)
  | jstAbort (t : Time) (m : Master) (e arg : Nat)
  | clear (t : Time) (m : Master) (e arg : Nat)
  | jstClrCnt (t : Time) (m : Master) (e arg : Nat)
  | engineGrant (t : Time) (e : Nat)
  | descriptorFetch (t : Time) (e c : Nat) (host : Option (List Byte))
  | descriptorStart (t : Time) (e c : Nat) (host : List Byte)
  | descriptorComplete (t : Time) (e c : Nat)
  | descriptorError (t : Time) (e c code : Nat)
  | ethEnable (t : Time) (m : Master) (e : Nat)
  | ethDisable (t : Time) (m : Master) (e : Nat)
  | ethClrCnt (t : Time) (m : Master) (e : Nat)
  | ethLinkUp (t : Time) (e k : Nat)
  | ethLinkDown (t : Time) (e k : Nat)
  | ethFrameRx (t : Time) (link : Nat) (f : EthFrame)
  | pairMiss (t : Time)
  | ptpFrameTx (t : Time) (link lane : Nat) (oneStep : Bool) (f : PtpTx)
  | offset (t : Time) (m : Master)
  | holdoverTimeout (t : Time)
  | timeStep (t : Time)
  | setTime (t : Time) (m : Master)
  | cancelStep (t : Time) (m : Master)
  | servoReset (t : Time) (m : Master)
  | txtsPop (t : Time) (m : Master)
  | lnkOn (t : Time) (m : Master)
  | lnkOff (t : Time) (m : Master)
  | linkReset (t : Time) (m : Master) (arg : Nat)
  | lnkClrCnt (t : Time) (m : Master)
  | streamReset (t : Time) (m : Master) (arg : Nat)
  | epochPop (t : Time) (m : Master)
  | txWptrWrite (t : Time) (m : Master) (stream : Nat) (value : Word)
  | rxRptrWrite (t : Time) (m : Master) (stream : Nat) (value : Word)
  | bxBadFrame (t : Time) (f : BxOctets)
  | bxDataRx (t : Time) (link : Nat) (header body : List Byte)
  | bxAckRx (t : Time) (link : Nat) (octets : List Byte)
  | bxNackRx (t : Time) (link : Nat) (header body : List Byte)
  | bxIdentRx (t : Time) (link : Nat) (header body : List Byte)
  | bxStatusRx (t : Time) (link : Nat) (header payload pcrc pad : List Byte)
  | bxEpochRx (t : Time) (link : Nat) (header payload pcrc pad : List Byte)
  | bxDataTx (t : Time) (link : Nat)
  | bxAckTx (t : Time) (link : Nat)
  | bxIdentTx (t : Time) (link : Nat)
  | bxStatusTx (t : Time)
  | bxRetryResend (t : Time) (link : Nat)
  | rto (t : Time) (link : Nat)
  | bxLinkTimeout (t : Time) (link : Nat)
  | pcieLinkUp (t : Time) (speed width : Nat)
  | pcieReset (t : Time) (kind : PcieReset)
  | aerError (t : Time) (r : AerReport)
  | eoi (t : Time) (m : Master)
  | penClrCnt (t : Time) (m : Master)
  | msiSend (t : Time)
  | smpWrite (t : Time) (head rest : List Byte)
  | smpRead (t : Time) (sdi : List Byte)
  | smpPoll (t : Time)
  | smpAccessDone (t : Time)
  | smpReject (t : Time) (sdi : List Byte)
  | faultIntake (t : Time)
  | msgLost (t : Time) (path : Nat)
  | stbStuck (t : Time) (port : Nat) (x : StrobeHigh)
  | stbRogue (t : Time) (port : Nat) (x : StrobeHigh)
  | lockstep (t : Time)
  | clkLoss (t : Time) (island detail : Nat)
  | kpsWdog (t : Time)
  | heartbeat (t : Time)
  | mgmtWdog (t : Time)
  | safeRb (t : Time) (latch : Nat)
  | periodicSelftest (t : Time) (pass : Bool) (code : Nat)
  | cfgCrcUpdate (t : Time)
  | selftestDone (t : Time) (pass : Bool) (code : Nat)
  | kpsAck (t : Time) (m : Master) (arg : Nat)
  | ackAll (t : Time) (m : Master) (arg : Nat)
  | dsafeRelease (t : Time) (m : Master)
  | kpsClrCnt (t : Time) (m : Master)
  | kpsInjMsg (t : Time) (m : Master) (value : Word)
  | testRb (t : Time) (m : Master) (value : Word)
  | testClk (t : Time) (m : Master) (value : Word)
  | testLs (t : Time) (m : Master) (value : Word)
  | ftmUnlock (t : Time) (value : BitVec 64)
  | ftmConfirm (t : Time)
  | extest (t : Time)
  | idcode (t : Time)
  | samplePreload (t : Time) (cells : List (Nat × Bool))
  | clamp (t : Time)
  | highz (t : Time)
  | bypass (t : Time)
  | tapReset (t : Time)
  | sensorReading (t : Time) (readings : List Int)
  | partWake (t : Time) (page : Page) (inst : Nat)
  | refclkLoss (t : Time)
  | refclkReturn (t : Time)
  | compensationUpdate (t : Time)
  | thermalRestart (t : Time)
  | sensClr (t : Time) (m : Master) (arg : Nat)
  | thmClrCnt (t : Time) (m : Master)
  | calRun (t : Time) (m : Master) (arg : Nat)
  | calCancel (t : Time) (m : Master) (arg : Nat)
  | calClrCnt (t : Time) (m : Master)
  | calAttemptStart (t : Time) (g : Nat) (kind : CalKind)
  | calTakeover (t : Time) (ch : Nat)
  | calTrimDone (t : Time) (ch : Nat) (res : List Word)
  | calCheck (t : Time) (ch : Nat) (measured : List Int)
  | calCommit (t : Time) (ch : Nat)
  | calDefer (t : Time) (ch : Nat)
  | updClaim (t : Time) (m : Master) (value : Word)
  | begin (t : Time) (m : Master) (arg : Nat)
  | eraseComplete (t : Time)
  | chunk (t : Time) (m : Master) (arg : Nat)
  | finish (t : Time) (m : Master)
  | verifyComplete (t : Time)
  | updAbort (t : Time) (m : Master)
  | release (t : Time) (m : Master)
  | claimTimeout (t : Time)
  | flashError (t : Time)
  | activate (t : Time) (m : Master) (arg : Nat)
  | stagingComplete (t : Time) (ok : Bool)
  | recipePortLoad (t : Time) (port : Nat)
  | confirm (t : Time) (m : Master) (arg : Nat)
  | revert (t : Time) (m : Master) (arg : Nat)
  | devReset (t : Time) (m : Master)
  | mgmtReset (t : Time) (m : Master)
  | configurationRequest (t : Time) (req : CfgReq)
  | bootDone (t : Time)
  | chunkProgrammed (t : Time)
  | recentRestartExpiry (t : Time)
  deriving DecidableEq, Repr

end Sys2Proof
end

