-- ==== Sys2Proof/Decode.lean ====
section
/-! DEFINITION. The word decoder that the host asks for. spec/opcode_table.json gives no row any bits: a command of
this block reaches it as a bus access, a link frame, an edge on a pin or an event inside, never as an instruction word.
So no word spells a command. -/

namespace Sys2Proof

/-- No row of the table gives bits: no word spells a command (log 16). -/
def decodeTableWord (_nbits _w : Nat) : Option Instr := none

end Sys2Proof
end

