-- ==== Sys2Proof/Config.lean ====
section
/-! DEFINITION. What an implementation fixes and the spec leaves open: constants and functions WITHOUT a body,
so that a statement about the model holds for every value of them. -/

namespace Sys2Proof.Config

/-- UNVERIFIED (log 10). The value of π that the observer (R207), the coil voltage (R261) and the reset sine
table (R262) use: the spec gives formulas in π and no precision. -/
opaque pi : Rat

/-- DESIGN CHOICE (log 11). Where a fixed-point result is not representable the spec names no rounding:
at rounding site n the device takes the upper (true) or lower (false) neighbour of this exact value. -/
opaque roundsUp : Nat → Rat → Bool

/-- DESIGN CHOICE (log 8). The free value drawn at count n of State.free: a value the spec leaves open. -/
opaque freeValue : Nat → Nat

/-- R219: the placement unit solves for the crossing "to within 10 ps": the error of the n-th solution in ps, held
within that bound where it is used (log 22). -/
opaque crossError : Nat → Rat

/-- R59: PAGE_REV of a page type, "per page": [15:8] MAJOR, [7:0] MINOR. -/
opaque pageRev : Nat → BitVec 16

/-- R77: DEV_UID, "per die", 64 bits from OTP. -/
opaque devUid : BitVec 64

/-- R77: DEV_SILREV, "per die": MAJOR and MINOR. -/
opaque devSilrev : BitVec 16

/-- R412, R422: the factory trim of calibration channel c, register RESr, "OTP". -/
opaque otpTrim : Nat → Nat → BitVec 32

/-- R397: THM_NBR of sensor s, "per sensor": the number of neighbours and the neighbours themselves. -/
opaque thmNbr : Nat → BitVec 32

/-- R399: the compensation that Sill sets for an element (by its number) at a temperature of its sensor in 1/16 °C, from
the factory coefficients in OTP. -/
opaque compensation : Nat → Int → Int

/-- R425: the integrator key hash fused in OTP, as 32 bytes; all zero while unfused. -/
opaque integratorKeyHash : List (BitVec 8)

/-- R425: the vendor public key of the Sill boot ROM. -/
opaque vendorKey : List (BitVec 8)

/-- R437: can the management firmware of settings format n convert a record area that holds a set of an older format:
answers the bytes of an area that holds the converted set, or none. The conversion belongs to the firmware. -/
opaque convertRecords : Nat → List (BitVec 8) → Option (List (BitVec 8))

end Sys2Proof.Config
end

