-- ==== Sys2Proof/Machine/RegTypes.lean ====
section
/-! DEFINITION. What a register field is: its page, its place, its type of R20, its Reset value, and whether its
chapter marks it shadowed (R73) or config (R475). -/

namespace Sys2Proof.Machine

/-- R20: the types of register fields. -/
inductive FTy where
  | ro | rw | rw1c | wo | rwl | rws
  deriving DecidableEq, Repr

/-- A register field. A register may stand in an array: n1 × n2 copies at strides s1 and s2 from `off`. -/
structure Fld where
  page : Page
  off : Nat
  n1 : Nat
  s1 : Nat
  n2 : Nat
  s2 : Nat
  hi : Nat
  lo : Nat
  ty : FTy
  reset : Nat
  shadowed : Bool
  config : Bool
  deriving DecidableEq, Repr

/-- The number of bits of a field. -/
def Fld.width (f : Fld) : Nat := f.hi + 1 - f.lo

/-- The bits of a field in its word. -/
def Fld.mask (f : Fld) : Word := BitVec.ofNat 32 ((2 ^ f.width - 1) * 2 ^ f.lo)

/-- The value of the field in a word. -/
def Fld.get (f : Fld) (w : Word) : Nat := w.toNat / 2 ^ f.lo % 2 ^ f.width

/-- The word with the field set. -/
def Fld.set (f : Fld) (w : Word) (v : Nat) : Word :=
  (w &&& ~~~f.mask) ||| (BitVec.ofNat 32 (v % 2 ^ f.width * 2 ^ f.lo))

/-- The field's register stands at this page offset. -/
def Fld.at? (f : Fld) (off : Nat) : Bool :=
  (List.range f.n1).any fun i => (List.range f.n2).any fun j => f.off + i * f.s1 + j * f.s2 == off

end Sys2Proof.Machine
end

