-- ==== Sys2Proof/Machine/RegMap.lean ====
section
/-! DEFINITION. Every register field of the spec's register tables, by page, with its place, type and Reset value. A
field whose Reset column gives no number (a strap, a per-die value, a value by profile) has 0 here and its value in
Machine/Regs.lean. -/

namespace Sys2Proof.Machine

/-! Page SEQ: R47. -/

def Reg.SEQ_STATE_DEV_STATE : Fld := ⟨.seq, 0x8, 1, 0x0, 1, 0x0, 2, 0, .ro, 0, false, false⟩
def Reg.SEQ_CAUSE_CMD_REJECT : Fld := ⟨.seq, 0x14, 1, 0x0, 1, 0x0, 31, 31, .rw1c, 0, false, false⟩
def Reg.SEQ_CAUSE_ACTIVATED : Fld := ⟨.seq, 0x14, 1, 0x0, 1, 0x0, 4, 4, .rw1c, 0, false, false⟩
def Reg.SEQ_CAUSE_SHADOW_DISCARD : Fld := ⟨.seq, 0x14, 1, 0x0, 1, 0x0, 3, 3, .rw1c, 0, false, false⟩
def Reg.SEQ_CAUSE_UNDERRUN : Fld := ⟨.seq, 0x14, 1, 0x0, 1, 0x0, 2, 2, .rw1c, 0, false, false⟩
def Reg.SEQ_CAUSE_PAGE_DEFECT : Fld := ⟨.seq, 0x14, 1, 0x0, 1, 0x0, 1, 1, .rw1c, 0, false, false⟩
def Reg.SEQ_CAUSE_BOUNDARY_STRETCH : Fld := ⟨.seq, 0x14, 1, 0x0, 1, 0x0, 0, 0, .rw1c, 0, false, false⟩
def Reg.SEQ_PORT_EN_EN : Fld := ⟨.seq, 0x40, 3, 0x4, 1, 0x0, 31, 0, .rw, 0, false, false⟩
def Reg.SEQ_ACT_PAGE_PAGE : Fld := ⟨.seq, 0x50, 1, 0x0, 1, 0x0, 31, 0, .ro, 4294967295, false, false⟩
def Reg.SEQ_DEV_PAGE_PAGE : Fld := ⟨.seq, 0x54, 1, 0x0, 1, 0x0, 31, 0, .ro, 0, false, false⟩
def Reg.SEQ_BND_LAST_PORT : Fld := ⟨.seq, 0x58, 1, 0x0, 1, 0x0, 22, 16, .ro, 0, false, false⟩
def Reg.SEQ_BND_LAST_DUR : Fld := ⟨.seq, 0x58, 1, 0x0, 1, 0x0, 15, 0, .ro, 0, false, false⟩
def Reg.SEQ_DEFECT_DEFECT : Fld := ⟨.seq, 0x60, 3, 0x4, 1, 0x0, 31, 0, .rw1c, 0, false, false⟩
def Reg.SEQ_PPAGE_PAGE : Fld := ⟨.seq, 0x100, 96, 0x4, 1, 0x0, 31, 0, .ro, 0, false, false⟩

/-- The fields of page SEQ. -/
def Reg.pageSeq : List Fld :=
  [Reg.SEQ_STATE_DEV_STATE, Reg.SEQ_CAUSE_CMD_REJECT, Reg.SEQ_CAUSE_ACTIVATED, Reg.SEQ_CAUSE_SHADOW_DISCARD,
   Reg.SEQ_CAUSE_UNDERRUN, Reg.SEQ_CAUSE_PAGE_DEFECT, Reg.SEQ_CAUSE_BOUNDARY_STRETCH, Reg.SEQ_PORT_EN_EN,
   Reg.SEQ_ACT_PAGE_PAGE, Reg.SEQ_DEV_PAGE_PAGE, Reg.SEQ_BND_LAST_PORT, Reg.SEQ_BND_LAST_DUR] ++
  [Reg.SEQ_DEFECT_DEFECT, Reg.SEQ_PPAGE_PAGE]

/-! Page DEV: R77. -/

def Reg.DEV_STATE_DEV_OP : Fld := ⟨.dev, 0x8, 1, 0x0, 1, 0x0, 1, 0, .ro, 0, false, false⟩
def Reg.DEV_CAUSE_CMD_REJECT : Fld := ⟨.dev, 0x14, 1, 0x0, 1, 0x0, 31, 31, .rw1c, 0, false, false⟩
def Reg.DEV_CAUSE_LOCKED : Fld := ⟨.dev, 0x14, 1, 0x0, 1, 0x0, 30, 30, .rw1c, 0, false, false⟩
def Reg.DEV_CAUSE_UNMAPPED : Fld := ⟨.dev, 0x14, 1, 0x0, 1, 0x0, 0, 0, .rw1c, 0, false, false⟩
def Reg.DEV_PART_PART : Fld := ⟨.dev, 0x40, 1, 0x0, 1, 0x0, 31, 0, .ro, 38400, false, false⟩
def Reg.DEV_SILREV_MAJOR : Fld := ⟨.dev, 0x44, 1, 0x0, 1, 0x0, 15, 8, .ro, 0, false, false⟩
def Reg.DEV_SILREV_MINOR : Fld := ⟨.dev, 0x44, 1, 0x0, 1, 0x0, 7, 0, .ro, 0, false, false⟩
def Reg.DEV_STRAPS_FTM_ACTIVE : Fld := ⟨.dev, 0x48, 1, 0x0, 1, 0x0, 2, 2, .ro, 0, false, false⟩
def Reg.DEV_STRAPS_FTM : Fld := ⟨.dev, 0x48, 1, 0x0, 1, 0x0, 1, 1, .ro, 0, false, false⟩
def Reg.DEV_STRAPS_PROFILE : Fld := ⟨.dev, 0x48, 1, 0x0, 1, 0x0, 0, 0, .ro, 0, false, false⟩
def Reg.DEV_COUNTS_FB : Fld := ⟨.dev, 0x4c, 1, 0x0, 1, 0x0, 23, 16, .ro, 96, false, false⟩
def Reg.DEV_COUNTS_AX : Fld := ⟨.dev, 0x4c, 1, 0x0, 1, 0x0, 15, 8, .ro, 96, false, false⟩
def Reg.DEV_COUNTS_HP : Fld := ⟨.dev, 0x4c, 1, 0x0, 1, 0x0, 7, 0, .ro, 0, false, false⟩
def Reg.DEV_UID_UID : Fld := ⟨.dev, 0x50, 2, 0x4, 1, 0x0, 31, 0, .ro, 0, false, false⟩
def Reg.DEV_LINE_ID_ID : Fld := ⟨.dev, 0x58, 1, 0x0, 1, 0x0, 4, 0, .rwl, 0, false, false⟩
def Reg.DEV_UNMAPPED_COUNT : Fld := ⟨.dev, 0x5c, 1, 0x0, 1, 0x0, 15, 0, .ro, 0, false, false⟩
def Reg.DEV_UNMAPPED_ADDR_MASTER : Fld := ⟨.dev, 0x60, 1, 0x0, 1, 0x0, 31, 30, .ro, 0, false, false⟩
def Reg.DEV_UNMAPPED_ADDR_WRITE : Fld := ⟨.dev, 0x60, 1, 0x0, 1, 0x0, 29, 29, .ro, 0, false, false⟩
def Reg.DEV_UNMAPPED_ADDR_SPACE : Fld := ⟨.dev, 0x60, 1, 0x0, 1, 0x0, 26, 26, .ro, 0, false, false⟩
def Reg.DEV_UNMAPPED_ADDR_ADDR : Fld := ⟨.dev, 0x60, 1, 0x0, 1, 0x0, 25, 0, .ro, 0, false, false⟩
def Reg.DEV_SCRATCH_DATA : Fld := ⟨.dev, 0x64, 1, 0x0, 1, 0x0, 31, 0, .rws, 0, false, false⟩

/-- The fields of page DEV. -/
def Reg.pageDev : List Fld :=
  [Reg.DEV_STATE_DEV_OP, Reg.DEV_CAUSE_CMD_REJECT, Reg.DEV_CAUSE_LOCKED, Reg.DEV_CAUSE_UNMAPPED,
   Reg.DEV_PART_PART, Reg.DEV_SILREV_MAJOR, Reg.DEV_SILREV_MINOR, Reg.DEV_STRAPS_FTM_ACTIVE,
   Reg.DEV_STRAPS_FTM, Reg.DEV_STRAPS_PROFILE, Reg.DEV_COUNTS_FB, Reg.DEV_COUNTS_AX] ++
  [Reg.DEV_COUNTS_HP, Reg.DEV_UID_UID, Reg.DEV_LINE_ID_ID, Reg.DEV_UNMAPPED_COUNT,
   Reg.DEV_UNMAPPED_ADDR_MASTER, Reg.DEV_UNMAPPED_ADDR_WRITE, Reg.DEV_UNMAPPED_ADDR_SPACE, Reg.DEV_UNMAPPED_ADDR_ADDR,
   Reg.DEV_SCRATCH_DATA]

/-! Page BND0: R108. -/

def Reg.BND0_CAUSE_CMD_REJECT : Fld := ⟨.bnd0, 0x14, 1, 0x0, 1, 0x0, 31, 31, .rw1c, 0, false, false⟩
def Reg.BND0_CAUSE_LOCKED : Fld := ⟨.bnd0, 0x14, 1, 0x0, 1, 0x0, 30, 30, .rw1c, 0, false, false⟩
def Reg.BND0_CAUSE_ECC_UE : Fld := ⟨.bnd0, 0x14, 1, 0x0, 1, 0x0, 7, 7, .rw1c, 0, false, false⟩
def Reg.BND0_CAUSE_ECC_CE : Fld := ⟨.bnd0, 0x14, 1, 0x0, 1, 0x0, 6, 6, .rw1c, 0, false, false⟩
def Reg.BND0_CAUSE_LOWFILL : Fld := ⟨.bnd0, 0x14, 1, 0x0, 1, 0x0, 5, 5, .rw1c, 0, false, false⟩
def Reg.BND0_CAUSE_WPTR_ERR : Fld := ⟨.bnd0, 0x14, 1, 0x0, 1, 0x0, 4, 4, .rw1c, 0, false, false⟩
def Reg.BND0_CAUSE_OVERWRITE : Fld := ⟨.bnd0, 0x14, 1, 0x0, 1, 0x0, 3, 3, .rw1c, 0, false, false⟩
def Reg.BND0_CAUSE_DENY : Fld := ⟨.bnd0, 0x14, 1, 0x0, 1, 0x0, 2, 2, .rw1c, 0, false, false⟩
def Reg.BND0_CAUSE_HDR_ERR : Fld := ⟨.bnd0, 0x14, 1, 0x0, 1, 0x0, 1, 1, .rw1c, 0, false, false⟩
def Reg.BND0_CAUSE_UNDERRUN : Fld := ⟨.bnd0, 0x14, 1, 0x0, 1, 0x0, 0, 0, .rw1c, 0, false, false⟩
def Reg.BND_ATTN_ATTN : Fld := ⟨.bnd0, 0x40, 3, 0x4, 1, 0x0, 31, 0, .rw1c, 0, false, false⟩
def Reg.BND_BANK_ON_BANK_ON : Fld := ⟨.bnd0, 0x50, 2, 0x4, 1, 0x0, 31, 0, .ro, 0, false, false⟩
def Reg.BND_ECC_CE_ECC_CE : Fld := ⟨.bnd0, 0x58, 1, 0x0, 1, 0x0, 15, 0, .ro, 0, false, false⟩
def Reg.BND_ECC_UE_ADDR_ECC_UE_ADDR : Fld := ⟨.bnd0, 0x5c, 1, 0x0, 1, 0x0, 27, 3, .ro, 0, false, false⟩

/-- The fields of page BND0. -/
def Reg.pageBnd0 : List Fld :=
  [Reg.BND0_CAUSE_CMD_REJECT, Reg.BND0_CAUSE_LOCKED, Reg.BND0_CAUSE_ECC_UE, Reg.BND0_CAUSE_ECC_CE,
   Reg.BND0_CAUSE_LOWFILL, Reg.BND0_CAUSE_WPTR_ERR, Reg.BND0_CAUSE_OVERWRITE, Reg.BND0_CAUSE_DENY,
   Reg.BND0_CAUSE_HDR_ERR, Reg.BND0_CAUSE_UNDERRUN, Reg.BND_ATTN_ATTN, Reg.BND_BANK_ON_BANK_ON] ++
  [Reg.BND_ECC_CE_ECC_CE, Reg.BND_ECC_UE_ADDR_ECC_UE_ADDR]

/-! Page BND1: R61, R66, R109. -/

def Reg.BND_RCFG_SPOOL : Fld := ⟨.bnd1, 0x40, 96, 0x20, 1, 0x0, 31, 31, .rwl, 0, false, false⟩
def Reg.BND_RCFG_SIZE : Fld := ⟨.bnd1, 0x40, 96, 0x20, 1, 0x0, 28, 16, .rwl, 0, false, false⟩
def Reg.BND_RCFG_BASE : Fld := ⟨.bnd1, 0x40, 96, 0x20, 1, 0x0, 11, 0, .rwl, 0, false, false⟩
def Reg.BND_RCOLS_COLS : Fld := ⟨.bnd1, 0x44, 96, 0x20, 1, 0x0, 13, 0, .rwl, 12288, false, false⟩
def Reg.BND_WPTR_WRAP : Fld := ⟨.bnd1, 0x48, 96, 0x20, 1, 0x0, 31, 31, .rw, 0, false, false⟩
def Reg.BND_WPTR_OFFSET : Fld := ⟨.bnd1, 0x48, 96, 0x20, 1, 0x0, 27, 0, .rw, 0, false, false⟩
def Reg.BND_RPTR_WRAP : Fld := ⟨.bnd1, 0x4c, 96, 0x20, 1, 0x0, 31, 31, .ro, 0, false, false⟩
def Reg.BND_RPTR_OFFSET : Fld := ⟨.bnd1, 0x4c, 96, 0x20, 1, 0x0, 27, 0, .ro, 0, false, false⟩
def Reg.BND_RWM_HI : Fld := ⟨.bnd1, 0x50, 96, 0x20, 1, 0x0, 31, 16, .rw, 128, false, false⟩
def Reg.BND_RWM_LO : Fld := ⟨.bnd1, 0x50, 96, 0x20, 1, 0x0, 15, 0, .rw, 16, false, false⟩
def Reg.BND_RLOW_LOW : Fld := ⟨.bnd1, 0x54, 96, 0x20, 1, 0x0, 15, 0, .rw, 0, false, false⟩
def Reg.BND_RSTAT_FILL : Fld := ⟨.bnd1, 0x58, 96, 0x20, 1, 0x0, 31, 16, .ro, 0, false, false⟩
def Reg.BND_RSTAT_LOWFILL : Fld := ⟨.bnd1, 0x58, 96, 0x20, 1, 0x0, 13, 13, .rw1c, 0, false, false⟩
def Reg.BND_RSTAT_WPTR_ERR : Fld := ⟨.bnd1, 0x58, 96, 0x20, 1, 0x0, 12, 12, .rw1c, 0, false, false⟩
def Reg.BND_RSTAT_OVERWRITE : Fld := ⟨.bnd1, 0x58, 96, 0x20, 1, 0x0, 11, 11, .rw1c, 0, false, false⟩
def Reg.BND_RSTAT_DENY : Fld := ⟨.bnd1, 0x58, 96, 0x20, 1, 0x0, 10, 10, .rw1c, 0, false, false⟩
def Reg.BND_RSTAT_HDR_ERR : Fld := ⟨.bnd1, 0x58, 96, 0x20, 1, 0x0, 9, 9, .rw1c, 0, false, false⟩
def Reg.BND_RSTAT_UNDERRUN : Fld := ⟨.bnd1, 0x58, 96, 0x20, 1, 0x0, 8, 8, .rw1c, 0, false, false⟩
def Reg.BND_RSTAT_HDR_CODE : Fld := ⟨.bnd1, 0x58, 96, 0x20, 1, 0x0, 7, 4, .ro, 0, false, false⟩
def Reg.BND_RSTAT_RSTATE : Fld := ⟨.bnd1, 0x58, 96, 0x20, 1, 0x0, 2, 0, .ro, 0, false, false⟩
def Reg.BND_RLOST_LOST : Fld := ⟨.bnd1, 0x5c, 96, 0x20, 1, 0x0, 31, 0, .ro, 0, false, false⟩
def Reg.BND1_CAUSE_CMD_REJECT : Fld := ⟨.bnd1, 0x14, 1, 0x0, 1, 0x0, 31, 31, .rw1c, 0, false, false⟩
def Reg.BND1_CAUSE_LOCKED : Fld := ⟨.bnd1, 0x14, 1, 0x0, 1, 0x0, 30, 30, .rw1c, 0, false, false⟩

/-- The fields of page BND1. -/
def Reg.pageBnd1 : List Fld :=
  [Reg.BND_RCFG_SPOOL, Reg.BND_RCFG_SIZE, Reg.BND_RCFG_BASE, Reg.BND_RCOLS_COLS,
   Reg.BND_WPTR_WRAP, Reg.BND_WPTR_OFFSET, Reg.BND_RPTR_WRAP, Reg.BND_RPTR_OFFSET,
   Reg.BND_RWM_HI, Reg.BND_RWM_LO, Reg.BND_RLOW_LOW, Reg.BND_RSTAT_FILL] ++
  [Reg.BND_RSTAT_LOWFILL, Reg.BND_RSTAT_WPTR_ERR, Reg.BND_RSTAT_OVERWRITE, Reg.BND_RSTAT_DENY,
   Reg.BND_RSTAT_HDR_ERR, Reg.BND_RSTAT_UNDERRUN, Reg.BND_RSTAT_HDR_CODE, Reg.BND_RSTAT_RSTATE,
   Reg.BND_RLOST_LOST, Reg.BND1_CAUSE_CMD_REJECT, Reg.BND1_CAUSE_LOCKED]

/-! Page MEM: R110. -/

def Reg.MEM_CAUSE_CMD_REJECT : Fld := ⟨.mem, 0x14, 1, 0x0, 1, 0x0, 31, 31, .rw1c, 0, false, false⟩
def Reg.MEM_CAUSE_LOCKED : Fld := ⟨.mem, 0x14, 1, 0x0, 1, 0x0, 30, 30, .rw1c, 0, false, false⟩
def Reg.MEM_CAUSE_NOT_READY : Fld := ⟨.mem, 0x14, 1, 0x0, 1, 0x0, 5, 5, .rw1c, 0, false, false⟩
def Reg.MEM_CAUSE_AP_OOR : Fld := ⟨.mem, 0x14, 1, 0x0, 1, 0x0, 4, 4, .rw1c, 0, false, false⟩
def Reg.MEM_CAUSE_ECC_UE : Fld := ⟨.mem, 0x14, 1, 0x0, 1, 0x0, 3, 3, .rw1c, 0, false, false⟩
def Reg.MEM_CAUSE_ECC_CE : Fld := ⟨.mem, 0x14, 1, 0x0, 1, 0x0, 2, 2, .rw1c, 0, false, false⟩
def Reg.MEM_CAUSE_TRAIN_FAIL : Fld := ⟨.mem, 0x14, 1, 0x0, 1, 0x0, 1, 1, .rw1c, 0, false, false⟩
def Reg.MEM_CAUSE_TRAIN_DONE : Fld := ⟨.mem, 0x14, 1, 0x0, 1, 0x0, 0, 0, .rw1c, 0, false, false⟩
def Reg.MEM_CFG_SCRUB_EN : Fld := ⟨.mem, 0x40, 1, 0x0, 1, 0x0, 10, 10, .rwl, 1, false, false⟩
def Reg.MEM_CFG_LINK_ECC : Fld := ⟨.mem, 0x40, 1, 0x0, 1, 0x0, 9, 9, .rwl, 1, false, false⟩
def Reg.MEM_CFG_ECC_EN : Fld := ⟨.mem, 0x40, 1, 0x0, 1, 0x0, 8, 8, .rwl, 1, false, false⟩
def Reg.MEM_CFG_DENSITY : Fld := ⟨.mem, 0x40, 1, 0x0, 1, 0x0, 7, 4, .rwl, 0, false, false⟩
def Reg.MEM_CFG_CH_EN : Fld := ⟨.mem, 0x40, 1, 0x0, 1, 0x0, 3, 0, .rwl, 0, false, false⟩
def Reg.MEM_CAP_CAP : Fld := ⟨.mem, 0x44, 1, 0x0, 1, 0x0, 15, 0, .ro, 0, false, false⟩
def Reg.MEM_AP_BASE_BASE : Fld := ⟨.mem, 0x48, 1, 0x0, 1, 0x0, 6, 0, .rw, 0, false, false⟩
def Reg.MEM_SCRUB_INTERVAL : Fld := ⟨.mem, 0x4c, 1, 0x0, 1, 0x0, 15, 0, .rw, 10, false, false⟩
def Reg.MEM_ECC_CE_COUNT : Fld := ⟨.mem, 0x50, 1, 0x0, 1, 0x0, 31, 0, .ro, 0, false, false⟩
def Reg.MEM_UE_ADDR_ADDR : Fld := ⟨.mem, 0x54, 2, 0x4, 1, 0x0, 31, 3, .ro, 0, false, false⟩
def Reg.MEM_TRAIN_STAT_PASS : Fld := ⟨.mem, 0x5c, 1, 0x0, 1, 0x0, 3, 0, .ro, 0, false, false⟩

/-- The fields of page MEM. -/
def Reg.pageMem : List Fld :=
  [Reg.MEM_CAUSE_CMD_REJECT, Reg.MEM_CAUSE_LOCKED, Reg.MEM_CAUSE_NOT_READY, Reg.MEM_CAUSE_AP_OOR,
   Reg.MEM_CAUSE_ECC_UE, Reg.MEM_CAUSE_ECC_CE, Reg.MEM_CAUSE_TRAIN_FAIL, Reg.MEM_CAUSE_TRAIN_DONE,
   Reg.MEM_CFG_SCRUB_EN, Reg.MEM_CFG_LINK_ECC, Reg.MEM_CFG_ECC_EN, Reg.MEM_CFG_DENSITY] ++
  [Reg.MEM_CFG_CH_EN, Reg.MEM_CAP_CAP, Reg.MEM_AP_BASE_BASE, Reg.MEM_SCRUB_INTERVAL,
   Reg.MEM_ECC_CE_COUNT, Reg.MEM_UE_ADDR_ADDR, Reg.MEM_TRAIN_STAT_PASS]

/-! Page SCR: R137, R138. -/

def Reg.SCR_CAUSE_CMD_REJECT : Fld := ⟨.scr, 0x14, 1, 0x0, 1, 0x0, 31, 31, .rw1c, 0, false, false⟩
def Reg.SCR_CAUSE_SLOT_BUSY : Fld := ⟨.scr, 0x14, 1, 0x0, 1, 0x0, 6, 6, .rw1c, 0, false, false⟩
def Reg.SCR_CAUSE_NAT_UE : Fld := ⟨.scr, 0x14, 1, 0x0, 1, 0x0, 5, 5, .rw1c, 0, false, false⟩
def Reg.SCR_CAUSE_ECC_UE : Fld := ⟨.scr, 0x14, 1, 0x0, 1, 0x0, 4, 4, .rw1c, 0, false, false⟩
def Reg.SCR_CAUSE_GEOM : Fld := ⟨.scr, 0x14, 1, 0x0, 1, 0x0, 3, 3, .rw1c, 0, false, false⟩
def Reg.SCR_CAUSE_LOST : Fld := ⟨.scr, 0x14, 1, 0x0, 1, 0x0, 2, 2, .rw1c, 0, false, false⟩
def Reg.SCR_CAUSE_COLLIDE : Fld := ⟨.scr, 0x14, 1, 0x0, 1, 0x0, 1, 1, .rw1c, 0, false, false⟩
def Reg.SCR_CAUSE_SUBST_BAD : Fld := ⟨.scr, 0x14, 1, 0x0, 1, 0x0, 0, 0, .rw1c, 0, false, false⟩
def Reg.SCR_ATTN_ATTN : Fld := ⟨.scr, 0x40, 1, 0x0, 1, 0x0, 11, 0, .rw1c, 0, false, false⟩
def Reg.SCR_IMM_DATA_DATA : Fld := ⟨.scr, 0x44, 1, 0x0, 1, 0x0, 31, 0, .rw, 3355443200, false, false⟩
def Reg.SCR_SLOT_USE_USE : Fld := ⟨.scr, 0x48, 1, 0x0, 1, 0x0, 7, 0, .ro, 0, false, false⟩
def Reg.SCR_ECC_CE_COUNT : Fld := ⟨.scr, 0x4c, 1, 0x0, 1, 0x0, 15, 0, .ro, 0, false, false⟩
def Reg.SCR_PCFG_DT_EN : Fld := ⟨.scr, 0x100, 12, 0x40, 1, 0x0, 24, 24, .rw, 1, true, false⟩
def Reg.SCR_PCFG_PAIR : Fld := ⟨.scr, 0x100, 12, 0x40, 1, 0x0, 16, 16, .rw, 0, true, false⟩
def Reg.SCR_PCFG_SPREAD : Fld := ⟨.scr, 0x100, 12, 0x40, 1, 0x0, 15, 8, .rw, 128, true, false⟩
def Reg.SCR_PCFG_XORG : Fld := ⟨.scr, 0x100, 12, 0x40, 1, 0x0, 7, 0, .rw, 0, true, false⟩
def Reg.SCR_SEAM_RSEAM : Fld := ⟨.scr, 0x104, 12, 0x40, 1, 0x0, 24, 16, .rw, 0, true, false⟩
def Reg.SCR_SEAM_LSEAM : Fld := ⟨.scr, 0x104, 12, 0x40, 1, 0x0, 8, 0, .rw, 0, true, false⟩
def Reg.SCR_DIE_PRESENT : Fld := ⟨.scr, 0x108, 12, 0x40, 4, 0x4, 31, 31, .rw, 1, true, false⟩
def Reg.SCR_DIE_REVERSE : Fld := ⟨.scr, 0x108, 12, 0x40, 4, 0x4, 30, 30, .rw, 0, true, false⟩
def Reg.SCR_DIE_REDUND : Fld := ⟨.scr, 0x108, 12, 0x40, 4, 0x4, 29, 29, .rw, 0, true, false⟩
def Reg.SCR_DIE_NOZZLES : Fld := ⟨.scr, 0x108, 12, 0x40, 4, 0x4, 27, 16, .rw, 3072, true, false⟩
def Reg.SCR_DIE_COL_BASE : Fld := ⟨.scr, 0x108, 12, 0x40, 4, 0x4, 13, 0, .rw, 0, true, false⟩
def Reg.SCR_PSTAT_GEOM : Fld := ⟨.scr, 0x118, 12, 0x40, 1, 0x0, 31, 31, .ro, 0, false, false⟩
def Reg.SCR_PSTAT_SLOT : Fld := ⟨.scr, 0x118, 12, 0x40, 1, 0x0, 18, 16, .ro, 0, false, false⟩
def Reg.SCR_PSTAT_PHASE_Y : Fld := ⟨.scr, 0x118, 12, 0x40, 1, 0x0, 15, 8, .ro, 0, false, false⟩
def Reg.SCR_PSTAT_PHASE_X : Fld := ⟨.scr, 0x118, 12, 0x40, 1, 0x0, 7, 0, .ro, 0, false, false⟩
def Reg.SCR_SUBST_CNT_COUNT : Fld := ⟨.scr, 0x120, 12, 0x40, 1, 0x0, 31, 0, .ro, 0, false, false⟩
def Reg.SCR_SPREAD_CNT_COUNT : Fld := ⟨.scr, 0x124, 12, 0x40, 1, 0x0, 31, 0, .ro, 0, false, false⟩
def Reg.SCR_LOST_CNT_COUNT : Fld := ⟨.scr, 0x128, 12, 0x40, 1, 0x0, 31, 0, .ro, 0, false, false⟩
def Reg.SCR_COLLIDE_CNT_COUNT : Fld := ⟨.scr, 0x12c, 12, 0x40, 1, 0x0, 31, 0, .ro, 0, false, false⟩

/-- The fields of page SCR. -/
def Reg.pageScr : List Fld :=
  [Reg.SCR_CAUSE_CMD_REJECT, Reg.SCR_CAUSE_SLOT_BUSY, Reg.SCR_CAUSE_NAT_UE, Reg.SCR_CAUSE_ECC_UE,
   Reg.SCR_CAUSE_GEOM, Reg.SCR_CAUSE_LOST, Reg.SCR_CAUSE_COLLIDE, Reg.SCR_CAUSE_SUBST_BAD,
   Reg.SCR_ATTN_ATTN, Reg.SCR_IMM_DATA_DATA, Reg.SCR_SLOT_USE_USE, Reg.SCR_ECC_CE_COUNT] ++
  [Reg.SCR_PCFG_DT_EN, Reg.SCR_PCFG_PAIR, Reg.SCR_PCFG_SPREAD, Reg.SCR_PCFG_XORG,
   Reg.SCR_SEAM_RSEAM, Reg.SCR_SEAM_LSEAM, Reg.SCR_DIE_PRESENT, Reg.SCR_DIE_REVERSE,
   Reg.SCR_DIE_REDUND, Reg.SCR_DIE_NOZZLES, Reg.SCR_DIE_COL_BASE, Reg.SCR_PSTAT_GEOM] ++
  [Reg.SCR_PSTAT_SLOT, Reg.SCR_PSTAT_PHASE_Y, Reg.SCR_PSTAT_PHASE_X, Reg.SCR_SUBST_CNT_COUNT,
   Reg.SCR_SPREAD_CNT_COUNT, Reg.SCR_LOST_CNT_COUNT, Reg.SCR_COLLIDE_CNT_COUNT]

/-! Page FT: R174, R175, R229, R230. -/

def Reg.FT_CAUSE_CMD_REJECT : Fld := ⟨.ft, 0x14, 1, 0x0, 1, 0x0, 31, 31, .rw1c, 0, false, false⟩
def Reg.FT_CAUSE_LOCKED : Fld := ⟨.ft, 0x14, 1, 0x0, 1, 0x0, 30, 30, .rw1c, 0, false, false⟩
def Reg.FT_CAUSE_SLOT_REJ : Fld := ⟨.ft, 0x14, 1, 0x0, 1, 0x0, 21, 21, .rw1c, 0, false, false⟩
def Reg.FT_CAUSE_CFG_WR : Fld := ⟨.ft, 0x14, 1, 0x0, 1, 0x0, 20, 20, .rw1c, 0, false, false⟩
def Reg.FT_CAUSE_MISFIT : Fld := ⟨.ft, 0x14, 1, 0x0, 1, 0x0, 19, 19, .rw1c, 0, false, false⟩
def Reg.FT_CAUSE_CLIP : Fld := ⟨.ft, 0x14, 1, 0x0, 1, 0x0, 18, 18, .rw1c, 0, false, false⟩
def Reg.FT_CAUSE_RATE : Fld := ⟨.ft, 0x14, 1, 0x0, 1, 0x0, 17, 17, .rw1c, 0, false, false⟩
def Reg.FT_PITCH_GUARD : Fld := ⟨.ft, 0x40, 1, 0x0, 1, 0x0, 31, 16, .rw, 280, false, true⟩
def Reg.FT_PITCH_PITCH : Fld := ⟨.ft, 0x40, 1, 0x0, 1, 0x0, 15, 0, .rw, 4800, false, true⟩
def Reg.FT_ADDR_ORD0_ORD : Fld := ⟨.ft, 0x44, 1, 0x0, 1, 0x0, 31, 0, .rw, 1985229328, false, true⟩
def Reg.FT_ADDR_ORD1_ORD : Fld := ⟨.ft, 0x48, 1, 0x0, 1, 0x0, 31, 0, .rw, 4275878552, false, true⟩
def Reg.FT_SLOT_WIN : Fld := ⟨.ft, 0x4c, 1, 0x0, 1, 0x0, 31, 16, .rw, 4520, false, true⟩
def Reg.FT_SLOT_OFS : Fld := ⟨.ft, 0x4c, 1, 0x0, 1, 0x0, 15, 0, .rw, 0, false, true⟩
def Reg.FT_SEQ_CRED : Fld := ⟨.ft, 0x50, 1, 0x0, 1, 0x0, 17, 16, .rw, 1, false, true⟩
def Reg.FT_SEQ_GAP : Fld := ⟨.ft, 0x50, 1, 0x0, 1, 0x0, 7, 0, .rw, 8, false, true⟩
def Reg.FT_CTL_OVD_EN : Fld := ⟨.ft, 0x54, 1, 0x0, 1, 0x0, 0, 0, .rw, 0, false, true⟩
def Reg.FT_ENV_AB_ENV_B : Fld := ⟨.ft, 0x58, 1, 0x0, 1, 0x0, 31, 16, .ro, 0, false, false⟩
def Reg.FT_ENV_AB_ENV_A : Fld := ⟨.ft, 0x58, 1, 0x0, 1, 0x0, 15, 0, .ro, 0, false, false⟩
def Reg.FT_ENV_C_ENV_C : Fld := ⟨.ft, 0x5c, 1, 0x0, 1, 0x0, 15, 0, .ro, 0, false, false⟩
def Reg.FT_SPAN_SPAN : Fld := ⟨.ft, 0x60, 1, 0x0, 1, 0x0, 15, 0, .ro, 0, false, false⟩
def Reg.FT_FIT_GAPQ : Fld := ⟨.ft, 0x64, 1, 0x0, 1, 0x0, 8, 8, .ro, 0, false, false⟩
def Reg.FT_FIT_LINK : Fld := ⟨.ft, 0x64, 1, 0x0, 1, 0x0, 7, 7, .ro, 0, false, false⟩
def Reg.FT_FIT_GRID : Fld := ⟨.ft, 0x64, 1, 0x0, 1, 0x0, 6, 6, .ro, 0, false, false⟩
def Reg.FT_FIT_WINDOW : Fld := ⟨.ft, 0x64, 1, 0x0, 1, 0x0, 5, 5, .ro, 0, false, false⟩
def Reg.FT_FIT_SPAN : Fld := ⟨.ft, 0x64, 1, 0x0, 1, 0x0, 4, 4, .ro, 0, false, false⟩
def Reg.FT_FIT_PITCH : Fld := ⟨.ft, 0x64, 1, 0x0, 1, 0x0, 3, 3, .ro, 0, false, false⟩
def Reg.FT_FIT_ORDER : Fld := ⟨.ft, 0x64, 1, 0x0, 1, 0x0, 2, 2, .ro, 0, false, false⟩
def Reg.FT_FIT_CRED0 : Fld := ⟨.ft, 0x64, 1, 0x0, 1, 0x0, 1, 1, .ro, 0, false, false⟩
def Reg.FT_FIT_FITS : Fld := ⟨.ft, 0x64, 1, 0x0, 1, 0x0, 0, 0, .ro, 1, false, false⟩
def Reg.FT_LINES_COUNT : Fld := ⟨.ft, 0x68, 1, 0x0, 1, 0x0, 31, 0, .ro, 0, false, false⟩
def Reg.FT_CLIPS_COUNT : Fld := ⟨.ft, 0x6c, 1, 0x0, 1, 0x0, 31, 0, .ro, 0, false, false⟩
def Reg.FT_RATE_WAIT_COUNT : Fld := ⟨.ft, 0x70, 1, 0x0, 1, 0x0, 31, 0, .ro, 0, false, false⟩
def Reg.GRP_PACE_FIXED : Fld := ⟨.ft, 0x100, 1, 0x0, 1, 0x0, 0, 0, .rw, 0, false, false⟩
def Reg.GRP_PERIOD_INT_INT : Fld := ⟨.ft, 0x104, 1, 0x0, 1, 0x0, 19, 0, .rw, 20834, false, false⟩
def Reg.GRP_PERIOD_FRAC_FRAC : Fld := ⟨.ft, 0x108, 1, 0x0, 1, 0x0, 31, 0, .rw, 0, false, false⟩
def Reg.GRP_MAX_ACTIVE_MAX : Fld := ⟨.ft, 0x10c, 1, 0x0, 1, 0x0, 5, 0, .rw, 12, false, false⟩
def Reg.GRP_GRID_GRID : Fld := ⟨.ft, 0x110, 1, 0x0, 1, 0x0, 15, 0, .rw, 4800, false, false⟩
def Reg.GRP_PLAN_PEND : Fld := ⟨.ft, 0x114, 1, 0x0, 1, 0x0, 31, 31, .ro, 0, false, false⟩
def Reg.GRP_PLAN_MISFIT : Fld := ⟨.ft, 0x114, 1, 0x0, 1, 0x0, 27, 16, .ro, 0, false, false⟩
def Reg.GRP_PLAN_PEAK : Fld := ⟨.ft, 0x114, 1, 0x0, 1, 0x0, 5, 0, .ro, 12, false, false⟩
def Reg.FT_CAUSE_LOST : Fld := ⟨.ft, 0x14, 1, 0x0, 1, 0x0, 8, 8, .rw1c, 0, false, false⟩
def Reg.FT_CAUSE_POS_LOST : Fld := ⟨.ft, 0x14, 1, 0x0, 1, 0x0, 7, 7, .rw1c, 0, false, false⟩
def Reg.FT_CAUSE_ROWSPAN : Fld := ⟨.ft, 0x14, 1, 0x0, 1, 0x0, 6, 6, .rw1c, 0, false, false⟩
def Reg.FT_CAUSE_REF_LOSS : Fld := ⟨.ft, 0x14, 1, 0x0, 1, 0x0, 5, 5, .rw1c, 0, false, false⟩
def Reg.FT_CAUSE_SLOW : Fld := ⟨.ft, 0x14, 1, 0x0, 1, 0x0, 4, 4, .rw1c, 0, false, false⟩
def Reg.FT_CAUSE_REV_HOLD : Fld := ⟨.ft, 0x14, 1, 0x0, 1, 0x0, 3, 3, .rw1c, 0, false, false⟩
def Reg.FT_CAUSE_REVERSE : Fld := ⟨.ft, 0x14, 1, 0x0, 1, 0x0, 2, 2, .rw1c, 0, false, false⟩
def Reg.FT_CAUSE_PASSED : Fld := ⟨.ft, 0x14, 1, 0x0, 1, 0x0, 1, 1, .rw1c, 0, false, false⟩
def Reg.FT_CAUSE_LATE : Fld := ⟨.ft, 0x14, 1, 0x0, 1, 0x0, 0, 0, .rw1c, 0, false, false⟩
def Reg.PL_MOUNT_LO_MOUNT : Fld := ⟨.ft, 0x200, 1, 0x0, 1, 0x0, 31, 0, .rw, 0, true, false⟩
def Reg.PL_MOUNT_HI_MOUNT : Fld := ⟨.ft, 0x204, 1, 0x0, 1, 0x0, 31, 0, .rw, 0, true, false⟩
def Reg.PL_ROWOFS_O : Fld := ⟨.ft, 0x208, 8, 0x4, 1, 0x0, 31, 0, .rw, 0, true, false⟩
def Reg.PL_LATE_WIN_WIN : Fld := ⟨.ft, 0x228, 1, 0x0, 1, 0x0, 31, 0, .rw, 16384, true, false⟩
def Reg.PL_REV_REVERSE_THR : Fld := ⟨.ft, 0x22c, 1, 0x0, 1, 0x0, 15, 0, .rw, 4, true, false⟩
def Reg.PL_DELAY_ROWSPAN : Fld := ⟨.ft, 0x230, 1, 0x0, 1, 0x0, 31, 31, .ro, 0, false, false⟩
def Reg.PL_DELAY_K : Fld := ⟨.ft, 0x230, 1, 0x0, 1, 0x0, 23, 0, .ro, 0, false, false⟩
def Reg.PL_RESID_FIX : Fld := ⟨.ft, 0x234, 1, 0x0, 1, 0x0, 31, 16, .ro, 0, false, false⟩
def Reg.PL_RESID_ROW : Fld := ⟨.ft, 0x234, 1, 0x0, 1, 0x0, 15, 0, .ro, 0, false, false⟩
def Reg.PL_CENTER_CTR : Fld := ⟨.ft, 0x238, 1, 0x0, 1, 0x0, 31, 0, .ro, 0, false, false⟩
def Reg.PL_LATE_CNT_COUNT : Fld := ⟨.ft, 0x23c, 1, 0x0, 1, 0x0, 31, 0, .ro, 0, false, false⟩
def Reg.PL_LOST_CNT_COUNT : Fld := ⟨.ft, 0x240, 1, 0x0, 1, 0x0, 31, 0, .ro, 0, false, false⟩
def Reg.PL_LOST_CAUSE_CAUSE : Fld := ⟨.ft, 0x244, 1, 0x0, 1, 0x0, 5, 0, .rw1c, 0, false, false⟩
def Reg.PL_PASSED_CNT_COUNT : Fld := ⟨.ft, 0x248, 1, 0x0, 1, 0x0, 31, 0, .ro, 0, false, false⟩
def Reg.PL_REV_CNT_COUNT : Fld := ⟨.ft, 0x24c, 1, 0x0, 1, 0x0, 31, 0, .ro, 0, false, false⟩
def Reg.PL_STAT_REV_HOLD : Fld := ⟨.ft, 0x250, 1, 0x0, 1, 0x0, 3, 3, .ro, 0, false, false⟩
def Reg.PL_STAT_S_VALID : Fld := ⟨.ft, 0x250, 1, 0x0, 1, 0x0, 2, 2, .ro, 0, false, false⟩
def Reg.PL_STAT_SLOW : Fld := ⟨.ft, 0x250, 1, 0x0, 1, 0x0, 1, 1, .ro, 0, false, false⟩
def Reg.PL_STAT_REF_OK : Fld := ⟨.ft, 0x250, 1, 0x0, 1, 0x0, 0, 0, .ro, 0, false, false⟩
def Reg.PL_PAGE_S_LO_S : Fld := ⟨.ft, 0x254, 1, 0x0, 1, 0x0, 31, 0, .ro, 0, false, false⟩
def Reg.PL_PAGE_S_HI_S : Fld := ⟨.ft, 0x258, 1, 0x0, 1, 0x0, 15, 0, .ro, 0, false, false⟩
def Reg.PL_LAST_X_LO_X : Fld := ⟨.ft, 0x25c, 1, 0x0, 1, 0x0, 31, 0, .ro, 0, false, false⟩
def Reg.PL_LAST_X_HI_X : Fld := ⟨.ft, 0x260, 1, 0x0, 1, 0x0, 15, 0, .ro, 0, false, false⟩
def Reg.PL_AGE_AGE : Fld := ⟨.ft, 0x264, 1, 0x0, 1, 0x0, 7, 0, .ro, 20, false, false⟩
def Reg.PL_GRP_REF_REF : Fld := ⟨.ft, 0x2c0, 1, 0x0, 1, 0x0, 6, 0, .rw, 0, false, false⟩
def Reg.PL_GRP_PITCH_LO_PITCH : Fld := ⟨.ft, 0x2c4, 1, 0x0, 1, 0x0, 31, 0, .rw, 0, false, false⟩
def Reg.PL_GRP_PITCH_HI_PITCH : Fld := ⟨.ft, 0x2c8, 1, 0x0, 1, 0x0, 31, 0, .rw, 16, false, false⟩
def Reg.PL_GRP_ORIGIN_LO_ORIGIN : Fld := ⟨.ft, 0x2cc, 1, 0x0, 1, 0x0, 31, 0, .rw, 0, false, false⟩
def Reg.PL_GRP_ORIGIN_HI_ORIGIN : Fld := ⟨.ft, 0x2d0, 1, 0x0, 1, 0x0, 15, 0, .rw, 0, false, false⟩
def Reg.PL_GRP_VMIN_VMIN : Fld := ⟨.ft, 0x2d4, 1, 0x0, 1, 0x0, 31, 0, .rw, 655, false, false⟩
def Reg.PL_GRP_ORG_PAGE_PAGE : Fld := ⟨.ft, 0x2d8, 1, 0x0, 1, 0x0, 31, 0, .rw, 0, false, false⟩
def Reg.PL_GRP_TICK_LO_TICK : Fld := ⟨.ft, 0x2dc, 1, 0x0, 1, 0x0, 31, 0, .ro, 0, false, false⟩
def Reg.PL_GRP_TICK_HI_TICK : Fld := ⟨.ft, 0x2e0, 1, 0x0, 1, 0x0, 15, 0, .ro, 0, false, false⟩

/-- The fields of page FT. -/
def Reg.pageFt : List Fld :=
  [Reg.FT_CAUSE_CMD_REJECT, Reg.FT_CAUSE_LOCKED, Reg.FT_CAUSE_SLOT_REJ, Reg.FT_CAUSE_CFG_WR,
   Reg.FT_CAUSE_MISFIT, Reg.FT_CAUSE_CLIP, Reg.FT_CAUSE_RATE, Reg.FT_PITCH_GUARD,
   Reg.FT_PITCH_PITCH, Reg.FT_ADDR_ORD0_ORD, Reg.FT_ADDR_ORD1_ORD, Reg.FT_SLOT_WIN] ++
  [Reg.FT_SLOT_OFS, Reg.FT_SEQ_CRED, Reg.FT_SEQ_GAP, Reg.FT_CTL_OVD_EN,
   Reg.FT_ENV_AB_ENV_B, Reg.FT_ENV_AB_ENV_A, Reg.FT_ENV_C_ENV_C, Reg.FT_SPAN_SPAN,
   Reg.FT_FIT_GAPQ, Reg.FT_FIT_LINK, Reg.FT_FIT_GRID, Reg.FT_FIT_WINDOW] ++
  [Reg.FT_FIT_SPAN, Reg.FT_FIT_PITCH, Reg.FT_FIT_ORDER, Reg.FT_FIT_CRED0,
   Reg.FT_FIT_FITS, Reg.FT_LINES_COUNT, Reg.FT_CLIPS_COUNT, Reg.FT_RATE_WAIT_COUNT,
   Reg.GRP_PACE_FIXED, Reg.GRP_PERIOD_INT_INT, Reg.GRP_PERIOD_FRAC_FRAC, Reg.GRP_MAX_ACTIVE_MAX] ++
  [Reg.GRP_GRID_GRID, Reg.GRP_PLAN_PEND, Reg.GRP_PLAN_MISFIT, Reg.GRP_PLAN_PEAK,
   Reg.FT_CAUSE_LOST, Reg.FT_CAUSE_POS_LOST, Reg.FT_CAUSE_ROWSPAN, Reg.FT_CAUSE_REF_LOSS,
   Reg.FT_CAUSE_SLOW, Reg.FT_CAUSE_REV_HOLD, Reg.FT_CAUSE_REVERSE, Reg.FT_CAUSE_PASSED] ++
  [Reg.FT_CAUSE_LATE, Reg.PL_MOUNT_LO_MOUNT, Reg.PL_MOUNT_HI_MOUNT, Reg.PL_ROWOFS_O,
   Reg.PL_LATE_WIN_WIN, Reg.PL_REV_REVERSE_THR, Reg.PL_DELAY_ROWSPAN, Reg.PL_DELAY_K,
   Reg.PL_RESID_FIX, Reg.PL_RESID_ROW, Reg.PL_CENTER_CTR, Reg.PL_LATE_CNT_COUNT] ++
  [Reg.PL_LOST_CNT_COUNT, Reg.PL_LOST_CAUSE_CAUSE, Reg.PL_PASSED_CNT_COUNT, Reg.PL_REV_CNT_COUNT,
   Reg.PL_STAT_REV_HOLD, Reg.PL_STAT_S_VALID, Reg.PL_STAT_SLOW, Reg.PL_STAT_REF_OK,
   Reg.PL_PAGE_S_LO_S, Reg.PL_PAGE_S_HI_S, Reg.PL_LAST_X_LO_X, Reg.PL_LAST_X_HI_X] ++
  [Reg.PL_AGE_AGE, Reg.PL_GRP_REF_REF, Reg.PL_GRP_PITCH_LO_PITCH, Reg.PL_GRP_PITCH_HI_PITCH,
   Reg.PL_GRP_ORIGIN_LO_ORIGIN, Reg.PL_GRP_ORIGIN_HI_ORIGIN, Reg.PL_GRP_VMIN_VMIN, Reg.PL_GRP_ORG_PAGE_PAGE,
   Reg.PL_GRP_TICK_LO_TICK, Reg.PL_GRP_TICK_HI_TICK]

/-! Page LK: R176. -/

def Reg.LK_CAUSE_CMD_REJECT : Fld := ⟨.lk, 0x14, 1, 0x0, 1, 0x0, 31, 31, .rw1c, 0, false, false⟩
def Reg.LK_CAUSE_LOCKED : Fld := ⟨.lk, 0x14, 1, 0x0, 1, 0x0, 30, 30, .rw1c, 0, false, false⟩
def Reg.LK_CAUSE_CFG_WR : Fld := ⟨.lk, 0x14, 1, 0x0, 1, 0x0, 9, 9, .rw1c, 0, false, false⟩
def Reg.LK_CAUSE_CFG_REJ : Fld := ⟨.lk, 0x14, 1, 0x0, 1, 0x0, 8, 8, .rw1c, 0, false, false⟩
def Reg.LK_CAUSE_TRIM_LAG : Fld := ⟨.lk, 0x14, 1, 0x0, 1, 0x0, 7, 7, .rw1c, 0, false, false⟩
def Reg.LK_CAUSE_HEAD_FAULT : Fld := ⟨.lk, 0x14, 1, 0x0, 1, 0x0, 6, 6, .rw1c, 0, false, false⟩
def Reg.LK_CAUSE_RT_LOSS : Fld := ⟨.lk, 0x14, 1, 0x0, 1, 0x0, 5, 5, .rw1c, 0, false, false⟩
def Reg.LK_CAUSE_NACK : Fld := ⟨.lk, 0x14, 1, 0x0, 1, 0x0, 4, 4, .rw1c, 0, false, false⟩
def Reg.LK_CAUSE_ACK_MISS : Fld := ⟨.lk, 0x14, 1, 0x0, 1, 0x0, 3, 3, .rw1c, 0, false, false⟩
def Reg.LK_CAUSE_RT_ERR : Fld := ⟨.lk, 0x14, 1, 0x0, 1, 0x0, 2, 2, .rw1c, 0, false, false⟩
def Reg.LK_CAUSE_LINK_LATE : Fld := ⟨.lk, 0x14, 1, 0x0, 1, 0x0, 1, 1, .rw1c, 0, false, false⟩
def Reg.LK_CAUSE_ID_CHANGE : Fld := ⟨.lk, 0x14, 1, 0x0, 1, 0x0, 0, 0, .rw1c, 0, false, false⟩
def Reg.LK_CFG_SETUP : Fld := ⟨.lk, 0x40, 1, 0x0, 1, 0x0, 31, 16, .rw, 1000, false, true⟩
def Reg.LK_CFG_TRIM_MODE : Fld := ⟨.lk, 0x40, 1, 0x0, 1, 0x0, 4, 4, .rw, 0, false, true⟩
def Reg.LK_CFG_RATE : Fld := ⟨.lk, 0x40, 1, 0x0, 1, 0x0, 1, 0, .rw, 3, false, true⟩
def Reg.LK_RT_ACK_MISS_MAX : Fld := ⟨.lk, 0x44, 1, 0x0, 1, 0x0, 23, 16, .rw, 4, false, false⟩
def Reg.LK_RT_TIMEOUT : Fld := ⟨.lk, 0x44, 1, 0x0, 1, 0x0, 9, 0, .rw, 500, false, false⟩
def Reg.LK_STAT_STARTED : Fld := ⟨.lk, 0x48, 1, 0x0, 1, 0x0, 17, 17, .ro, 0, false, false⟩
def Reg.LK_STAT_CFG_OK : Fld := ⟨.lk, 0x48, 1, 0x0, 1, 0x0, 16, 16, .ro, 0, false, false⟩
def Reg.LK_STAT_IDENT_OK : Fld := ⟨.lk, 0x48, 1, 0x0, 1, 0x0, 15, 15, .ro, 0, false, false⟩
def Reg.LK_STAT_PEND : Fld := ⟨.lk, 0x48, 1, 0x0, 1, 0x0, 13, 4, .ro, 0, false, false⟩
def Reg.LK_STAT_TBANK : Fld := ⟨.lk, 0x48, 1, 0x0, 1, 0x0, 0, 0, .ro, 0, false, false⟩
def Reg.LK_ID0_CLASS : Fld := ⟨.lk, 0x4c, 1, 0x0, 1, 0x0, 31, 16, .ro, 0, false, false⟩
def Reg.LK_ID0_VENDOR : Fld := ⟨.lk, 0x4c, 1, 0x0, 1, 0x0, 15, 0, .ro, 0, false, false⟩
def Reg.LK_ID1_SERIAL : Fld := ⟨.lk, 0x50, 1, 0x0, 1, 0x0, 31, 0, .ro, 0, false, false⟩
def Reg.LK_ID2_NOZZLES : Fld := ⟨.lk, 0x54, 1, 0x0, 1, 0x0, 31, 16, .ro, 0, false, false⟩
def Reg.LK_ID2_DIES : Fld := ⟨.lk, 0x54, 1, 0x0, 1, 0x0, 11, 8, .ro, 0, false, false⟩
def Reg.LK_ID2_VER : Fld := ⟨.lk, 0x54, 1, 0x0, 1, 0x0, 7, 0, .ro, 0, false, false⟩
def Reg.LK_ID3_PPMIN : Fld := ⟨.lk, 0x58, 1, 0x0, 1, 0x0, 31, 16, .ro, 0, false, false⟩
def Reg.LK_ID3_WMAX : Fld := ⟨.lk, 0x58, 1, 0x0, 1, 0x0, 15, 0, .ro, 0, false, false⟩
def Reg.LK_ID4_RATEMAX : Fld := ⟨.lk, 0x5c, 1, 0x0, 1, 0x0, 17, 16, .ro, 0, false, false⟩
def Reg.LK_ID4_SETUP : Fld := ⟨.lk, 0x5c, 1, 0x0, 1, 0x0, 15, 0, .ro, 0, false, false⟩
def Reg.LK_TEMP01_TEMP1 : Fld := ⟨.lk, 0x60, 1, 0x0, 1, 0x0, 31, 16, .ro, 0, false, false⟩
def Reg.LK_TEMP01_TEMP0 : Fld := ⟨.lk, 0x60, 1, 0x0, 1, 0x0, 15, 0, .ro, 0, false, false⟩
def Reg.LK_TEMP23_TEMP3 : Fld := ⟨.lk, 0x64, 1, 0x0, 1, 0x0, 31, 16, .ro, 0, false, false⟩
def Reg.LK_TEMP23_TEMP2 : Fld := ⟨.lk, 0x64, 1, 0x0, 1, 0x0, 15, 0, .ro, 0, false, false⟩
def Reg.LK_HFLAGS_SSEQ : Fld := ⟨.lk, 0x68, 1, 0x0, 1, 0x0, 23, 16, .ro, 0, false, false⟩
def Reg.LK_HFLAGS_HFLAGS : Fld := ⟨.lk, 0x68, 1, 0x0, 1, 0x0, 15, 0, .ro, 0, false, false⟩
def Reg.LK_STAT_AGE_AGE : Fld := ⟨.lk, 0x6c, 1, 0x0, 1, 0x0, 15, 0, .ro, 65535, false, false⟩
def Reg.LK_NACK_COUNT : Fld := ⟨.lk, 0x70, 1, 0x0, 1, 0x0, 31, 0, .ro, 0, false, false⟩
def Reg.LK_ACK_MISS_COUNT : Fld := ⟨.lk, 0x74, 1, 0x0, 1, 0x0, 31, 0, .ro, 0, false, false⟩
def Reg.LK_RT_ERR_COUNT : Fld := ⟨.lk, 0x78, 1, 0x0, 1, 0x0, 31, 0, .ro, 0, false, false⟩
def Reg.LK_LINK_LOST_COUNT : Fld := ⟨.lk, 0x7c, 1, 0x0, 1, 0x0, 31, 0, .ro, 0, false, false⟩

/-- The fields of page LK. -/
def Reg.pageLk : List Fld :=
  [Reg.LK_CAUSE_CMD_REJECT, Reg.LK_CAUSE_LOCKED, Reg.LK_CAUSE_CFG_WR, Reg.LK_CAUSE_CFG_REJ,
   Reg.LK_CAUSE_TRIM_LAG, Reg.LK_CAUSE_HEAD_FAULT, Reg.LK_CAUSE_RT_LOSS, Reg.LK_CAUSE_NACK,
   Reg.LK_CAUSE_ACK_MISS, Reg.LK_CAUSE_RT_ERR, Reg.LK_CAUSE_LINK_LATE, Reg.LK_CAUSE_ID_CHANGE] ++
  [Reg.LK_CFG_SETUP, Reg.LK_CFG_TRIM_MODE, Reg.LK_CFG_RATE, Reg.LK_RT_ACK_MISS_MAX,
   Reg.LK_RT_TIMEOUT, Reg.LK_STAT_STARTED, Reg.LK_STAT_CFG_OK, Reg.LK_STAT_IDENT_OK,
   Reg.LK_STAT_PEND, Reg.LK_STAT_TBANK, Reg.LK_ID0_CLASS, Reg.LK_ID0_VENDOR] ++
  [Reg.LK_ID1_SERIAL, Reg.LK_ID2_NOZZLES, Reg.LK_ID2_DIES, Reg.LK_ID2_VER,
   Reg.LK_ID3_PPMIN, Reg.LK_ID3_WMAX, Reg.LK_ID4_RATEMAX, Reg.LK_ID4_SETUP,
   Reg.LK_TEMP01_TEMP1, Reg.LK_TEMP01_TEMP0, Reg.LK_TEMP23_TEMP3, Reg.LK_TEMP23_TEMP2] ++
  [Reg.LK_HFLAGS_SSEQ, Reg.LK_HFLAGS_HFLAGS, Reg.LK_STAT_AGE_AGE, Reg.LK_NACK_COUNT,
   Reg.LK_ACK_MISS_COUNT, Reg.LK_RT_ERR_COUNT, Reg.LK_LINK_LOST_COUNT]

/-! Page EN: R197. -/

def Reg.EN_CAUSE_CMD_REJECT : Fld := ⟨.en, 0x14, 1, 0x0, 1, 0x0, 31, 31, .rw1c, 0, false, false⟩
def Reg.EN_CAUSE_LOCKED : Fld := ⟨.en, 0x14, 1, 0x0, 1, 0x0, 30, 30, .rw1c, 0, false, false⟩
def Reg.EN_CAUSE_ECC_UE : Fld := ⟨.en, 0x14, 1, 0x0, 1, 0x0, 8, 8, .rw1c, 0, false, false⟩
def Reg.EN_CAUSE_ECC_CE : Fld := ⟨.en, 0x14, 1, 0x0, 1, 0x0, 7, 7, .rw1c, 0, false, false⟩
def Reg.EN_CAUSE_DOWNCLASS : Fld := ⟨.en, 0x14, 1, 0x0, 1, 0x0, 6, 6, .rw1c, 0, false, false⟩
def Reg.EN_CAUSE_OVD_EXH : Fld := ⟨.en, 0x14, 1, 0x0, 1, 0x0, 5, 5, .rw1c, 0, false, false⟩
def Reg.EN_CAUSE_COLD : Fld := ⟨.en, 0x14, 1, 0x0, 1, 0x0, 4, 4, .rw1c, 0, false, false⟩
def Reg.EN_CAUSE_CRITICAL : Fld := ⟨.en, 0x14, 1, 0x0, 1, 0x0, 3, 3, .rw1c, 0, false, false⟩
def Reg.EN_CAUSE_HOT : Fld := ⟨.en, 0x14, 1, 0x0, 1, 0x0, 2, 2, .rw1c, 0, false, false⟩
def Reg.EN_CAUSE_RESUMED : Fld := ⟨.en, 0x14, 1, 0x0, 1, 0x0, 1, 1, .rw1c, 0, false, false⟩
def Reg.EN_CAUSE_HOLD : Fld := ⟨.en, 0x14, 1, 0x0, 1, 0x0, 0, 0, .rw1c, 0, false, false⟩
def Reg.EN_CTL_HIST_EN : Fld := ⟨.en, 0x40, 1, 0x0, 1, 0x0, 0, 0, .rw, 0, true, false⟩
def Reg.EN_HOT_RESUME : Fld := ⟨.en, 0x44, 1, 0x0, 1, 0x0, 31, 16, .rw, 800, false, false⟩
def Reg.EN_HOT_HOT : Fld := ⟨.en, 0x44, 1, 0x0, 1, 0x0, 15, 0, .rw, 960, false, false⟩
def Reg.EN_CRIT_CRIT : Fld := ⟨.en, 0x48, 1, 0x0, 1, 0x0, 15, 0, .rwl, 1120, false, false⟩
def Reg.EN_HYST_HYST : Fld := ⟨.en, 0x4c, 1, 0x0, 1, 0x0, 7, 0, .rw, 8, true, false⟩
def Reg.EN_TB_ODD : Fld := ⟨.en, 0x50, 8, 0x4, 1, 0x0, 31, 16, .rw, 0, true, false⟩
def Reg.EN_TB_EVEN : Fld := ⟨.en, 0x50, 8, 0x4, 1, 0x0, 15, 0, .rw, 0, true, false⟩
def Reg.EN_BAND_BAND : Fld := ⟨.en, 0x70, 1, 0x0, 1, 0x0, 15, 0, .ro, 0, false, false⟩
def Reg.EN_OVD_WIN_WIN : Fld := ⟨.en, 0x74, 1, 0x0, 1, 0x0, 15, 0, .rwl, 1000, false, false⟩
def Reg.EN_OVD_BUDGET_BUDGET : Fld := ⟨.en, 0x78, 1, 0x0, 1, 0x0, 31, 0, .rwl, 2000000, false, false⟩
def Reg.EN_OVD_REL_REL : Fld := ⟨.en, 0x7c, 1, 0x0, 1, 0x0, 31, 0, .rw, 1500000, false, false⟩
def Reg.EN_GRACE_GRACE : Fld := ⟨.en, 0x80, 1, 0x0, 1, 0x0, 15, 0, .rw, 500, false, false⟩
def Reg.EN_OVD_SUM_S : Fld := ⟨.en, 0x84, 1, 0x0, 1, 0x0, 31, 0, .ro, 0, false, false⟩
def Reg.EN_STAT_FORCING : Fld := ⟨.en, 0x88, 1, 0x0, 1, 0x0, 19, 19, .ro, 0, false, false⟩
def Reg.EN_STAT_THROT_REQ : Fld := ⟨.en, 0x88, 1, 0x0, 1, 0x0, 18, 18, .ro, 0, false, false⟩
def Reg.EN_STAT_EXH : Fld := ⟨.en, 0x88, 1, 0x0, 1, 0x0, 17, 17, .ro, 0, false, false⟩
def Reg.EN_STAT_COLD : Fld := ⟨.en, 0x88, 1, 0x0, 1, 0x0, 15, 12, .ro, 0, false, false⟩
def Reg.EN_STAT_CRIT : Fld := ⟨.en, 0x88, 1, 0x0, 1, 0x0, 11, 8, .ro, 0, false, false⟩
def Reg.EN_STAT_HOT : Fld := ⟨.en, 0x88, 1, 0x0, 1, 0x0, 7, 4, .ro, 0, false, false⟩
def Reg.EN_STAT_RES_OK : Fld := ⟨.en, 0x88, 1, 0x0, 1, 0x0, 3, 0, .ro, 0, false, false⟩
def Reg.EN_DROPS_A_COUNT : Fld := ⟨.en, 0x8c, 1, 0x0, 1, 0x0, 31, 0, .ro, 0, false, false⟩
def Reg.EN_DROPS_B_COUNT : Fld := ⟨.en, 0x90, 1, 0x0, 1, 0x0, 31, 0, .ro, 0, false, false⟩
def Reg.EN_DROPS_C_COUNT : Fld := ⟨.en, 0x94, 1, 0x0, 1, 0x0, 31, 0, .ro, 0, false, false⟩
def Reg.EN_DOWN_LINES_COUNT : Fld := ⟨.en, 0x98, 1, 0x0, 1, 0x0, 31, 0, .ro, 0, false, false⟩
def Reg.EN_HOLD_LINES_COUNT : Fld := ⟨.en, 0x9c, 1, 0x0, 1, 0x0, 31, 0, .ro, 0, false, false⟩
def Reg.EN_ECC_CE_COUNT : Fld := ⟨.en, 0xa0, 1, 0x0, 1, 0x0, 15, 0, .ro, 0, false, false⟩
def Reg.EN_ECC_UE_ADDR_ADDR : Fld := ⟨.en, 0xa4, 1, 0x0, 1, 0x0, 25, 0, .ro, 0, false, false⟩

/-- The fields of page EN. -/
def Reg.pageEn : List Fld :=
  [Reg.EN_CAUSE_CMD_REJECT, Reg.EN_CAUSE_LOCKED, Reg.EN_CAUSE_ECC_UE, Reg.EN_CAUSE_ECC_CE,
   Reg.EN_CAUSE_DOWNCLASS, Reg.EN_CAUSE_OVD_EXH, Reg.EN_CAUSE_COLD, Reg.EN_CAUSE_CRITICAL,
   Reg.EN_CAUSE_HOT, Reg.EN_CAUSE_RESUMED, Reg.EN_CAUSE_HOLD, Reg.EN_CTL_HIST_EN] ++
  [Reg.EN_HOT_RESUME, Reg.EN_HOT_HOT, Reg.EN_CRIT_CRIT, Reg.EN_HYST_HYST,
   Reg.EN_TB_ODD, Reg.EN_TB_EVEN, Reg.EN_BAND_BAND, Reg.EN_OVD_WIN_WIN,
   Reg.EN_OVD_BUDGET_BUDGET, Reg.EN_OVD_REL_REL, Reg.EN_GRACE_GRACE, Reg.EN_OVD_SUM_S] ++
  [Reg.EN_STAT_FORCING, Reg.EN_STAT_THROT_REQ, Reg.EN_STAT_EXH, Reg.EN_STAT_COLD,
   Reg.EN_STAT_CRIT, Reg.EN_STAT_HOT, Reg.EN_STAT_RES_OK, Reg.EN_DROPS_A_COUNT,
   Reg.EN_DROPS_B_COUNT, Reg.EN_DROPS_C_COUNT, Reg.EN_DOWN_LINES_COUNT, Reg.EN_HOLD_LINES_COUNT] ++
  [Reg.EN_ECC_CE_COUNT, Reg.EN_ECC_UE_ADDR_ADDR]

/-! Page FBK: R228. -/

def Reg.FBK_CAUSE_CMD_REJECT : Fld := ⟨.fbk, 0x14, 1, 0x0, 1, 0x0, 31, 31, .rw1c, 0, false, false⟩
def Reg.FBK_CAUSE_LOCKED : Fld := ⟨.fbk, 0x14, 1, 0x0, 1, 0x0, 30, 30, .ro, 0, false, false⟩
def Reg.FBK_CAUSE_FAULT : Fld := ⟨.fbk, 0x14, 1, 0x0, 1, 0x0, 7, 7, .rw1c, 0, false, false⟩
def Reg.FBK_CAUSE_CFG_WR : Fld := ⟨.fbk, 0x14, 1, 0x0, 1, 0x0, 6, 6, .rw1c, 0, false, false⟩
def Reg.FBK_CAUSE_LOSS : Fld := ⟨.fbk, 0x14, 1, 0x0, 1, 0x0, 5, 5, .rw1c, 0, false, false⟩
def Reg.FBK_CAUSE_SAT : Fld := ⟨.fbk, 0x14, 1, 0x0, 1, 0x0, 4, 4, .rw1c, 0, false, false⟩
def Reg.FBK_CAUSE_INDEX_MISMATCH : Fld := ⟨.fbk, 0x14, 1, 0x0, 1, 0x0, 3, 3, .rw1c, 0, false, false⟩
def Reg.FBK_CAUSE_INDEX_GATE : Fld := ⟨.fbk, 0x14, 1, 0x0, 1, 0x0, 2, 2, .rw1c, 0, false, false⟩
def Reg.FBK_CAUSE_DOUBLE_EXCESS : Fld := ⟨.fbk, 0x14, 1, 0x0, 1, 0x0, 1, 1, .rw1c, 0, false, false⟩
def Reg.FBK_CAUSE_DOUBLE : Fld := ⟨.fbk, 0x14, 1, 0x0, 1, 0x0, 0, 0, .rw1c, 0, false, false⟩
def Reg.FBK_CFG_DIR : Fld := ⟨.fbk, 0x40, 1, 0x0, 1, 0x0, 31, 31, .rw, 0, false, true⟩
def Reg.FBK_CFG_FILT_N : Fld := ⟨.fbk, 0x40, 1, 0x0, 1, 0x0, 23, 16, .rw, 5, false, true⟩
def Reg.FBK_CFG_GATE_A : Fld := ⟨.fbk, 0x40, 1, 0x0, 1, 0x0, 9, 9, .rw, 1, false, true⟩
def Reg.FBK_CFG_GATE_B : Fld := ⟨.fbk, 0x40, 1, 0x0, 1, 0x0, 8, 8, .rw, 1, false, true⟩
def Reg.FBK_CFG_IDX_EN : Fld := ⟨.fbk, 0x40, 1, 0x0, 1, 0x0, 4, 4, .rw, 0, false, true⟩
def Reg.FBK_POS_LO_POS : Fld := ⟨.fbk, 0x44, 1, 0x0, 1, 0x0, 31, 0, .ro, 0, false, false⟩
def Reg.FBK_POS_HI_POS : Fld := ⟨.fbk, 0x48, 1, 0x0, 1, 0x0, 31, 0, .ro, 0, false, false⟩
def Reg.FBK_SOFT_MIN_LO_MIN : Fld := ⟨.fbk, 0x4c, 1, 0x0, 1, 0x0, 31, 0, .rw, 0, false, true⟩
def Reg.FBK_SOFT_MIN_HI_MIN : Fld := ⟨.fbk, 0x50, 1, 0x0, 1, 0x0, 15, 0, .rw, 32768, false, true⟩
def Reg.FBK_SOFT_MAX_LO_MAX : Fld := ⟨.fbk, 0x54, 1, 0x0, 1, 0x0, 31, 0, .rw, 4294967295, false, true⟩
def Reg.FBK_SOFT_MAX_HI_MAX : Fld := ⟨.fbk, 0x58, 1, 0x0, 1, 0x0, 15, 0, .rw, 32767, false, true⟩
def Reg.FBK_LINES_LINES : Fld := ⟨.fbk, 0x5c, 1, 0x0, 1, 0x0, 23, 0, .rw, 0, false, true⟩
def Reg.FBK_INDEX_TOL_TOL : Fld := ⟨.fbk, 0x60, 1, 0x0, 1, 0x0, 15, 0, .rw, 4, false, true⟩
def Reg.FBK_IDX_POS_LO_POS : Fld := ⟨.fbk, 0x64, 1, 0x0, 1, 0x0, 31, 0, .ro, 0, false, false⟩
def Reg.FBK_IDX_POS_HI_POS : Fld := ⟨.fbk, 0x68, 1, 0x0, 1, 0x0, 15, 0, .ro, 0, false, false⟩
def Reg.FBK_IDX_DELTA_DELTA : Fld := ⟨.fbk, 0x6c, 1, 0x0, 1, 0x0, 31, 0, .ro, 0, false, false⟩
def Reg.FBK_DBL_CFG_DOUBLE_MAX : Fld := ⟨.fbk, 0x70, 1, 0x0, 1, 0x0, 9, 0, .rw, 8, false, true⟩
def Reg.FBK_ERR_DOUBLE_COUNT : Fld := ⟨.fbk, 0x74, 1, 0x0, 1, 0x0, 31, 0, .ro, 0, false, false⟩
def Reg.FBK_RAW_SPEED_SPEED : Fld := ⟨.fbk, 0x78, 1, 0x0, 1, 0x0, 31, 0, .ro, 0, false, false⟩
def Reg.FBK_SETPOS_LO_POS : Fld := ⟨.fbk, 0x7c, 1, 0x0, 1, 0x0, 31, 0, .rw, 0, false, false⟩
def Reg.FBK_SETPOS_HI_POS : Fld := ⟨.fbk, 0x80, 1, 0x0, 1, 0x0, 15, 0, .rw, 0, false, false⟩
def Reg.FBK_INPUTS_IBA : Fld := ⟨.fbk, 0x84, 1, 0x0, 1, 0x0, 2, 0, .ro, 0, false, false⟩
def Reg.FBK_IDX_ERR_MISMATCH : Fld := ⟨.fbk, 0x88, 1, 0x0, 1, 0x0, 31, 16, .ro, 0, false, false⟩
def Reg.FBK_IDX_ERR_GATE : Fld := ⟨.fbk, 0x88, 1, 0x0, 1, 0x0, 15, 0, .ro, 0, false, false⟩
def Reg.FBK_OBS_CFG_BW : Fld := ⟨.fbk, 0x400, 1, 0x0, 1, 0x0, 15, 0, .rw, 2000, false, true⟩
def Reg.FBK_LOSS_AMAX : Fld := ⟨.fbk, 0x404, 1, 0x0, 1, 0x0, 31, 16, .rw, 64, false, true⟩
def Reg.FBK_LOSS_LOSS_ERR : Fld := ⟨.fbk, 0x404, 1, 0x0, 1, 0x0, 7, 0, .rw, 4, false, true⟩
def Reg.FBK_OBS_POS_LO_X : Fld := ⟨.fbk, 0x408, 1, 0x0, 1, 0x0, 31, 0, .ro, 0, false, false⟩
def Reg.FBK_OBS_POS_HI_X : Fld := ⟨.fbk, 0x40c, 1, 0x0, 1, 0x0, 31, 0, .ro, 0, false, false⟩
def Reg.FBK_OBS_VEL_V : Fld := ⟨.fbk, 0x410, 1, 0x0, 1, 0x0, 31, 0, .ro, 0, false, false⟩
def Reg.FBK_OBS_ACC_A : Fld := ⟨.fbk, 0x414, 1, 0x0, 1, 0x0, 31, 0, .ro, 0, false, false⟩
def Reg.FBK_OBS_TICK_TICK : Fld := ⟨.fbk, 0x418, 1, 0x0, 1, 0x0, 31, 0, .ro, 0, false, false⟩
def Reg.FBK_OBS_INNOV_E : Fld := ⟨.fbk, 0x41c, 1, 0x0, 1, 0x0, 31, 0, .ro, 0, false, false⟩

/-- The fields of page FBK. -/
def Reg.pageFbk : List Fld :=
  [Reg.FBK_CAUSE_CMD_REJECT, Reg.FBK_CAUSE_LOCKED, Reg.FBK_CAUSE_FAULT, Reg.FBK_CAUSE_CFG_WR,
   Reg.FBK_CAUSE_LOSS, Reg.FBK_CAUSE_SAT, Reg.FBK_CAUSE_INDEX_MISMATCH, Reg.FBK_CAUSE_INDEX_GATE,
   Reg.FBK_CAUSE_DOUBLE_EXCESS, Reg.FBK_CAUSE_DOUBLE, Reg.FBK_CFG_DIR, Reg.FBK_CFG_FILT_N] ++
  [Reg.FBK_CFG_GATE_A, Reg.FBK_CFG_GATE_B, Reg.FBK_CFG_IDX_EN, Reg.FBK_POS_LO_POS,
   Reg.FBK_POS_HI_POS, Reg.FBK_SOFT_MIN_LO_MIN, Reg.FBK_SOFT_MIN_HI_MIN, Reg.FBK_SOFT_MAX_LO_MAX,
   Reg.FBK_SOFT_MAX_HI_MAX, Reg.FBK_LINES_LINES, Reg.FBK_INDEX_TOL_TOL, Reg.FBK_IDX_POS_LO_POS] ++
  [Reg.FBK_IDX_POS_HI_POS, Reg.FBK_IDX_DELTA_DELTA, Reg.FBK_DBL_CFG_DOUBLE_MAX, Reg.FBK_ERR_DOUBLE_COUNT,
   Reg.FBK_RAW_SPEED_SPEED, Reg.FBK_SETPOS_LO_POS, Reg.FBK_SETPOS_HI_POS, Reg.FBK_INPUTS_IBA,
   Reg.FBK_IDX_ERR_MISMATCH, Reg.FBK_IDX_ERR_GATE, Reg.FBK_OBS_CFG_BW, Reg.FBK_LOSS_AMAX] ++
  [Reg.FBK_LOSS_LOSS_ERR, Reg.FBK_OBS_POS_LO_X, Reg.FBK_OBS_POS_HI_X, Reg.FBK_OBS_VEL_V,
   Reg.FBK_OBS_ACC_A, Reg.FBK_OBS_TICK_TICK, Reg.FBK_OBS_INNOV_E]

/-! Page HL: R251. -/

def Reg.HL_CAUSE_CMD_REJECT : Fld := ⟨.hl, 0x14, 1, 0x0, 1, 0x0, 31, 31, .rw1c, 0, false, false⟩
def Reg.HL_CAUSE_LOCKED : Fld := ⟨.hl, 0x14, 1, 0x0, 1, 0x0, 30, 30, .rw1c, 0, false, false⟩
def Reg.HL_CAUSE_CFG_WR : Fld := ⟨.hl, 0x14, 1, 0x0, 1, 0x0, 9, 9, .rw1c, 0, false, false⟩
def Reg.HL_CAUSE_RES_DROP : Fld := ⟨.hl, 0x14, 1, 0x0, 1, 0x0, 8, 8, .rw1c, 0, false, false⟩
def Reg.HL_CAUSE_RES_OVF : Fld := ⟨.hl, 0x14, 1, 0x0, 1, 0x0, 7, 7, .rw1c, 0, false, false⟩
def Reg.HL_CAUSE_LEARN_FAIL : Fld := ⟨.hl, 0x14, 1, 0x0, 1, 0x0, 6, 6, .rw1c, 0, false, false⟩
def Reg.HL_CAUSE_DRIFT : Fld := ⟨.hl, 0x14, 1, 0x0, 1, 0x0, 5, 5, .rw1c, 0, false, false⟩
def Reg.HL_CAUSE_NAT_UPD : Fld := ⟨.hl, 0x14, 1, 0x0, 1, 0x0, 4, 4, .rw1c, 0, false, false⟩
def Reg.HL_CAUSE_MISSING : Fld := ⟨.hl, 0x14, 1, 0x0, 1, 0x0, 3, 3, .rw1c, 0, false, false⟩
def Reg.HL_CAUSE_WEAK : Fld := ⟨.hl, 0x14, 1, 0x0, 1, 0x0, 2, 2, .rw1c, 0, false, false⟩
def Reg.HL_CAUSE_ABANDON : Fld := ⟨.hl, 0x14, 1, 0x0, 1, 0x0, 1, 1, .rw1c, 0, false, false⟩
def Reg.HL_CAUSE_PASS_DONE : Fld := ⟨.hl, 0x14, 1, 0x0, 1, 0x0, 0, 0, .rw1c, 0, false, false⟩
def Reg.HL_CTL_DRIFT_EN : Fld := ⟨.hl, 0x40, 1, 0x0, 1, 0x0, 2, 2, .rw, 0, false, false⟩
def Reg.HL_CTL_CONT : Fld := ⟨.hl, 0x40, 1, 0x0, 1, 0x0, 1, 1, .rw, 0, false, false⟩
def Reg.HL_CTL_GAP_EN : Fld := ⟨.hl, 0x40, 1, 0x0, 1, 0x0, 0, 0, .rw, 0, false, false⟩
def Reg.HL_RANGE_COUNT : Fld := ⟨.hl, 0x44, 1, 0x0, 1, 0x0, 25, 16, .rw, 768, false, false⟩
def Reg.HL_RANGE_FIRST : Fld := ⟨.hl, 0x44, 1, 0x0, 1, 0x0, 9, 0, .rw, 0, false, false⟩
def Reg.HL_SCAN_PITCH : Fld := ⟨.hl, 0x48, 1, 0x0, 1, 0x0, 31, 16, .rw, 39712, false, false⟩
def Reg.HL_SCAN_SDLY : Fld := ⟨.hl, 0x48, 1, 0x0, 1, 0x0, 15, 8, .rw, 40, false, false⟩
def Reg.HL_SCAN_CODE : Fld := ⟨.hl, 0x48, 1, 0x0, 1, 0x0, 1, 0, .rw, 1, false, false⟩
def Reg.HL_SLICE_MAX : Fld := ⟨.hl, 0x4c, 1, 0x0, 1, 0x0, 9, 0, .rw, 0, false, false⟩
def Reg.HL_POLICY_RETRY : Fld := ⟨.hl, 0x50, 1, 0x0, 1, 0x0, 7, 4, .rwl, 2, false, false⟩
def Reg.HL_POLICY_WEAK_EN : Fld := ⟨.hl, 0x50, 1, 0x0, 1, 0x0, 3, 3, .rwl, 0, false, false⟩
def Reg.HL_POLICY_RECOVER : Fld := ⟨.hl, 0x50, 1, 0x0, 1, 0x0, 2, 2, .rwl, 0, false, false⟩
def Reg.HL_POLICY_IMM : Fld := ⟨.hl, 0x50, 1, 0x0, 1, 0x0, 1, 1, .rwl, 1, false, false⟩
def Reg.HL_POLICY_AUTO : Fld := ⟨.hl, 0x50, 1, 0x0, 1, 0x0, 0, 0, .rwl, 0, false, false⟩
def Reg.HL_G_G_TOL : Fld := ⟨.hl, 0x54, 1, 0x0, 1, 0x0, 31, 16, .rw, 614, false, false⟩
def Reg.HL_G_G_MIN : Fld := ⟨.hl, 0x54, 1, 0x0, 1, 0x0, 15, 0, .rw, 1024, false, false⟩
def Reg.HL_R_R_MISS : Fld := ⟨.hl, 0x58, 1, 0x0, 1, 0x0, 31, 16, .rw, 328, false, false⟩
def Reg.HL_R_R_WEAK : Fld := ⟨.hl, 0x58, 1, 0x0, 1, 0x0, 15, 0, .rw, 82, false, false⟩
def Reg.HL_CURSOR_NEXT : Fld := ⟨.hl, 0x5c, 1, 0x0, 1, 0x0, 9, 0, .ro, 0, false, false⟩
def Reg.HL_PASSES_COUNT : Fld := ⟨.hl, 0x60, 1, 0x0, 1, 0x0, 31, 0, .ro, 0, false, false⟩
def Reg.HL_CNT_GOOD_COUNT : Fld := ⟨.hl, 0x64, 1, 0x0, 1, 0x0, 31, 0, .ro, 0, false, false⟩
def Reg.HL_CNT_WEAK_COUNT : Fld := ⟨.hl, 0x68, 1, 0x0, 1, 0x0, 31, 0, .ro, 0, false, false⟩
def Reg.HL_CNT_MISS_COUNT : Fld := ⟨.hl, 0x6c, 1, 0x0, 1, 0x0, 31, 0, .ro, 0, false, false⟩
def Reg.HL_NAT_UPD_COUNT : Fld := ⟨.hl, 0x70, 1, 0x0, 1, 0x0, 31, 0, .ro, 0, false, false⟩
def Reg.HL_SKIP_COUNT : Fld := ⟨.hl, 0x74, 1, 0x0, 1, 0x0, 31, 0, .ro, 0, false, false⟩
def Reg.HL_STEPS_COUNT : Fld := ⟨.hl, 0x78, 1, 0x0, 1, 0x0, 31, 0, .ro, 0, false, false⟩
def Reg.HL_RES_LOST_COUNT : Fld := ⟨.hl, 0x7c, 1, 0x0, 1, 0x0, 31, 0, .ro, 0, false, false⟩
def Reg.HL_RES_BASE_BASE : Fld := ⟨.hl, 0x80, 1, 0x0, 1, 0x0, 15, 0, .rw, 0, false, false⟩
def Reg.HL_RES_SIZE_SIZE : Fld := ⟨.hl, 0x84, 1, 0x0, 1, 0x0, 15, 0, .rw, 0, false, false⟩
def Reg.HL_RES_WPTR_WRAP : Fld := ⟨.hl, 0x88, 1, 0x0, 1, 0x0, 31, 31, .ro, 0, false, false⟩
def Reg.HL_RES_WPTR_INDEX : Fld := ⟨.hl, 0x88, 1, 0x0, 1, 0x0, 24, 0, .ro, 0, false, false⟩
def Reg.HL_RES_RPTR_WRAP : Fld := ⟨.hl, 0x8c, 1, 0x0, 1, 0x0, 31, 31, .rw, 0, false, false⟩
def Reg.HL_RES_RPTR_INDEX : Fld := ⟨.hl, 0x8c, 1, 0x0, 1, 0x0, 24, 0, .rw, 0, false, false⟩
def Reg.HL_DRIFT_CFG_AT : Fld := ⟨.hl, 0x90, 1, 0x0, 1, 0x0, 31, 16, .rw, 400, false, false⟩
def Reg.HL_DRIFT_CFG_MU : Fld := ⟨.hl, 0x90, 1, 0x0, 1, 0x0, 15, 12, .rw, 6, false, false⟩
def Reg.HL_DRIFT_CFG_LIM : Fld := ⟨.hl, 0x90, 1, 0x0, 1, 0x0, 9, 0, .rw, 51, false, false⟩
def Reg.HL_DRIFT_N_COUNT : Fld := ⟨.hl, 0x94, 1, 0x0, 1, 0x0, 31, 0, .ro, 0, false, false⟩
def Reg.HL_DRIFT_WORST_DEV : Fld := ⟨.hl, 0x98, 1, 0x0, 1, 0x0, 31, 16, .ro, 0, false, false⟩
def Reg.HL_DRIFT_WORST_PRIM : Fld := ⟨.hl, 0x98, 1, 0x0, 1, 0x0, 9, 0, .ro, 0, false, false⟩
def Reg.HL_TEMPL_VALID_VALID : Fld := ⟨.hl, 0x9c, 1, 0x0, 1, 0x0, 3, 0, .rws, 0, false, false⟩
def Reg.HL_DRIFT_ODD : Fld := ⟨.hl, 0x400, 384, 0x4, 1, 0x0, 31, 16, .ro, 0, false, false⟩
def Reg.HL_DRIFT_EVEN : Fld := ⟨.hl, 0x400, 384, 0x4, 1, 0x0, 15, 0, .ro, 0, false, false⟩
def Reg.HL_TEMPL_ODD : Fld := ⟨.hl, 0xc00, 4, 0x100, 64, 0x4, 31, 16, .rws, 0, false, false⟩
def Reg.HL_TEMPL_EVEN : Fld := ⟨.hl, 0xc00, 4, 0x100, 64, 0x4, 15, 0, .rws, 0, false, false⟩

/-- The fields of page HL. -/
def Reg.pageHl : List Fld :=
  [Reg.HL_CAUSE_CMD_REJECT, Reg.HL_CAUSE_LOCKED, Reg.HL_CAUSE_CFG_WR, Reg.HL_CAUSE_RES_DROP,
   Reg.HL_CAUSE_RES_OVF, Reg.HL_CAUSE_LEARN_FAIL, Reg.HL_CAUSE_DRIFT, Reg.HL_CAUSE_NAT_UPD,
   Reg.HL_CAUSE_MISSING, Reg.HL_CAUSE_WEAK, Reg.HL_CAUSE_ABANDON, Reg.HL_CAUSE_PASS_DONE] ++
  [Reg.HL_CTL_DRIFT_EN, Reg.HL_CTL_CONT, Reg.HL_CTL_GAP_EN, Reg.HL_RANGE_COUNT,
   Reg.HL_RANGE_FIRST, Reg.HL_SCAN_PITCH, Reg.HL_SCAN_SDLY, Reg.HL_SCAN_CODE,
   Reg.HL_SLICE_MAX, Reg.HL_POLICY_RETRY, Reg.HL_POLICY_WEAK_EN, Reg.HL_POLICY_RECOVER] ++
  [Reg.HL_POLICY_IMM, Reg.HL_POLICY_AUTO, Reg.HL_G_G_TOL, Reg.HL_G_G_MIN,
   Reg.HL_R_R_MISS, Reg.HL_R_R_WEAK, Reg.HL_CURSOR_NEXT, Reg.HL_PASSES_COUNT,
   Reg.HL_CNT_GOOD_COUNT, Reg.HL_CNT_WEAK_COUNT, Reg.HL_CNT_MISS_COUNT, Reg.HL_NAT_UPD_COUNT] ++
  [Reg.HL_SKIP_COUNT, Reg.HL_STEPS_COUNT, Reg.HL_RES_LOST_COUNT, Reg.HL_RES_BASE_BASE,
   Reg.HL_RES_SIZE_SIZE, Reg.HL_RES_WPTR_WRAP, Reg.HL_RES_WPTR_INDEX, Reg.HL_RES_RPTR_WRAP,
   Reg.HL_RES_RPTR_INDEX, Reg.HL_DRIFT_CFG_AT, Reg.HL_DRIFT_CFG_MU, Reg.HL_DRIFT_CFG_LIM] ++
  [Reg.HL_DRIFT_N_COUNT, Reg.HL_DRIFT_WORST_DEV, Reg.HL_DRIFT_WORST_PRIM, Reg.HL_TEMPL_VALID_VALID,
   Reg.HL_DRIFT_ODD, Reg.HL_DRIFT_EVEN, Reg.HL_TEMPL_ODD, Reg.HL_TEMPL_EVEN]

/-! Page AX0: R284. -/

def Reg.AX0_CAUSE_CMD_REJECT : Fld := ⟨.ax0, 0x14, 1, 0x0, 1, 0x0, 31, 31, .rw1c, 0, false, false⟩
def Reg.AX0_CAUSE_LOCKED : Fld := ⟨.ax0, 0x14, 1, 0x0, 1, 0x0, 30, 30, .ro, 0, false, false⟩
def Reg.AX0_CAUSE_PVT_VEND : Fld := ⟨.ax0, 0x14, 1, 0x0, 1, 0x0, 13, 13, .rw1c, 0, false, false⟩
def Reg.AX0_CAUSE_PVT_WR : Fld := ⟨.ax0, 0x14, 1, 0x0, 1, 0x0, 12, 12, .rw1c, 0, false, false⟩
def Reg.AX0_CAUSE_PVT_REJ : Fld := ⟨.ax0, 0x14, 1, 0x0, 1, 0x0, 11, 11, .rw1c, 0, false, false⟩
def Reg.AX0_CAUSE_CFG_WR : Fld := ⟨.ax0, 0x14, 1, 0x0, 1, 0x0, 10, 10, .rw1c, 0, false, false⟩
def Reg.AX0_CAUSE_FAULT : Fld := ⟨.ax0, 0x14, 1, 0x0, 1, 0x0, 9, 9, .rw1c, 0, false, false⟩
def Reg.AX0_CAUSE_VSAT : Fld := ⟨.ax0, 0x14, 1, 0x0, 1, 0x0, 8, 8, .rw1c, 0, false, false⟩
def Reg.AX0_CAUSE_POS_CHK : Fld := ⟨.ax0, 0x14, 1, 0x0, 1, 0x0, 7, 7, .rw1c, 0, false, false⟩
def Reg.AX0_CAUSE_FERR : Fld := ⟨.ax0, 0x14, 1, 0x0, 1, 0x0, 6, 6, .rw1c, 0, false, false⟩
def Reg.AX0_CAUSE_STALL : Fld := ⟨.ax0, 0x14, 1, 0x0, 1, 0x0, 5, 5, .rw1c, 0, false, false⟩
def Reg.AX0_CAUSE_LIMIT : Fld := ⟨.ax0, 0x14, 1, 0x0, 1, 0x0, 4, 4, .rw1c, 0, false, false⟩
def Reg.AX0_CAUSE_HOME_CHATTER : Fld := ⟨.ax0, 0x14, 1, 0x0, 1, 0x0, 3, 3, .rw1c, 0, false, false⟩
def Reg.AX0_CAUSE_HOME_FAIL : Fld := ⟨.ax0, 0x14, 1, 0x0, 1, 0x0, 2, 2, .rw1c, 0, false, false⟩
def Reg.AX0_CAUSE_HOMED : Fld := ⟨.ax0, 0x14, 1, 0x0, 1, 0x0, 1, 1, .rw1c, 0, false, false⟩
def Reg.AX0_CAUSE_DONE : Fld := ⟨.ax0, 0x14, 1, 0x0, 1, 0x0, 0, 0, .rw1c, 0, false, false⟩
def Reg.AX_CFG_ZERO : Fld := ⟨.ax0, 0x40, 1, 0x0, 1, 0x0, 25, 16, .rw, 0, false, true⟩
def Reg.AX_CFG_LIM_POL : Fld := ⟨.ax0, 0x40, 1, 0x0, 1, 0x0, 4, 3, .rw, 3, false, true⟩
def Reg.AX_CFG_LIM_EN : Fld := ⟨.ax0, 0x40, 1, 0x0, 1, 0x0, 2, 2, .rw, 1, false, true⟩
def Reg.AX_CFG_STBY_MODE : Fld := ⟨.ax0, 0x40, 1, 0x0, 1, 0x0, 1, 1, .rw, 0, false, true⟩
def Reg.AX_CFG_DIR : Fld := ⟨.ax0, 0x40, 1, 0x0, 1, 0x0, 0, 0, .rw, 0, false, true⟩
def Reg.AX_TARGET_TARGET : Fld := ⟨.ax0, 0x44, 1, 0x0, 1, 0x0, 31, 0, .rw, 0, false, false⟩
def Reg.AX_POS_POS : Fld := ⟨.ax0, 0x48, 1, 0x0, 1, 0x0, 31, 0, .ro, 0, false, false⟩
def Reg.AX_VMAX_VMAX : Fld := ⟨.ax0, 0x4c, 1, 0x0, 1, 0x0, 23, 0, .rw, 51200, false, false⟩
def Reg.AX_ACC_ACC : Fld := ⟨.ax0, 0x50, 1, 0x0, 1, 0x0, 31, 0, .rw, 512000, false, false⟩
def Reg.AX_DEC_DEC : Fld := ⟨.ax0, 0x54, 1, 0x0, 1, 0x0, 31, 0, .rw, 512000, false, false⟩
def Reg.AX_QDEC_QDEC : Fld := ⟨.ax0, 0x58, 1, 0x0, 1, 0x0, 31, 0, .rw, 2048000, false, false⟩
def Reg.AX_VEL_V : Fld := ⟨.ax0, 0x5c, 1, 0x0, 1, 0x0, 31, 0, .ro, 0, false, false⟩
def Reg.AX_REMAIN_REMAIN : Fld := ⟨.ax0, 0x60, 1, 0x0, 1, 0x0, 31, 0, .ro, 0, false, false⟩
def Reg.AX_STAT_ADDR : Fld := ⟨.ax0, 0x64, 1, 0x0, 1, 0x0, 17, 8, .ro, 0, false, false⟩
def Reg.AX_STAT_LA_VALID : Fld := ⟨.ax0, 0x64, 1, 0x0, 1, 0x0, 6, 6, .ro, 0, false, false⟩
def Reg.AX_STAT_PVT : Fld := ⟨.ax0, 0x64, 1, 0x0, 1, 0x0, 5, 5, .ro, 0, false, false⟩
def Reg.AX_STAT_SET : Fld := ⟨.ax0, 0x64, 1, 0x0, 1, 0x0, 4, 4, .ro, 0, false, false⟩
def Reg.AX_STAT_LIMP : Fld := ⟨.ax0, 0x64, 1, 0x0, 1, 0x0, 3, 3, .ro, 0, false, false⟩
def Reg.AX_STAT_LIMN : Fld := ⟨.ax0, 0x64, 1, 0x0, 1, 0x0, 2, 2, .ro, 0, false, false⟩
def Reg.AX_STAT_REMAIN_V : Fld := ⟨.ax0, 0x64, 1, 0x0, 1, 0x0, 1, 1, .ro, 0, false, false⟩
def Reg.AX_STAT_HOMED : Fld := ⟨.ax0, 0x64, 1, 0x0, 1, 0x0, 0, 0, .ro, 0, false, false⟩
def Reg.AX_I_HOLD_I_HOLD : Fld := ⟨.ax0, 0x68, 1, 0x0, 1, 0x0, 15, 0, .rw, 200, false, false⟩
def Reg.AX_I_RUN_I_RUN : Fld := ⟨.ax0, 0x6c, 1, 0x0, 1, 0x0, 15, 0, .rw, 500, false, false⟩
def Reg.AX_COIL_COIL_R : Fld := ⟨.ax0, 0x70, 1, 0x0, 1, 0x0, 15, 0, .rw, 0, false, true⟩
def Reg.AX_KE_KE : Fld := ⟨.ax0, 0x74, 1, 0x0, 1, 0x0, 19, 0, .rw, 0, false, true⟩
def Reg.AX_STBY_T_STBY_T : Fld := ⟨.ax0, 0x78, 1, 0x0, 1, 0x0, 15, 0, .rw, 200, false, false⟩
def Reg.AX_I_ACT_I_SET : Fld := ⟨.ax0, 0x7c, 1, 0x0, 1, 0x0, 15, 0, .ro, 0, false, false⟩
def Reg.AX_SETPOS_POS : Fld := ⟨.ax0, 0x80, 1, 0x0, 1, 0x0, 31, 0, .rw, 0, false, false⟩

/-- The fields of page AX0. -/
def Reg.pageAx0 : List Fld :=
  [Reg.AX0_CAUSE_CMD_REJECT, Reg.AX0_CAUSE_LOCKED, Reg.AX0_CAUSE_PVT_VEND, Reg.AX0_CAUSE_PVT_WR,
   Reg.AX0_CAUSE_PVT_REJ, Reg.AX0_CAUSE_CFG_WR, Reg.AX0_CAUSE_FAULT, Reg.AX0_CAUSE_VSAT,
   Reg.AX0_CAUSE_POS_CHK, Reg.AX0_CAUSE_FERR, Reg.AX0_CAUSE_STALL, Reg.AX0_CAUSE_LIMIT] ++
  [Reg.AX0_CAUSE_HOME_CHATTER, Reg.AX0_CAUSE_HOME_FAIL, Reg.AX0_CAUSE_HOMED, Reg.AX0_CAUSE_DONE,
   Reg.AX_CFG_ZERO, Reg.AX_CFG_LIM_POL, Reg.AX_CFG_LIM_EN, Reg.AX_CFG_STBY_MODE,
   Reg.AX_CFG_DIR, Reg.AX_TARGET_TARGET, Reg.AX_POS_POS, Reg.AX_VMAX_VMAX] ++
  [Reg.AX_ACC_ACC, Reg.AX_DEC_DEC, Reg.AX_QDEC_QDEC, Reg.AX_VEL_V,
   Reg.AX_REMAIN_REMAIN, Reg.AX_STAT_ADDR, Reg.AX_STAT_LA_VALID, Reg.AX_STAT_PVT,
   Reg.AX_STAT_SET, Reg.AX_STAT_LIMP, Reg.AX_STAT_LIMN, Reg.AX_STAT_REMAIN_V] ++
  [Reg.AX_STAT_HOMED, Reg.AX_I_HOLD_I_HOLD, Reg.AX_I_RUN_I_RUN, Reg.AX_COIL_COIL_R,
   Reg.AX_KE_KE, Reg.AX_STBY_T_STBY_T, Reg.AX_I_ACT_I_SET, Reg.AX_SETPOS_POS]

/-! Page AX1: R61, R66, R285. -/

def Reg.AX_LA_CUR_LA_EN : Fld := ⟨.ax1, 0x40, 1, 0x0, 1, 0x0, 31, 31, .rw, 0, false, false⟩
def Reg.AX_LA_CUR_I_STEP : Fld := ⟨.ax1, 0x40, 1, 0x0, 1, 0x0, 23, 16, .rw, 4, false, false⟩
def Reg.AX_LA_CUR_CEIL : Fld := ⟨.ax1, 0x40, 1, 0x0, 1, 0x0, 15, 0, .rw, 1000, false, false⟩
def Reg.AX_LA_ANG_LA_HI : Fld := ⟨.ax1, 0x44, 1, 0x0, 1, 0x0, 25, 16, .rw, 64, false, false⟩
def Reg.AX_LA_ANG_LA_LO : Fld := ⟨.ax1, 0x44, 1, 0x0, 1, 0x0, 9, 0, .rw, 32, false, false⟩
def Reg.AX_LA_VMIN_LA_VMIN : Fld := ⟨.ax1, 0x48, 1, 0x0, 1, 0x0, 23, 0, .rw, 2048, false, false⟩
def Reg.AX_STALL_STALL_N : Fld := ⟨.ax1, 0x4c, 1, 0x0, 1, 0x0, 31, 16, .rw, 40, false, false⟩
def Reg.AX_STALL_STALL_ACT : Fld := ⟨.ax1, 0x4c, 1, 0x0, 1, 0x0, 13, 12, .rw, 1, false, false⟩
def Reg.AX_STALL_STALL_ANGLE : Fld := ⟨.ax1, 0x4c, 1, 0x0, 1, 0x0, 9, 0, .rw, 192, false, false⟩
def Reg.AX_SNS_SNS_EN : Fld := ⟨.ax1, 0x50, 1, 0x0, 1, 0x0, 31, 31, .rw, 0, false, true⟩
def Reg.AX_SNS_SNS_REF : Fld := ⟨.ax1, 0x50, 1, 0x0, 1, 0x0, 9, 0, .rw, 0, false, false⟩
def Reg.AX_ENC_ENC_CH : Fld := ⟨.ax1, 0x54, 1, 0x0, 1, 0x0, 6, 0, .rw, 127, false, true⟩
def Reg.AX_ENC_SCALE_SCALE : Fld := ⟨.ax1, 0x58, 1, 0x0, 1, 0x0, 31, 0, .rw, 65536, false, true⟩
def Reg.AX_FERR_FERR_EN : Fld := ⟨.ax1, 0x5c, 1, 0x0, 1, 0x0, 31, 31, .rwl, 0, false, false⟩
def Reg.AX_FERR_FERR_ACT : Fld := ⟨.ax1, 0x5c, 1, 0x0, 1, 0x0, 30, 30, .rwl, 0, false, false⟩
def Reg.AX_FERR_FERR_N : Fld := ⟨.ax1, 0x5c, 1, 0x0, 1, 0x0, 19, 16, .rwl, 4, false, false⟩
def Reg.AX_FERR_FERR_MAX : Fld := ⟨.ax1, 0x5c, 1, 0x0, 1, 0x0, 15, 0, .rwl, 512, false, false⟩
def Reg.AX_RUN_VTOL_RUN_VTOL : Fld := ⟨.ax1, 0x60, 1, 0x0, 1, 0x0, 23, 0, .rwl, 102400, false, false⟩
def Reg.AX_KEEP_TOL_KEEP_TOL : Fld := ⟨.ax1, 0x64, 1, 0x0, 1, 0x0, 15, 0, .rw, 128, false, false⟩
def Reg.AX_LOADANG_VALID : Fld := ⟨.ax1, 0x68, 1, 0x0, 1, 0x0, 31, 31, .ro, 0, false, false⟩
def Reg.AX_LOADANG_LAMBDA : Fld := ⟨.ax1, 0x68, 1, 0x0, 1, 0x0, 9, 0, .ro, 0, false, false⟩
def Reg.AX_FERR_VAL_EF : Fld := ⟨.ax1, 0x6c, 1, 0x0, 1, 0x0, 31, 0, .ro, 0, false, false⟩
def Reg.AX_HOME_CFG_DEBOUNCE : Fld := ⟨.ax1, 0x70, 1, 0x0, 1, 0x0, 25, 16, .rw, 200, false, false⟩
def Reg.AX_HOME_CFG_CHATTER_MAX : Fld := ⟨.ax1, 0x70, 1, 0x0, 1, 0x0, 15, 8, .rw, 4, false, false⟩
def Reg.AX_HOME_CFG_REVERSE_ON_LIMIT : Fld := ⟨.ax1, 0x70, 1, 0x0, 1, 0x0, 5, 5, .rw, 0, false, false⟩
def Reg.AX_HOME_CFG_DIR : Fld := ⟨.ax1, 0x70, 1, 0x0, 1, 0x0, 4, 4, .rw, 0, false, false⟩
def Reg.AX_HOME_CFG_SRC : Fld := ⟨.ax1, 0x70, 1, 0x0, 1, 0x0, 3, 2, .rw, 0, false, false⟩
def Reg.AX_HOME_CFG_MODE : Fld := ⟨.ax1, 0x70, 1, 0x0, 1, 0x0, 1, 0, .rw, 0, false, false⟩
def Reg.AX_HOME_V1_V1 : Fld := ⟨.ax1, 0x74, 1, 0x0, 1, 0x0, 23, 0, .rw, 25600, false, false⟩
def Reg.AX_HOME_V2_V2 : Fld := ⟨.ax1, 0x78, 1, 0x0, 1, 0x0, 23, 0, .rw, 2560, false, false⟩
def Reg.AX_HOME_POS_POS : Fld := ⟨.ax1, 0x7c, 1, 0x0, 1, 0x0, 31, 0, .rw, 0, false, false⟩
def Reg.AX_HOME_MAX_MAX : Fld := ⟨.ax1, 0x80, 1, 0x0, 1, 0x0, 31, 0, .rw, 2147483647, false, false⟩
def Reg.AX_PVT_AMAX_AMAX : Fld := ⟨.ax1, 0x84, 1, 0x0, 1, 0x0, 31, 0, .rw, 2560000, false, false⟩
def Reg.AX_PVT_STAT_RUN : Fld := ⟨.ax1, 0x88, 1, 0x0, 1, 0x0, 16, 16, .ro, 0, false, false⟩
def Reg.AX_PVT_STAT_BADSEG : Fld := ⟨.ax1, 0x88, 1, 0x0, 1, 0x0, 15, 8, .ro, 0, false, false⟩
def Reg.AX_PVT_STAT_CUR : Fld := ⟨.ax1, 0x88, 1, 0x0, 1, 0x0, 7, 0, .ro, 0, false, false⟩
def Reg.AX_STALL_CNT_COUNT : Fld := ⟨.ax1, 0x8c, 1, 0x0, 1, 0x0, 31, 0, .ro, 0, false, false⟩
def Reg.AX1_CAUSE_CMD_REJECT : Fld := ⟨.ax1, 0x14, 1, 0x0, 1, 0x0, 31, 31, .rw1c, 0, false, false⟩
def Reg.AX1_CAUSE_LOCKED : Fld := ⟨.ax1, 0x14, 1, 0x0, 1, 0x0, 30, 30, .rw1c, 0, false, false⟩

/-- The fields of page AX1. -/
def Reg.pageAx1 : List Fld :=
  [Reg.AX_LA_CUR_LA_EN, Reg.AX_LA_CUR_I_STEP, Reg.AX_LA_CUR_CEIL, Reg.AX_LA_ANG_LA_HI,
   Reg.AX_LA_ANG_LA_LO, Reg.AX_LA_VMIN_LA_VMIN, Reg.AX_STALL_STALL_N, Reg.AX_STALL_STALL_ACT,
   Reg.AX_STALL_STALL_ANGLE, Reg.AX_SNS_SNS_EN, Reg.AX_SNS_SNS_REF, Reg.AX_ENC_ENC_CH] ++
  [Reg.AX_ENC_SCALE_SCALE, Reg.AX_FERR_FERR_EN, Reg.AX_FERR_FERR_ACT, Reg.AX_FERR_FERR_N,
   Reg.AX_FERR_FERR_MAX, Reg.AX_RUN_VTOL_RUN_VTOL, Reg.AX_KEEP_TOL_KEEP_TOL, Reg.AX_LOADANG_VALID,
   Reg.AX_LOADANG_LAMBDA, Reg.AX_FERR_VAL_EF, Reg.AX_HOME_CFG_DEBOUNCE, Reg.AX_HOME_CFG_CHATTER_MAX] ++
  [Reg.AX_HOME_CFG_REVERSE_ON_LIMIT, Reg.AX_HOME_CFG_DIR, Reg.AX_HOME_CFG_SRC, Reg.AX_HOME_CFG_MODE,
   Reg.AX_HOME_V1_V1, Reg.AX_HOME_V2_V2, Reg.AX_HOME_POS_POS, Reg.AX_HOME_MAX_MAX,
   Reg.AX_PVT_AMAX_AMAX, Reg.AX_PVT_STAT_RUN, Reg.AX_PVT_STAT_BADSEG, Reg.AX_PVT_STAT_CUR] ++
  [Reg.AX_STALL_CNT_COUNT, Reg.AX1_CAUSE_CMD_REJECT, Reg.AX1_CAUSE_LOCKED]

/-! Page MGP: R286. -/

def Reg.MGP_CAUSE_CMD_REJECT : Fld := ⟨.mgp, 0x14, 1, 0x0, 1, 0x0, 31, 31, .rw1c, 0, false, false⟩
def Reg.MGP_CAUSE_LOCKED : Fld := ⟨.mgp, 0x14, 1, 0x0, 1, 0x0, 30, 30, .ro, 0, false, false⟩
def Reg.MGP_CAUSE_CFG_WR : Fld := ⟨.mgp, 0x14, 1, 0x0, 1, 0x0, 5, 5, .rw1c, 0, false, false⟩
def Reg.MGP_CAUSE_TBL_BUSY : Fld := ⟨.mgp, 0x14, 1, 0x0, 1, 0x0, 4, 4, .rw1c, 0, false, false⟩
def Reg.MGP_CAUSE_SET_ABORT : Fld := ⟨.mgp, 0x14, 1, 0x0, 1, 0x0, 3, 3, .rw1c, 0, false, false⟩
def Reg.MGP_CAUSE_SET_DONE : Fld := ⟨.mgp, 0x14, 1, 0x0, 1, 0x0, 2, 2, .rw1c, 0, false, false⟩
def Reg.MGP_CAUSE_VBUS_OV : Fld := ⟨.mgp, 0x14, 1, 0x0, 1, 0x0, 1, 1, .rw1c, 0, false, false⟩
def Reg.MGP_CAUSE_VBUS_UV : Fld := ⟨.mgp, 0x14, 1, 0x0, 1, 0x0, 0, 0, .rw1c, 0, false, false⟩
def Reg.MGP_ATTN_ATTN : Fld := ⟨.mgp, 0x40, 1, 0x0, 1, 0x0, 11, 0, .ro, 0, false, false⟩
def Reg.MGP_PWM_MIN_PULSE : Fld := ⟨.mgp, 0x44, 1, 0x0, 1, 0x0, 15, 8, .rw, 20, false, false⟩
def Reg.MGP_PWM_FREQ : Fld := ⟨.mgp, 0x44, 1, 0x0, 1, 0x0, 3, 0, .rw, 4, false, false⟩
def Reg.MGP_VBUS_VBUS : Fld := ⟨.mgp, 0x48, 1, 0x0, 1, 0x0, 15, 0, .ro, 0, false, false⟩
def Reg.MGP_VBUS_LIM_VBUS_MAX : Fld := ⟨.mgp, 0x4c, 1, 0x0, 1, 0x0, 31, 16, .rw, 52000, false, false⟩
def Reg.MGP_VBUS_LIM_VBUS_MIN : Fld := ⟨.mgp, 0x4c, 1, 0x0, 1, 0x0, 15, 0, .rw, 9000, false, false⟩
def Reg.MGP_VBUS_SCALE_SCALE : Fld := ⟨.mgp, 0x50, 1, 0x0, 1, 0x0, 15, 0, .rw, 10240, false, false⟩
def Reg.SET_MEM_VALID : Fld := ⟨.mgp, 0x400, 2, 0x40, 8, 0x4, 7, 7, .rw, 0, false, false⟩
def Reg.SET_MEM_AXIS : Fld := ⟨.mgp, 0x400, 2, 0x40, 8, 0x4, 6, 0, .rw, 0, false, false⟩
def Reg.SET_STAT_REMAIN_V : Fld := ⟨.mgp, 0x420, 2, 0x40, 1, 0x0, 9, 9, .ro, 0, false, false⟩
def Reg.SET_STAT_ACTIVE : Fld := ⟨.mgp, 0x420, 2, 0x40, 1, 0x0, 8, 8, .ro, 0, false, false⟩
def Reg.SET_STAT_LEAD : Fld := ⟨.mgp, 0x420, 2, 0x40, 1, 0x0, 2, 0, .ro, 0, false, false⟩
def Reg.SET_VMAX_VMAX : Fld := ⟨.mgp, 0x424, 2, 0x40, 1, 0x0, 23, 0, .ro, 0, false, false⟩
def Reg.SET_ACC_ACC : Fld := ⟨.mgp, 0x428, 2, 0x40, 1, 0x0, 31, 0, .ro, 0, false, false⟩
def Reg.SET_DEC_DEC : Fld := ⟨.mgp, 0x42c, 2, 0x40, 1, 0x0, 31, 0, .ro, 0, false, false⟩

/-- The fields of page MGP. -/
def Reg.pageMgp : List Fld :=
  [Reg.MGP_CAUSE_CMD_REJECT, Reg.MGP_CAUSE_LOCKED, Reg.MGP_CAUSE_CFG_WR, Reg.MGP_CAUSE_TBL_BUSY,
   Reg.MGP_CAUSE_SET_ABORT, Reg.MGP_CAUSE_SET_DONE, Reg.MGP_CAUSE_VBUS_OV, Reg.MGP_CAUSE_VBUS_UV,
   Reg.MGP_ATTN_ATTN, Reg.MGP_PWM_MIN_PULSE, Reg.MGP_PWM_FREQ, Reg.MGP_VBUS_VBUS] ++
  [Reg.MGP_VBUS_LIM_VBUS_MAX, Reg.MGP_VBUS_LIM_VBUS_MIN, Reg.MGP_VBUS_SCALE_SCALE, Reg.SET_MEM_VALID,
   Reg.SET_MEM_AXIS, Reg.SET_STAT_REMAIN_V, Reg.SET_STAT_ACTIVE, Reg.SET_STAT_LEAD,
   Reg.SET_VMAX_VMAX, Reg.SET_ACC_ACC, Reg.SET_DEC_DEC]

/-! Page JST0: R311. -/

def Reg.JST0_CAUSE_CMD_REJECT : Fld := ⟨.jst0, 0x14, 1, 0x0, 1, 0x0, 31, 31, .rw1c, 0, false, false⟩
def Reg.JST0_CAUSE_LOCKED : Fld := ⟨.jst0, 0x14, 1, 0x0, 1, 0x0, 30, 30, .ro, 0, false, false⟩
def Reg.JST0_CAUSE_CFG_WR : Fld := ⟨.jst0, 0x14, 1, 0x0, 1, 0x0, 5, 5, .rw1c, 0, false, false⟩
def Reg.JST0_CAUSE_EV_LOST : Fld := ⟨.jst0, 0x14, 1, 0x0, 1, 0x0, 4, 4, .rw1c, 0, false, false⟩
def Reg.JST0_CAUSE_FETCH_ERR : Fld := ⟨.jst0, 0x14, 1, 0x0, 1, 0x0, 3, 3, .rw1c, 0, false, false⟩
def Reg.JST0_CAUSE_HALTED : Fld := ⟨.jst0, 0x14, 1, 0x0, 1, 0x0, 2, 2, .rw1c, 0, false, false⟩
def Reg.JST0_CAUSE_ABORTED : Fld := ⟨.jst0, 0x14, 1, 0x0, 1, 0x0, 1, 1, .rw1c, 0, false, false⟩
def Reg.JST0_CAUSE_BAD : Fld := ⟨.jst0, 0x14, 1, 0x0, 1, 0x0, 0, 0, .rw1c, 0, false, false⟩
def Reg.JST_BADMAP_BAD : Fld := ⟨.jst0, 0x44, 1, 0x0, 1, 0x0, 15, 0, .rw1c, 0, false, false⟩
def Reg.JST_EVLOST_COUNT : Fld := ⟨.jst0, 0x48, 1, 0x0, 1, 0x0, 15, 0, .ro, 0, false, false⟩
def Reg.JST_BYTES_COUNT : Fld := ⟨.jst0, 0x4c, 1, 0x0, 1, 0x0, 31, 0, .ro, 0, false, false⟩

/-- The fields of page JST0. -/
def Reg.pageJst0 : List Fld :=
  [Reg.JST0_CAUSE_CMD_REJECT, Reg.JST0_CAUSE_LOCKED, Reg.JST0_CAUSE_CFG_WR, Reg.JST0_CAUSE_EV_LOST,
   Reg.JST0_CAUSE_FETCH_ERR, Reg.JST0_CAUSE_HALTED, Reg.JST0_CAUSE_ABORTED, Reg.JST0_CAUSE_BAD,
   Reg.JST_BADMAP_BAD, Reg.JST_EVLOST_COUNT, Reg.JST_BYTES_COUNT]

/-! Page JST1: R61, R312. -/

def Reg.CH_CFG_EVIDX : Fld := ⟨.jst1, 0x40, 16, 0x40, 1, 0x0, 31, 16, .rw, 0, false, false⟩
def Reg.CH_CFG_DESC_NOSNOOP : Fld := ⟨.jst1, 0x40, 16, 0x40, 1, 0x0, 1, 1, .rw, 0, false, false⟩
def Reg.CH_CFG_HALT_BAD : Fld := ⟨.jst1, 0x40, 16, 0x40, 1, 0x0, 0, 0, .rw, 0, false, false⟩
def Reg.CH_BASE_LO_BASE : Fld := ⟨.jst1, 0x44, 16, 0x40, 1, 0x0, 31, 5, .rw, 0, false, false⟩
def Reg.CH_BASE_HI_BASE : Fld := ⟨.jst1, 0x48, 16, 0x40, 1, 0x0, 31, 0, .rw, 0, false, false⟩
def Reg.CH_SIZE_SIZE : Fld := ⟨.jst1, 0x4c, 16, 0x40, 1, 0x0, 16, 0, .rw, 0, false, false⟩
def Reg.CH_CUR_PREF : Fld := ⟨.jst1, 0x50, 16, 0x40, 1, 0x0, 31, 31, .ro, 0, false, false⟩
def Reg.CH_CUR_INDEX : Fld := ⟨.jst1, 0x50, 16, 0x40, 1, 0x0, 15, 0, .ro, 0, false, false⟩
def Reg.CH_CONS_DONE : Fld := ⟨.jst1, 0x54, 16, 0x40, 1, 0x0, 31, 16, .ro, 0, false, false⟩
def Reg.CH_CONS_INDEX : Fld := ⟨.jst1, 0x54, 16, 0x40, 1, 0x0, 15, 0, .ro, 0, false, false⟩
def Reg.CH_BAD_COUNT : Fld := ⟨.jst1, 0x58, 16, 0x40, 1, 0x0, 31, 16, .ro, 0, false, false⟩
def Reg.CH_BAD_LAST : Fld := ⟨.jst1, 0x58, 16, 0x40, 1, 0x0, 15, 0, .ro, 0, false, false⟩
def Reg.CH_BYTES_COUNT : Fld := ⟨.jst1, 0x5c, 16, 0x40, 1, 0x0, 31, 0, .ro, 0, false, false⟩
def Reg.JST1_CAUSE_CMD_REJECT : Fld := ⟨.jst1, 0x14, 1, 0x0, 1, 0x0, 31, 31, .rw1c, 0, false, false⟩

/-- The fields of page JST1. -/
def Reg.pageJst1 : List Fld :=
  [Reg.CH_CFG_EVIDX, Reg.CH_CFG_DESC_NOSNOOP, Reg.CH_CFG_HALT_BAD, Reg.CH_BASE_LO_BASE,
   Reg.CH_BASE_HI_BASE, Reg.CH_SIZE_SIZE, Reg.CH_CUR_PREF, Reg.CH_CUR_INDEX,
   Reg.CH_CONS_DONE, Reg.CH_CONS_INDEX, Reg.CH_BAD_COUNT, Reg.CH_BAD_LAST] ++
  [Reg.CH_BYTES_COUNT, Reg.JST1_CAUSE_CMD_REJECT]

/-! Page ETH: R336. -/

def Reg.ETH_CAUSE_CMD_REJECT : Fld := ⟨.eth, 0x14, 1, 0x0, 1, 0x0, 31, 31, .rw1c, 0, false, false⟩
def Reg.ETH_CAUSE_LOCKED : Fld := ⟨.eth, 0x14, 1, 0x0, 1, 0x0, 30, 30, .rw1c, 0, false, false⟩
def Reg.ETH_CAUSE_PAUSE_RX : Fld := ⟨.eth, 0x14, 1, 0x0, 1, 0x0, 4, 4, .rw1c, 0, false, false⟩
def Reg.ETH_CAUSE_RX_DROP : Fld := ⟨.eth, 0x14, 1, 0x0, 1, 0x0, 3, 3, .rw1c, 0, false, false⟩
def Reg.ETH_CAUSE_FCS_ERR : Fld := ⟨.eth, 0x14, 1, 0x0, 1, 0x0, 2, 2, .rw1c, 0, false, false⟩
def Reg.ETH_CAUSE_LINK_DOWN : Fld := ⟨.eth, 0x14, 1, 0x0, 1, 0x0, 1, 1, .rw1c, 0, false, false⟩
def Reg.ETH_CAUSE_LINK_UP : Fld := ⟨.eth, 0x14, 1, 0x0, 1, 0x0, 0, 0, .rw1c, 0, false, false⟩
def Reg.ETH_CFG_AN_EN : Fld := ⟨.eth, 0x40, 1, 0x0, 1, 0x0, 8, 8, .rwl, 1, false, false⟩
def Reg.ETH_CFG_FEC25 : Fld := ⟨.eth, 0x40, 1, 0x0, 1, 0x0, 5, 4, .rwl, 2, false, false⟩
def Reg.ETH_CFG_MODE : Fld := ⟨.eth, 0x40, 1, 0x0, 1, 0x0, 1, 0, .rwl, 0, false, false⟩
def Reg.ETH_MAC_LO_MAC : Fld := ⟨.eth, 0x44, 1, 0x0, 1, 0x0, 31, 0, .rwl, 0, false, false⟩
def Reg.ETH_MAC_HI_MAC : Fld := ⟨.eth, 0x48, 1, 0x0, 1, 0x0, 15, 0, .rwl, 0, false, false⟩
def Reg.ETH_LINKS_AN_DONE : Fld := ⟨.eth, 0x4c, 1, 0x0, 1, 0x0, 11, 8, .ro, 0, false, false⟩
def Reg.ETH_LINKS_UP : Fld := ⟨.eth, 0x4c, 1, 0x0, 1, 0x0, 3, 0, .ro, 0, false, false⟩
def Reg.ETH_TX_LAT_LAT : Fld := ⟨.eth, 0x50, 4, 0x4, 1, 0x0, 15, 0, .rw, 0, false, false⟩
def Reg.ETH_RX_LAT_LAT : Fld := ⟨.eth, 0x60, 4, 0x4, 1, 0x0, 15, 0, .rw, 0, false, false⟩
def Reg.ETH_DESKEW_SKEW : Fld := ⟨.eth, 0x70, 4, 0x4, 1, 0x0, 15, 0, .ro, 0, false, false⟩
def Reg.ETH_RX_FRAMES_COUNT : Fld := ⟨.eth, 0x80, 1, 0x0, 1, 0x0, 31, 0, .ro, 0, false, false⟩
def Reg.ETH_TX_FRAMES_COUNT : Fld := ⟨.eth, 0x84, 1, 0x0, 1, 0x0, 31, 0, .ro, 0, false, false⟩
def Reg.ETH_FCS_ERR_COUNT : Fld := ⟨.eth, 0x88, 1, 0x0, 1, 0x0, 31, 0, .ro, 0, false, false⟩
def Reg.ETH_RX_DROP_COUNT : Fld := ⟨.eth, 0x8c, 1, 0x0, 1, 0x0, 31, 0, .ro, 0, false, false⟩
def Reg.ETH_PAUSE_RX_COUNT : Fld := ⟨.eth, 0x90, 1, 0x0, 1, 0x0, 31, 0, .ro, 0, false, false⟩

/-- The fields of page ETH. -/
def Reg.pageEth : List Fld :=
  [Reg.ETH_CAUSE_CMD_REJECT, Reg.ETH_CAUSE_LOCKED, Reg.ETH_CAUSE_PAUSE_RX, Reg.ETH_CAUSE_RX_DROP,
   Reg.ETH_CAUSE_FCS_ERR, Reg.ETH_CAUSE_LINK_DOWN, Reg.ETH_CAUSE_LINK_UP, Reg.ETH_CFG_AN_EN,
   Reg.ETH_CFG_FEC25, Reg.ETH_CFG_MODE, Reg.ETH_MAC_LO_MAC, Reg.ETH_MAC_HI_MAC] ++
  [Reg.ETH_LINKS_AN_DONE, Reg.ETH_LINKS_UP, Reg.ETH_TX_LAT_LAT, Reg.ETH_RX_LAT_LAT,
   Reg.ETH_DESKEW_SKEW, Reg.ETH_RX_FRAMES_COUNT, Reg.ETH_TX_FRAMES_COUNT, Reg.ETH_FCS_ERR_COUNT,
   Reg.ETH_RX_DROP_COUNT, Reg.ETH_PAUSE_RX_COUNT]

/-! Page HAL0: R337. -/

def Reg.HAL0_CAUSE_CMD_REJECT : Fld := ⟨.hal0, 0x14, 1, 0x0, 1, 0x0, 31, 31, .rw1c, 0, false, false⟩
def Reg.HAL0_CAUSE_LOCKED : Fld := ⟨.hal0, 0x14, 1, 0x0, 1, 0x0, 30, 30, .rw1c, 0, false, false⟩
def Reg.HAL0_CAUSE_TS_OVF : Fld := ⟨.hal0, 0x14, 1, 0x0, 1, 0x0, 7, 7, .rw1c, 0, false, false⟩
def Reg.HAL0_CAUSE_PAIR_MISS : Fld := ⟨.hal0, 0x14, 1, 0x0, 1, 0x0, 6, 6, .rw1c, 0, false, false⟩
def Reg.HAL0_CAUSE_STEP_CANCEL : Fld := ⟨.hal0, 0x14, 1, 0x0, 1, 0x0, 5, 5, .rw1c, 0, false, false⟩
def Reg.HAL0_CAUSE_TIME_STEP : Fld := ⟨.hal0, 0x14, 1, 0x0, 1, 0x0, 4, 4, .rw1c, 0, false, false⟩
def Reg.HAL0_CAUSE_STEP_PEND : Fld := ⟨.hal0, 0x14, 1, 0x0, 1, 0x0, 3, 3, .rw1c, 0, false, false⟩
def Reg.HAL0_CAUSE_SLEW_LIM : Fld := ⟨.hal0, 0x14, 1, 0x0, 1, 0x0, 2, 2, .rw1c, 0, false, false⟩
def Reg.HAL0_CAUSE_HOLDOVER : Fld := ⟨.hal0, 0x14, 1, 0x0, 1, 0x0, 1, 1, .rw1c, 0, false, false⟩
def Reg.HAL0_CAUSE_LOCK : Fld := ⟨.hal0, 0x14, 1, 0x0, 1, 0x0, 0, 0, .rw1c, 0, false, false⟩
def Reg.HAL_CFG_DOMAIN : Fld := ⟨.hal0, 0x40, 1, 0x0, 1, 0x0, 15, 8, .rw, 0, false, false⟩
def Reg.HAL_CFG_PAIR_LINK : Fld := ⟨.hal0, 0x40, 1, 0x0, 1, 0x0, 3, 1, .rw, 0, false, false⟩
def Reg.HAL_CFG_SRC : Fld := ⟨.hal0, 0x40, 1, 0x0, 1, 0x0, 0, 0, .rw, 0, false, false⟩
def Reg.HAL_INC_NOM_LO_INC : Fld := ⟨.hal0, 0x44, 1, 0x0, 1, 0x0, 31, 0, .rwl, 0, false, false⟩
def Reg.HAL_INC_NOM_HI_INC : Fld := ⟨.hal0, 0x48, 1, 0x0, 1, 0x0, 7, 0, .rwl, 2, false, false⟩
def Reg.HAL_INC_LO_INC : Fld := ⟨.hal0, 0x4c, 1, 0x0, 1, 0x0, 31, 0, .ro, 0, false, false⟩
def Reg.HAL_INC_HI_INC : Fld := ⟨.hal0, 0x50, 1, 0x0, 1, 0x0, 7, 0, .ro, 2, false, false⟩
def Reg.HAL_KP_KP : Fld := ⟨.hal0, 0x54, 1, 0x0, 1, 0x0, 31, 0, .rw, 32768, false, false⟩
def Reg.HAL_KI_KI : Fld := ⟨.hal0, 0x58, 1, 0x0, 1, 0x0, 31, 0, .rw, 4096, false, false⟩
def Reg.HAL_SLEW_MAX_SLEW_MAX : Fld := ⟨.hal0, 0x5c, 1, 0x0, 1, 0x0, 19, 0, .rwl, 500000, false, false⟩
def Reg.HAL_STEP_THR_THR : Fld := ⟨.hal0, 0x60, 1, 0x0, 1, 0x0, 31, 0, .rwl, 1000000, false, false⟩
def Reg.HAL_STEP_STEP_N : Fld := ⟨.hal0, 0x64, 1, 0x0, 1, 0x0, 7, 0, .rw, 3, false, false⟩
def Reg.HAL_LOCK_LOCK_N : Fld := ⟨.hal0, 0x68, 1, 0x0, 1, 0x0, 31, 16, .rw, 16, false, false⟩
def Reg.HAL_LOCK_LOCK_THR : Fld := ⟨.hal0, 0x68, 1, 0x0, 1, 0x0, 15, 0, .rw, 20, false, false⟩
def Reg.HAL_HOLD_T_HOLD_T : Fld := ⟨.hal0, 0x6c, 1, 0x0, 1, 0x0, 15, 0, .rw, 1000, false, false⟩
def Reg.HAL_MPD_MPD : Fld := ⟨.hal0, 0x70, 1, 0x0, 1, 0x0, 31, 0, .rw, 0, false, false⟩
def Reg.HAL_PAIR_SRC0_ID : Fld := ⟨.hal0, 0x74, 1, 0x0, 1, 0x0, 31, 0, .rw, 0, false, false⟩
def Reg.HAL_PAIR_SRC1_ID : Fld := ⟨.hal0, 0x78, 1, 0x0, 1, 0x0, 31, 0, .rw, 0, false, false⟩
def Reg.HAL_PAIR_SRC2_PORT : Fld := ⟨.hal0, 0x7c, 1, 0x0, 1, 0x0, 15, 0, .rw, 0, false, false⟩
def Reg.HAL_OFS_IN_LO_OFS : Fld := ⟨.hal0, 0x80, 1, 0x0, 1, 0x0, 31, 0, .rw, 0, false, false⟩
def Reg.HAL_OFS_IN_HI_OFS : Fld := ⟨.hal0, 0x84, 1, 0x0, 1, 0x0, 31, 0, .rw, 0, false, false⟩
def Reg.HAL_LAST_OFS_LO_OFS : Fld := ⟨.hal0, 0x88, 1, 0x0, 1, 0x0, 31, 0, .ro, 0, false, false⟩
def Reg.HAL_LAST_OFS_HI_OFS : Fld := ⟨.hal0, 0x8c, 1, 0x0, 1, 0x0, 31, 0, .ro, 0, false, false⟩
def Reg.HAL_ADJ_ADJ : Fld := ⟨.hal0, 0x90, 1, 0x0, 1, 0x0, 31, 0, .ro, 0, false, false⟩
def Reg.HAL_INTEG_INTEG : Fld := ⟨.hal0, 0x94, 1, 0x0, 1, 0x0, 31, 0, .ro, 0, false, false⟩
def Reg.HAL_STEP_CNT_COUNT : Fld := ⟨.hal0, 0x98, 1, 0x0, 1, 0x0, 31, 0, .ro, 0, false, false⟩
def Reg.HAL_LAST_STEP_LO_STEP : Fld := ⟨.hal0, 0x9c, 1, 0x0, 1, 0x0, 31, 0, .ro, 0, false, false⟩
def Reg.HAL_LAST_STEP_HI_STEP : Fld := ⟨.hal0, 0xa0, 1, 0x0, 1, 0x0, 31, 0, .ro, 0, false, false⟩
def Reg.HAL_TIME_SUB_FRAC : Fld := ⟨.hal0, 0xa4, 1, 0x0, 1, 0x0, 7, 0, .ro, 0, false, false⟩
def Reg.HAL_TIME_NS_NS : Fld := ⟨.hal0, 0xa8, 1, 0x0, 1, 0x0, 29, 0, .ro, 0, false, false⟩
def Reg.HAL_TIME_SEC_LO_SEC : Fld := ⟨.hal0, 0xac, 1, 0x0, 1, 0x0, 31, 0, .ro, 0, false, false⟩
def Reg.HAL_TIME_SEC_HI_SEC : Fld := ⟨.hal0, 0xb0, 1, 0x0, 1, 0x0, 15, 0, .ro, 0, false, false⟩
def Reg.HAL_SET_NS_NS : Fld := ⟨.hal0, 0xb4, 1, 0x0, 1, 0x0, 29, 0, .rw, 0, false, false⟩
def Reg.HAL_SET_SEC_LO_SEC : Fld := ⟨.hal0, 0xb8, 1, 0x0, 1, 0x0, 31, 0, .rw, 0, false, false⟩
def Reg.HAL_SET_SEC_HI_SEC : Fld := ⟨.hal0, 0xbc, 1, 0x0, 1, 0x0, 15, 0, .rw, 0, false, false⟩
def Reg.HAL_PEND_LO_STEP : Fld := ⟨.hal0, 0xc0, 1, 0x0, 1, 0x0, 31, 0, .ro, 0, false, false⟩
def Reg.HAL_PEND_HI_STEP : Fld := ⟨.hal0, 0xc4, 1, 0x0, 1, 0x0, 31, 0, .ro, 0, false, false⟩

/-- The fields of page HAL0. -/
def Reg.pageHal0 : List Fld :=
  [Reg.HAL0_CAUSE_CMD_REJECT, Reg.HAL0_CAUSE_LOCKED, Reg.HAL0_CAUSE_TS_OVF, Reg.HAL0_CAUSE_PAIR_MISS,
   Reg.HAL0_CAUSE_STEP_CANCEL, Reg.HAL0_CAUSE_TIME_STEP, Reg.HAL0_CAUSE_STEP_PEND, Reg.HAL0_CAUSE_SLEW_LIM,
   Reg.HAL0_CAUSE_HOLDOVER, Reg.HAL0_CAUSE_LOCK, Reg.HAL_CFG_DOMAIN, Reg.HAL_CFG_PAIR_LINK] ++
  [Reg.HAL_CFG_SRC, Reg.HAL_INC_NOM_LO_INC, Reg.HAL_INC_NOM_HI_INC, Reg.HAL_INC_LO_INC,
   Reg.HAL_INC_HI_INC, Reg.HAL_KP_KP, Reg.HAL_KI_KI, Reg.HAL_SLEW_MAX_SLEW_MAX,
   Reg.HAL_STEP_THR_THR, Reg.HAL_STEP_STEP_N, Reg.HAL_LOCK_LOCK_N, Reg.HAL_LOCK_LOCK_THR] ++
  [Reg.HAL_HOLD_T_HOLD_T, Reg.HAL_MPD_MPD, Reg.HAL_PAIR_SRC0_ID, Reg.HAL_PAIR_SRC1_ID,
   Reg.HAL_PAIR_SRC2_PORT, Reg.HAL_OFS_IN_LO_OFS, Reg.HAL_OFS_IN_HI_OFS, Reg.HAL_LAST_OFS_LO_OFS,
   Reg.HAL_LAST_OFS_HI_OFS, Reg.HAL_ADJ_ADJ, Reg.HAL_INTEG_INTEG, Reg.HAL_STEP_CNT_COUNT] ++
  [Reg.HAL_LAST_STEP_LO_STEP, Reg.HAL_LAST_STEP_HI_STEP, Reg.HAL_TIME_SUB_FRAC, Reg.HAL_TIME_NS_NS,
   Reg.HAL_TIME_SEC_LO_SEC, Reg.HAL_TIME_SEC_HI_SEC, Reg.HAL_SET_NS_NS, Reg.HAL_SET_SEC_LO_SEC,
   Reg.HAL_SET_SEC_HI_SEC, Reg.HAL_PEND_LO_STEP, Reg.HAL_PEND_HI_STEP]

/-! Page HAL1: R61, R338. -/

def Reg.HAL_TXTS_STAT_COUNT : Fld := ⟨.hal1, 0x40, 1, 0x0, 1, 0x0, 4, 0, .ro, 0, false, false⟩
def Reg.HAL_TXTS_ID_SEQID : Fld := ⟨.hal1, 0x44, 1, 0x0, 1, 0x0, 31, 16, .ro, 0, false, false⟩
def Reg.HAL_TXTS_ID_DOMAIN : Fld := ⟨.hal1, 0x44, 1, 0x0, 1, 0x0, 15, 8, .ro, 0, false, false⟩
def Reg.HAL_TXTS_ID_MTYPE : Fld := ⟨.hal1, 0x44, 1, 0x0, 1, 0x0, 7, 4, .ro, 0, false, false⟩
def Reg.HAL_TXTS_ID_LINK : Fld := ⟨.hal1, 0x44, 1, 0x0, 1, 0x0, 2, 0, .ro, 0, false, false⟩
def Reg.HAL_TXTS_SUB_FRAC : Fld := ⟨.hal1, 0x48, 1, 0x0, 1, 0x0, 7, 0, .ro, 0, false, false⟩
def Reg.HAL_TXTS_NS_NS : Fld := ⟨.hal1, 0x4c, 1, 0x0, 1, 0x0, 29, 0, .ro, 0, false, false⟩
def Reg.HAL_TXTS_SEC_LO_SEC : Fld := ⟨.hal1, 0x50, 1, 0x0, 1, 0x0, 31, 0, .ro, 0, false, false⟩
def Reg.HAL_TXTS_SEC_HI_SEC : Fld := ⟨.hal1, 0x54, 1, 0x0, 1, 0x0, 15, 0, .ro, 0, false, false⟩
def Reg.HAL1_CAUSE_CMD_REJECT : Fld := ⟨.hal1, 0x14, 1, 0x0, 1, 0x0, 31, 31, .rw1c, 0, false, false⟩

/-- The fields of page HAL1. -/
def Reg.pageHal1 : List Fld :=
  [Reg.HAL_TXTS_STAT_COUNT, Reg.HAL_TXTS_ID_SEQID, Reg.HAL_TXTS_ID_DOMAIN, Reg.HAL_TXTS_ID_MTYPE,
   Reg.HAL_TXTS_ID_LINK, Reg.HAL_TXTS_SUB_FRAC, Reg.HAL_TXTS_NS_NS, Reg.HAL_TXTS_SEC_LO_SEC,
   Reg.HAL_TXTS_SEC_HI_SEC, Reg.HAL1_CAUSE_CMD_REJECT]

/-! Page LNK0: R339. -/

def Reg.LNK0_CAUSE_CMD_REJECT : Fld := ⟨.lnk0, 0x14, 1, 0x0, 1, 0x0, 31, 31, .rw1c, 0, false, false⟩
def Reg.LNK0_CAUSE_LOCKED : Fld := ⟨.lnk0, 0x14, 1, 0x0, 1, 0x0, 30, 30, .rw1c, 0, false, false⟩
def Reg.LNK0_CAUSE_CFG_WR : Fld := ⟨.lnk0, 0x14, 1, 0x0, 1, 0x0, 10, 10, .rw1c, 0, false, false⟩
def Reg.LNK0_CAUSE_ID_CONFLICT : Fld := ⟨.lnk0, 0x14, 1, 0x0, 1, 0x0, 9, 9, .rw1c, 0, false, false⟩
def Reg.LNK0_CAUSE_WRONG_DST : Fld := ⟨.lnk0, 0x14, 1, 0x0, 1, 0x0, 8, 8, .rw1c, 0, false, false⟩
def Reg.LNK0_CAUSE_EPOCH_OVF : Fld := ⟨.lnk0, 0x14, 1, 0x0, 1, 0x0, 7, 7, .rw1c, 0, false, false⟩
def Reg.LNK0_CAUSE_STREAM_ERR : Fld := ⟨.lnk0, 0x14, 1, 0x0, 1, 0x0, 6, 6, .rw1c, 0, false, false⟩
def Reg.LNK0_CAUSE_PCRC_ERR : Fld := ⟨.lnk0, 0x14, 1, 0x0, 1, 0x0, 5, 5, .rw1c, 0, false, false⟩
def Reg.LNK0_CAUSE_RTO : Fld := ⟨.lnk0, 0x14, 1, 0x0, 1, 0x0, 4, 4, .rw1c, 0, false, false⟩
def Reg.LNK0_CAUSE_NACK_RX : Fld := ⟨.lnk0, 0x14, 1, 0x0, 1, 0x0, 3, 3, .rw1c, 0, false, false⟩
def Reg.LNK0_CAUSE_NACK_TX : Fld := ⟨.lnk0, 0x14, 1, 0x0, 1, 0x0, 2, 2, .rw1c, 0, false, false⟩
def Reg.LNK0_CAUSE_LINK_FAIL : Fld := ⟨.lnk0, 0x14, 1, 0x0, 1, 0x0, 1, 1, .rw1c, 0, false, false⟩
def Reg.LNK0_CAUSE_LINK_UP : Fld := ⟨.lnk0, 0x14, 1, 0x0, 1, 0x0, 0, 0, .rw1c, 0, false, false⟩
def Reg.LNK_CFG_MAX_PAYLOAD : Fld := ⟨.lnk0, 0x40, 1, 0x0, 1, 0x0, 31, 16, .rwl, 8192, false, false⟩
def Reg.LNK_CFG_LINKS_EN : Fld := ⟨.lnk0, 0x40, 1, 0x0, 1, 0x0, 7, 0, .rwl, 1, false, false⟩
def Reg.LNK_VLAN_TAG_EN : Fld := ⟨.lnk0, 0x44, 1, 0x0, 1, 0x0, 16, 16, .rw, 0, false, false⟩
def Reg.LNK_VLAN_PCP : Fld := ⟨.lnk0, 0x44, 1, 0x0, 1, 0x0, 15, 13, .rw, 0, false, false⟩
def Reg.LNK_VLAN_VID : Fld := ⟨.lnk0, 0x44, 1, 0x0, 1, 0x0, 11, 0, .rw, 0, false, false⟩
def Reg.LNK_MCAST_LO_MAC : Fld := ⟨.lnk0, 0x48, 1, 0x0, 1, 0x0, 31, 0, .rw, 46336, false, false⟩
def Reg.LNK_MCAST_HI_MAC : Fld := ⟨.lnk0, 0x4c, 1, 0x0, 1, 0x0, 15, 0, .rw, 768, false, false⟩
def Reg.LNK_REPLAY_BASE : Fld := ⟨.lnk0, 0x50, 1, 0x0, 1, 0x0, 20, 0, .rwl, 0, false, false⟩
def Reg.LNK_ACK_ACK_T : Fld := ⟨.lnk0, 0x54, 1, 0x0, 1, 0x0, 31, 16, .rw, 20, false, false⟩
def Reg.LNK_ACK_ACK_N : Fld := ⟨.lnk0, 0x54, 1, 0x0, 1, 0x0, 7, 0, .rw, 8, false, false⟩
def Reg.LNK_RTO_RTO : Fld := ⟨.lnk0, 0x58, 1, 0x0, 1, 0x0, 31, 16, .rw, 200, false, false⟩
def Reg.LNK_RTO_RETRY_MAX : Fld := ⟨.lnk0, 0x58, 1, 0x0, 1, 0x0, 7, 0, .rw, 8, false, false⟩
def Reg.LNK_NACK_NACK_T : Fld := ⟨.lnk0, 0x5c, 1, 0x0, 1, 0x0, 31, 16, .rw, 20, false, false⟩
def Reg.LNK_NACK_RETRY_T : Fld := ⟨.lnk0, 0x5c, 1, 0x0, 1, 0x0, 15, 0, .rw, 50, false, false⟩
def Reg.LNK_STATUS_T_STATUS_T : Fld := ⟨.lnk0, 0x60, 1, 0x0, 1, 0x0, 15, 0, .rw, 10, false, false⟩
def Reg.LNK_PEER_VALID : Fld := ⟨.lnk0, 0x68, 8, 0x4, 1, 0x0, 31, 31, .ro, 0, false, false⟩
def Reg.LNK_PEER_ID : Fld := ⟨.lnk0, 0x68, 8, 0x4, 1, 0x0, 28, 24, .ro, 0, false, false⟩
def Reg.LNK_PEER_DEV_OP : Fld := ⟨.lnk0, 0x68, 8, 0x4, 1, 0x0, 23, 22, .ro, 0, false, false⟩
def Reg.LNK_PEER_SEVERITY : Fld := ⟨.lnk0, 0x68, 8, 0x4, 1, 0x0, 21, 20, .ro, 0, false, false⟩
def Reg.LNK_PEER_HAL : Fld := ⟨.lnk0, 0x68, 8, 0x4, 1, 0x0, 17, 16, .ro, 0, false, false⟩
def Reg.LNK_PEER_AGE : Fld := ⟨.lnk0, 0x68, 8, 0x4, 1, 0x0, 15, 0, .ro, 65535, false, false⟩
def Reg.LNK_TX_FRAMES_COUNT : Fld := ⟨.lnk0, 0x88, 1, 0x0, 1, 0x0, 31, 0, .ro, 0, false, false⟩
def Reg.LNK_RX_FRAMES_COUNT : Fld := ⟨.lnk0, 0x8c, 1, 0x0, 1, 0x0, 31, 0, .ro, 0, false, false⟩
def Reg.LNK_RETX_COUNT : Fld := ⟨.lnk0, 0x90, 1, 0x0, 1, 0x0, 31, 0, .ro, 0, false, false⟩
def Reg.LNK_DUP_COUNT : Fld := ⟨.lnk0, 0x94, 1, 0x0, 1, 0x0, 31, 0, .ro, 0, false, false⟩
def Reg.LNK_PCRC_ERR_COUNT : Fld := ⟨.lnk0, 0x98, 1, 0x0, 1, 0x0, 31, 0, .ro, 0, false, false⟩
def Reg.LNK_DISCARD_COUNT : Fld := ⟨.lnk0, 0x9c, 1, 0x0, 1, 0x0, 31, 0, .ro, 0, false, false⟩
def Reg.LNK_EPOCH_EN_EN : Fld := ⟨.lnk0, 0xa0, 3, 0x4, 1, 0x0, 31, 0, .rw, 0, false, false⟩

/-- The fields of page LNK0. -/
def Reg.pageLnk0 : List Fld :=
  [Reg.LNK0_CAUSE_CMD_REJECT, Reg.LNK0_CAUSE_LOCKED, Reg.LNK0_CAUSE_CFG_WR, Reg.LNK0_CAUSE_ID_CONFLICT,
   Reg.LNK0_CAUSE_WRONG_DST, Reg.LNK0_CAUSE_EPOCH_OVF, Reg.LNK0_CAUSE_STREAM_ERR, Reg.LNK0_CAUSE_PCRC_ERR,
   Reg.LNK0_CAUSE_RTO, Reg.LNK0_CAUSE_NACK_RX, Reg.LNK0_CAUSE_NACK_TX, Reg.LNK0_CAUSE_LINK_FAIL] ++
  [Reg.LNK0_CAUSE_LINK_UP, Reg.LNK_CFG_MAX_PAYLOAD, Reg.LNK_CFG_LINKS_EN, Reg.LNK_VLAN_TAG_EN,
   Reg.LNK_VLAN_PCP, Reg.LNK_VLAN_VID, Reg.LNK_MCAST_LO_MAC, Reg.LNK_MCAST_HI_MAC,
   Reg.LNK_REPLAY_BASE, Reg.LNK_ACK_ACK_T, Reg.LNK_ACK_ACK_N, Reg.LNK_RTO_RTO] ++
  [Reg.LNK_RTO_RETRY_MAX, Reg.LNK_NACK_NACK_T, Reg.LNK_NACK_RETRY_T, Reg.LNK_STATUS_T_STATUS_T,
   Reg.LNK_PEER_VALID, Reg.LNK_PEER_ID, Reg.LNK_PEER_DEV_OP, Reg.LNK_PEER_SEVERITY,
   Reg.LNK_PEER_HAL, Reg.LNK_PEER_AGE, Reg.LNK_TX_FRAMES_COUNT, Reg.LNK_RX_FRAMES_COUNT] ++
  [Reg.LNK_RETX_COUNT, Reg.LNK_DUP_COUNT, Reg.LNK_PCRC_ERR_COUNT, Reg.LNK_DISCARD_COUNT,
   Reg.LNK_EPOCH_EN_EN]

/-! Page LNK1: R61, R340. -/

def Reg.TX_CFG_EN : Fld := ⟨.lnk1, 0x40, 16, 0x20, 1, 0x0, 31, 31, .rw, 0, false, false⟩
def Reg.TX_CFG_LINK : Fld := ⟨.lnk1, 0x40, 16, 0x20, 1, 0x0, 26, 24, .rw, 0, false, true⟩
def Reg.TX_CFG_DST_ID : Fld := ⟨.lnk1, 0x40, 16, 0x20, 1, 0x0, 20, 16, .rw, 0, false, true⟩
def Reg.TX_CFG_DST_STREAM : Fld := ⟨.lnk1, 0x40, 16, 0x20, 1, 0x0, 11, 8, .rw, 0, false, true⟩
def Reg.TX_BASE_BASE : Fld := ⟨.lnk1, 0x44, 16, 0x20, 1, 0x0, 20, 0, .rw, 0, false, true⟩
def Reg.TX_SIZE_SIZE : Fld := ⟨.lnk1, 0x48, 16, 0x20, 1, 0x0, 12, 0, .rw, 0, false, true⟩
def Reg.TX_WPTR_WRAP : Fld := ⟨.lnk1, 0x4c, 16, 0x20, 1, 0x0, 31, 31, .rw, 0, false, false⟩
def Reg.TX_WPTR_OFFSET : Fld := ⟨.lnk1, 0x4c, 16, 0x20, 1, 0x0, 27, 0, .rw, 0, false, false⟩
def Reg.TX_RPTR_WRAP : Fld := ⟨.lnk1, 0x50, 16, 0x20, 1, 0x0, 31, 31, .ro, 0, false, false⟩
def Reg.TX_RPTR_OFFSET : Fld := ⟨.lnk1, 0x50, 16, 0x20, 1, 0x0, 27, 0, .ro, 0, false, false⟩
def Reg.TX_OFFS_OFFS : Fld := ⟨.lnk1, 0x54, 16, 0x20, 1, 0x0, 31, 0, .ro, 0, false, false⟩
def Reg.TX_ACKED_OFFS : Fld := ⟨.lnk1, 0x58, 16, 0x20, 1, 0x0, 31, 0, .ro, 0, false, false⟩
def Reg.RX_CFG_EN : Fld := ⟨.lnk1, 0x240, 16, 0x20, 1, 0x0, 31, 31, .rw, 0, false, false⟩
def Reg.RX_CFG_SRC_ID : Fld := ⟨.lnk1, 0x240, 16, 0x20, 1, 0x0, 20, 16, .rw, 0, false, true⟩
def Reg.RX_BASE_BASE : Fld := ⟨.lnk1, 0x244, 16, 0x20, 1, 0x0, 20, 0, .rw, 0, false, true⟩
def Reg.RX_SIZE_SIZE : Fld := ⟨.lnk1, 0x248, 16, 0x20, 1, 0x0, 12, 0, .rw, 0, false, true⟩
def Reg.RX_WPTR_WRAP : Fld := ⟨.lnk1, 0x24c, 16, 0x20, 1, 0x0, 31, 31, .ro, 0, false, false⟩
def Reg.RX_WPTR_OFFSET : Fld := ⟨.lnk1, 0x24c, 16, 0x20, 1, 0x0, 27, 0, .ro, 0, false, false⟩
def Reg.RX_RPTR_WRAP : Fld := ⟨.lnk1, 0x250, 16, 0x20, 1, 0x0, 31, 31, .rw, 0, false, false⟩
def Reg.RX_RPTR_OFFSET : Fld := ⟨.lnk1, 0x250, 16, 0x20, 1, 0x0, 27, 0, .rw, 0, false, false⟩
def Reg.RX_EXP_OFFS : Fld := ⟨.lnk1, 0x254, 16, 0x20, 1, 0x0, 31, 0, .ro, 0, false, false⟩
def Reg.RX_STAT_HALTED : Fld := ⟨.lnk1, 0x258, 16, 0x20, 1, 0x0, 1, 1, .ro, 0, false, false⟩
def Reg.RX_STAT_FULL : Fld := ⟨.lnk1, 0x258, 16, 0x20, 1, 0x0, 0, 0, .ro, 0, false, false⟩
def Reg.EP_STAT_COUNT : Fld := ⟨.lnk1, 0x440, 1, 0x0, 1, 0x0, 4, 0, .ro, 0, false, false⟩
def Reg.EP_SRC_ID : Fld := ⟨.lnk1, 0x444, 1, 0x0, 1, 0x0, 28, 24, .ro, 0, false, false⟩
def Reg.EP_SRC_PORT : Fld := ⟨.lnk1, 0x444, 1, 0x0, 1, 0x0, 6, 0, .ro, 0, false, false⟩
def Reg.EP_PAGE_PAGE : Fld := ⟨.lnk1, 0x448, 1, 0x0, 1, 0x0, 31, 0, .ro, 0, false, false⟩
def Reg.EP_STAMP_LO_STAMP : Fld := ⟨.lnk1, 0x44c, 1, 0x0, 1, 0x0, 31, 0, .ro, 0, false, false⟩
def Reg.EP_STAMP_HI_STAMP : Fld := ⟨.lnk1, 0x450, 1, 0x0, 1, 0x0, 31, 0, .ro, 0, false, false⟩
def Reg.LNK1_CAUSE_CMD_REJECT : Fld := ⟨.lnk1, 0x14, 1, 0x0, 1, 0x0, 31, 31, .rw1c, 0, false, false⟩

/-- The fields of page LNK1. -/
def Reg.pageLnk1 : List Fld :=
  [Reg.TX_CFG_EN, Reg.TX_CFG_LINK, Reg.TX_CFG_DST_ID, Reg.TX_CFG_DST_STREAM,
   Reg.TX_BASE_BASE, Reg.TX_SIZE_SIZE, Reg.TX_WPTR_WRAP, Reg.TX_WPTR_OFFSET,
   Reg.TX_RPTR_WRAP, Reg.TX_RPTR_OFFSET, Reg.TX_OFFS_OFFS, Reg.TX_ACKED_OFFS] ++
  [Reg.RX_CFG_EN, Reg.RX_CFG_SRC_ID, Reg.RX_BASE_BASE, Reg.RX_SIZE_SIZE,
   Reg.RX_WPTR_WRAP, Reg.RX_WPTR_OFFSET, Reg.RX_RPTR_WRAP, Reg.RX_RPTR_OFFSET,
   Reg.RX_EXP_OFFS, Reg.RX_STAT_HALTED, Reg.RX_STAT_FULL, Reg.EP_STAT_COUNT] ++
  [Reg.EP_SRC_ID, Reg.EP_SRC_PORT, Reg.EP_PAGE_PAGE, Reg.EP_STAMP_LO_STAMP,
   Reg.EP_STAMP_HI_STAMP, Reg.LNK1_CAUSE_CMD_REJECT]

/-! Page PEN: R357. -/

def Reg.PEN_CAUSE_CMD_REJECT : Fld := ⟨.pen, 0x14, 1, 0x0, 1, 0x0, 31, 31, .rw1c, 0, false, false⟩
def Reg.PEN_CAUSE_LOCKED : Fld := ⟨.pen, 0x14, 1, 0x0, 1, 0x0, 30, 30, .ro, 0, false, false⟩
def Reg.PEN_CAUSE_AER_UNC : Fld := ⟨.pen, 0x14, 1, 0x0, 1, 0x0, 7, 7, .rw1c, 0, false, false⟩
def Reg.PEN_CAUSE_AER_COR : Fld := ⟨.pen, 0x14, 1, 0x0, 1, 0x0, 6, 6, .rw1c, 0, false, false⟩
def Reg.PEN_CAUSE_NARROW : Fld := ⟨.pen, 0x14, 1, 0x0, 1, 0x0, 5, 5, .rw1c, 0, false, false⟩
def Reg.PEN_CAUSE_FLR_EV : Fld := ⟨.pen, 0x14, 1, 0x0, 1, 0x0, 4, 4, .rw1c, 0, false, false⟩
def Reg.PEN_CAUSE_MSI_PEND : Fld := ⟨.pen, 0x14, 1, 0x0, 1, 0x0, 3, 3, .rw1c, 0, false, false⟩
def Reg.PEN_CAUSE_LINK_DOWN : Fld := ⟨.pen, 0x14, 1, 0x0, 1, 0x0, 2, 2, .rw1c, 0, false, false⟩
def Reg.PEN_CAUSE_LINK_UP : Fld := ⟨.pen, 0x14, 1, 0x0, 1, 0x0, 1, 1, .rw1c, 0, false, false⟩
def Reg.PEN_CAUSE_POISON : Fld := ⟨.pen, 0x14, 1, 0x0, 1, 0x0, 0, 0, .rw1c, 0, false, false⟩
def Reg.PEN_SUM_LO_SUM : Fld := ⟨.pen, 0x40, 1, 0x0, 1, 0x0, 31, 0, .ro, 0, false, false⟩
def Reg.PEN_SUM_HI_SUM : Fld := ⟨.pen, 0x44, 1, 0x0, 1, 0x0, 21, 0, .ro, 0, false, false⟩
def Reg.PEN_EN_LO_EN : Fld := ⟨.pen, 0x48, 1, 0x0, 1, 0x0, 31, 0, .rw, 0, false, false⟩
def Reg.PEN_EN_HI_EN : Fld := ⟨.pen, 0x4c, 1, 0x0, 1, 0x0, 21, 0, .rw, 0, false, false⟩
def Reg.PEN_CTL_MSI_MIRROR : Fld := ⟨.pen, 0x50, 1, 0x0, 1, 0x0, 1, 1, .rw, 0, false, false⟩
def Reg.PEN_CTL_INT_EN : Fld := ⟨.pen, 0x50, 1, 0x0, 1, 0x0, 0, 0, .rw, 0, false, false⟩
def Reg.PEN_ACT_LO_ACT : Fld := ⟨.pen, 0x54, 1, 0x0, 1, 0x0, 31, 0, .ro, 0, false, false⟩
def Reg.PEN_ACT_HI_ACT : Fld := ⟨.pen, 0x58, 1, 0x0, 1, 0x0, 21, 0, .ro, 0, false, false⟩
def Reg.PEN_PG_ATTN_ATTN : Fld := ⟨.pen, 0x60, 8, 0x4, 1, 0x0, 11, 0, .ro, 0, false, false⟩
def Reg.PEN_FB_ATTN_ATTN : Fld := ⟨.pen, 0x80, 8, 0x4, 1, 0x0, 11, 0, .ro, 0, false, false⟩
def Reg.PEN_MSI_CNT_COUNT : Fld := ⟨.pen, 0xa0, 1, 0x0, 1, 0x0, 31, 0, .ro, 0, false, false⟩
def Reg.PEN_SMP_CAUSE_OVERRUN : Fld := ⟨.pen, 0xa8, 1, 0x0, 1, 0x0, 2, 2, .rw1c, 0, false, false⟩
def Reg.PEN_SMP_CAUSE_FRAME_ERR : Fld := ⟨.pen, 0xa8, 1, 0x0, 1, 0x0, 1, 1, .rw1c, 0, false, false⟩
def Reg.PEN_SMP_CAUSE_CRC_ERR : Fld := ⟨.pen, 0xa8, 1, 0x0, 1, 0x0, 0, 0, .rw1c, 0, false, false⟩
def Reg.PEN_SMP_EN_EN : Fld := ⟨.pen, 0xac, 1, 0x0, 1, 0x0, 2, 0, .rw, 0, false, false⟩
def Reg.PEN_LINK_BME : Fld := ⟨.pen, 0xb0, 1, 0x0, 1, 0x0, 17, 17, .ro, 0, false, false⟩
def Reg.PEN_LINK_MSI_EN : Fld := ⟨.pen, 0xb0, 1, 0x0, 1, 0x0, 16, 16, .ro, 0, false, false⟩
def Reg.PEN_LINK_UP : Fld := ⟨.pen, 0xb0, 1, 0x0, 1, 0x0, 8, 8, .ro, 0, false, false⟩
def Reg.PEN_LINK_SPEED : Fld := ⟨.pen, 0xb0, 1, 0x0, 1, 0x0, 6, 4, .ro, 0, false, false⟩
def Reg.PEN_LINK_WIDTH : Fld := ⟨.pen, 0xb0, 1, 0x0, 1, 0x0, 3, 0, .ro, 0, false, false⟩
def Reg.PEN_AER_COR_COUNT : Fld := ⟨.pen, 0xb4, 1, 0x0, 1, 0x0, 31, 0, .ro, 0, false, false⟩
def Reg.PEN_AER_UNC_COUNT : Fld := ⟨.pen, 0xb8, 1, 0x0, 1, 0x0, 31, 0, .ro, 0, false, false⟩

/-- The fields of page PEN. -/
def Reg.pagePen : List Fld :=
  [Reg.PEN_CAUSE_CMD_REJECT, Reg.PEN_CAUSE_LOCKED, Reg.PEN_CAUSE_AER_UNC, Reg.PEN_CAUSE_AER_COR,
   Reg.PEN_CAUSE_NARROW, Reg.PEN_CAUSE_FLR_EV, Reg.PEN_CAUSE_MSI_PEND, Reg.PEN_CAUSE_LINK_DOWN,
   Reg.PEN_CAUSE_LINK_UP, Reg.PEN_CAUSE_POISON, Reg.PEN_SUM_LO_SUM, Reg.PEN_SUM_HI_SUM] ++
  [Reg.PEN_EN_LO_EN, Reg.PEN_EN_HI_EN, Reg.PEN_CTL_MSI_MIRROR, Reg.PEN_CTL_INT_EN,
   Reg.PEN_ACT_LO_ACT, Reg.PEN_ACT_HI_ACT, Reg.PEN_PG_ATTN_ATTN, Reg.PEN_FB_ATTN_ATTN,
   Reg.PEN_MSI_CNT_COUNT, Reg.PEN_SMP_CAUSE_OVERRUN, Reg.PEN_SMP_CAUSE_FRAME_ERR, Reg.PEN_SMP_CAUSE_CRC_ERR] ++
  [Reg.PEN_SMP_EN_EN, Reg.PEN_LINK_BME, Reg.PEN_LINK_MSI_EN, Reg.PEN_LINK_UP,
   Reg.PEN_LINK_SPEED, Reg.PEN_LINK_WIDTH, Reg.PEN_AER_COR_COUNT, Reg.PEN_AER_UNC_COUNT]

/-! Page KPS0: R391. -/

def Reg.KPS0_CAUSE_CMD_REJECT : Fld := ⟨.kps0, 0x14, 1, 0x0, 1, 0x0, 31, 31, .rw1c, 0, false, false⟩
def Reg.KPS0_CAUSE_LOCKED : Fld := ⟨.kps0, 0x14, 1, 0x0, 1, 0x0, 30, 30, .rw1c, 0, false, false⟩
def Reg.KPS0_CAUSE_UNACK_FULL : Fld := ⟨.kps0, 0x14, 1, 0x0, 1, 0x0, 6, 6, .rw1c, 0, false, false⟩
def Reg.KPS0_CAUSE_MSG_LOST : Fld := ⟨.kps0, 0x14, 1, 0x0, 1, 0x0, 5, 5, .rw1c, 0, false, false⟩
def Reg.KPS0_CAUSE_SAFE_RB : Fld := ⟨.kps0, 0x14, 1, 0x0, 1, 0x0, 4, 4, .rw1c, 0, false, false⟩
def Reg.KPS0_CAUSE_DSAFE : Fld := ⟨.kps0, 0x14, 1, 0x0, 1, 0x0, 3, 3, .rw1c, 0, false, false⟩
def Reg.KPS0_CAUSE_PSAFE : Fld := ⟨.kps0, 0x14, 1, 0x0, 1, 0x0, 2, 2, .rw1c, 0, false, false⟩
def Reg.KPS0_CAUSE_ESCALATED : Fld := ⟨.kps0, 0x14, 1, 0x0, 1, 0x0, 1, 1, .rw1c, 0, false, false⟩
def Reg.KPS0_CAUSE_FAULT : Fld := ⟨.kps0, 0x14, 1, 0x0, 1, 0x0, 0, 0, .rw1c, 0, false, false⟩
def Reg.KPS_STAT_SEQ : Fld := ⟨.kps0, 0x40, 1, 0x0, 1, 0x0, 31, 16, .ro, 0, false, false⟩
def Reg.KPS_STAT_UNACK : Fld := ⟨.kps0, 0x40, 1, 0x0, 1, 0x0, 14, 8, .ro, 0, false, false⟩
def Reg.KPS_STAT_FULL_PEND : Fld := ⟨.kps0, 0x40, 1, 0x0, 1, 0x0, 4, 4, .ro, 0, false, false⟩
def Reg.KPS_STAT_DSAFE : Fld := ⟨.kps0, 0x40, 1, 0x0, 1, 0x0, 3, 3, .ro, 1, false, false⟩
def Reg.KPS_STAT_MAXSEV : Fld := ⟨.kps0, 0x40, 1, 0x0, 1, 0x0, 1, 0, .ro, 0, false, false⟩
def Reg.KPS_DSAFE_MSG_MSG : Fld := ⟨.kps0, 0x44, 1, 0x0, 1, 0x0, 31, 0, .ro, 0, false, false⟩
def Reg.KPS_PLATCH_LATCH : Fld := ⟨.kps0, 0x48, 3, 0x4, 1, 0x0, 31, 0, .ro, 0, false, false⟩
def Reg.KPS_MLATCH_LATCH : Fld := ⟨.kps0, 0x54, 1, 0x0, 1, 0x0, 7, 0, .ro, 255, false, false⟩
def Reg.KPS_MSG_CNT_COUNT : Fld := ⟨.kps0, 0x58, 1, 0x0, 1, 0x0, 31, 0, .ro, 0, false, false⟩
def Reg.KPS_ESC_CNT_COUNT : Fld := ⟨.kps0, 0x5c, 1, 0x0, 1, 0x0, 15, 0, .ro, 0, false, false⟩
def Reg.KPS_CFG_CRC_CRC : Fld := ⟨.kps0, 0x60, 1, 0x0, 1, 0x0, 31, 0, .ro, 0, false, false⟩
def Reg.KPS_SELFTEST_PASS : Fld := ⟨.kps0, 0x64, 1, 0x0, 1, 0x0, 31, 31, .ro, 0, false, false⟩
def Reg.KPS_SELFTEST_CODE : Fld := ⟨.kps0, 0x64, 1, 0x0, 1, 0x0, 7, 0, .ro, 0, false, false⟩

/-- The fields of page KPS0. -/
def Reg.pageKps0 : List Fld :=
  [Reg.KPS0_CAUSE_CMD_REJECT, Reg.KPS0_CAUSE_LOCKED, Reg.KPS0_CAUSE_UNACK_FULL, Reg.KPS0_CAUSE_MSG_LOST,
   Reg.KPS0_CAUSE_SAFE_RB, Reg.KPS0_CAUSE_DSAFE, Reg.KPS0_CAUSE_PSAFE, Reg.KPS0_CAUSE_ESCALATED,
   Reg.KPS0_CAUSE_FAULT, Reg.KPS_STAT_SEQ, Reg.KPS_STAT_UNACK, Reg.KPS_STAT_FULL_PEND] ++
  [Reg.KPS_STAT_DSAFE, Reg.KPS_STAT_MAXSEV, Reg.KPS_DSAFE_MSG_MSG, Reg.KPS_PLATCH_LATCH,
   Reg.KPS_MLATCH_LATCH, Reg.KPS_MSG_CNT_COUNT, Reg.KPS_ESC_CNT_COUNT, Reg.KPS_CFG_CRC_CRC,
   Reg.KPS_SELFTEST_PASS, Reg.KPS_SELFTEST_CODE]

/-! Page KPS2: R61, R66, R393. -/

def Reg.KPS_STB_RB_PWR : Fld := ⟨.kps2, 0x100, 96, 0x4, 1, 0x0, 19, 19, .ro, 0, false, false⟩
def Reg.KPS_STB_RB_STB : Fld := ⟨.kps2, 0x100, 96, 0x4, 1, 0x0, 18, 16, .ro, 0, false, false⟩
def Reg.KPS_STB_STB_MAX : Fld := ⟨.kps2, 0x100, 96, 0x4, 1, 0x0, 9, 0, .rwl, 512, false, false⟩
def Reg.KPS2_CAUSE_CMD_REJECT : Fld := ⟨.kps2, 0x14, 1, 0x0, 1, 0x0, 31, 31, .rw1c, 0, false, false⟩
def Reg.KPS2_CAUSE_LOCKED : Fld := ⟨.kps2, 0x14, 1, 0x0, 1, 0x0, 30, 30, .rw1c, 0, false, false⟩

/-- The fields of page KPS2. -/
def Reg.pageKps2 : List Fld :=
  [Reg.KPS_STB_RB_PWR, Reg.KPS_STB_RB_STB, Reg.KPS_STB_STB_MAX, Reg.KPS2_CAUSE_CMD_REJECT,
   Reg.KPS2_CAUSE_LOCKED]

/-! Page KPS3: R61, R66, R394. -/

def Reg.KPS_MGMT_WDOG_TIMEOUT : Fld := ⟨.kps3, 0x40, 1, 0x0, 1, 0x0, 15, 0, .rwl, 0, false, false⟩
def Reg.KPS_INJ_MSG_MSG : Fld := ⟨.kps3, 0x44, 1, 0x0, 1, 0x0, 31, 0, .wo, 0, false, false⟩
def Reg.KPS_INJ_HW_STB : Fld := ⟨.kps3, 0x48, 1, 0x0, 1, 0x0, 25, 24, .wo, 0, false, false⟩
def Reg.KPS_INJ_HW_PORT : Fld := ⟨.kps3, 0x48, 1, 0x0, 1, 0x0, 22, 16, .wo, 0, false, false⟩
def Reg.KPS_INJ_HW_ISLAND : Fld := ⟨.kps3, 0x48, 1, 0x0, 1, 0x0, 12, 8, .wo, 0, false, false⟩
def Reg.KPS_INJ_HW_TEST_RB : Fld := ⟨.kps3, 0x48, 1, 0x0, 1, 0x0, 2, 2, .wo, 0, false, false⟩
def Reg.KPS_INJ_HW_TEST_CLK : Fld := ⟨.kps3, 0x48, 1, 0x0, 1, 0x0, 1, 1, .wo, 0, false, false⟩
def Reg.KPS_INJ_HW_TEST_LS : Fld := ⟨.kps3, 0x48, 1, 0x0, 1, 0x0, 0, 0, .wo, 0, false, false⟩
def Reg.KPS_FTM_ACTIVE : Fld := ⟨.kps3, 0x4c, 1, 0x0, 1, 0x0, 0, 0, .ro, 0, false, false⟩
def Reg.KPS3_CAUSE_CMD_REJECT : Fld := ⟨.kps3, 0x14, 1, 0x0, 1, 0x0, 31, 31, .rw1c, 0, false, false⟩
def Reg.KPS3_CAUSE_LOCKED : Fld := ⟨.kps3, 0x14, 1, 0x0, 1, 0x0, 30, 30, .rw1c, 0, false, false⟩

/-- The fields of page KPS3. -/
def Reg.pageKps3 : List Fld :=
  [Reg.KPS_MGMT_WDOG_TIMEOUT, Reg.KPS_INJ_MSG_MSG, Reg.KPS_INJ_HW_STB, Reg.KPS_INJ_HW_PORT,
   Reg.KPS_INJ_HW_ISLAND, Reg.KPS_INJ_HW_TEST_RB, Reg.KPS_INJ_HW_TEST_CLK, Reg.KPS_INJ_HW_TEST_LS,
   Reg.KPS_FTM_ACTIVE, Reg.KPS3_CAUSE_CMD_REJECT, Reg.KPS3_CAUSE_LOCKED]

/-! Page THM: R421. -/

def Reg.THM_CAUSE_CMD_REJECT : Fld := ⟨.thm, 0x14, 1, 0x0, 1, 0x0, 31, 31, .rw1c, 0, false, false⟩
def Reg.THM_CAUSE_LOCKED : Fld := ⟨.thm, 0x14, 1, 0x0, 1, 0x0, 30, 30, .rw1c, 0, false, false⟩
def Reg.THM_CAUSE_FALLBACK : Fld := ⟨.thm, 0x14, 1, 0x0, 1, 0x0, 7, 7, .rw1c, 0, false, false⟩
def Reg.THM_CAUSE_RESTARTED : Fld := ⟨.thm, 0x14, 1, 0x0, 1, 0x0, 6, 6, .rw1c, 0, false, false⟩
def Reg.THM_CAUSE_FLASH_SUSP : Fld := ⟨.thm, 0x14, 1, 0x0, 1, 0x0, 5, 5, .rw1c, 0, false, false⟩
def Reg.THM_CAUSE_PINNED : Fld := ⟨.thm, 0x14, 1, 0x0, 1, 0x0, 4, 4, .rw1c, 0, false, false⟩
def Reg.THM_CAUSE_NBR_LOW : Fld := ⟨.thm, 0x14, 1, 0x0, 1, 0x0, 3, 3, .rw1c, 0, false, false⟩
def Reg.THM_CAUSE_SENSOR_FAIL : Fld := ⟨.thm, 0x14, 1, 0x0, 1, 0x0, 2, 2, .rw1c, 0, false, false⟩
def Reg.THM_CAUSE_LEVEL_DOWN : Fld := ⟨.thm, 0x14, 1, 0x0, 1, 0x0, 1, 1, .rw1c, 0, false, false⟩
def Reg.THM_CAUSE_LEVEL_UP : Fld := ⟨.thm, 0x14, 1, 0x0, 1, 0x0, 0, 0, .rw1c, 0, false, false⟩
def Reg.THM_T12_T2 : Fld := ⟨.thm, 0x40, 1, 0x0, 1, 0x0, 31, 16, .rwl, 1600, false, false⟩
def Reg.THM_T12_T1 : Fld := ⟨.thm, 0x40, 1, 0x0, 1, 0x0, 15, 0, .rwl, 1520, false, false⟩
def Reg.THM_T3_T3 : Fld := ⟨.thm, 0x44, 1, 0x0, 1, 0x0, 15, 0, .rwl, 1648, false, false⟩
def Reg.THM_HYST_HOLD : Fld := ⟨.thm, 0x48, 1, 0x0, 1, 0x0, 23, 8, .rw, 10, false, false⟩
def Reg.THM_HYST_HYST : Fld := ⟨.thm, 0x48, 1, 0x0, 1, 0x0, 7, 0, .rw, 48, false, false⟩
def Reg.THM_STAT_TCTL : Fld := ⟨.thm, 0x4c, 1, 0x0, 1, 0x0, 31, 16, .ro, 0, false, false⟩
def Reg.THM_STAT_HOTTEST : Fld := ⟨.thm, 0x4c, 1, 0x0, 1, 0x0, 13, 8, .ro, 0, false, false⟩
def Reg.THM_STAT_PINNED : Fld := ⟨.thm, 0x4c, 1, 0x0, 1, 0x0, 7, 7, .ro, 0, false, false⟩
def Reg.THM_STAT_FLOOR : Fld := ⟨.thm, 0x4c, 1, 0x0, 1, 0x0, 5, 4, .ro, 0, false, false⟩
def Reg.THM_STAT_LEVEL : Fld := ⟨.thm, 0x4c, 1, 0x0, 1, 0x0, 1, 0, .ro, 0, false, false⟩
def Reg.THM_SFAIL_LO_FAIL : Fld := ⟨.thm, 0x50, 1, 0x0, 1, 0x0, 31, 0, .ro, 0, false, false⟩
def Reg.THM_SFAIL_HI_FAIL : Fld := ⟨.thm, 0x54, 1, 0x0, 1, 0x0, 31, 0, .ro, 0, false, false⟩
def Reg.THM_SHUT_RECENT : Fld := ⟨.thm, 0x58, 1, 0x0, 1, 0x0, 31, 24, .ro, 0, false, false⟩
def Reg.THM_SHUT_OFF_LATCHED : Fld := ⟨.thm, 0x58, 1, 0x0, 1, 0x0, 23, 23, .ro, 0, false, false⟩
def Reg.THM_SHUT_ACTIVE : Fld := ⟨.thm, 0x58, 1, 0x0, 1, 0x0, 22, 22, .ro, 0, false, false⟩
def Reg.THM_SHUT_SENSOR : Fld := ⟨.thm, 0x58, 1, 0x0, 1, 0x0, 21, 16, .ro, 0, false, false⟩
def Reg.THM_SHUT_COUNT : Fld := ⟨.thm, 0x58, 1, 0x0, 1, 0x0, 15, 0, .ro, 0, false, false⟩
def Reg.THM_NBR_N : Fld := ⟨.thm, 0x180, 64, 0x4, 1, 0x0, 26, 24, .ro, 0, false, false⟩
def Reg.THM_NBR_NB3 : Fld := ⟨.thm, 0x180, 64, 0x4, 1, 0x0, 23, 18, .ro, 0, false, false⟩
def Reg.THM_NBR_NB2 : Fld := ⟨.thm, 0x180, 64, 0x4, 1, 0x0, 17, 12, .ro, 0, false, false⟩
def Reg.THM_NBR_NB1 : Fld := ⟨.thm, 0x180, 64, 0x4, 1, 0x0, 11, 6, .ro, 0, false, false⟩
def Reg.THM_NBR_NB0 : Fld := ⟨.thm, 0x180, 64, 0x4, 1, 0x0, 5, 0, .ro, 0, false, false⟩
def Reg.THM_TEMP_ODD : Fld := ⟨.thm, 0x100, 32, 0x4, 1, 0x0, 31, 16, .ro, 0, false, false⟩
def Reg.THM_TEMP_EVEN : Fld := ⟨.thm, 0x100, 32, 0x4, 1, 0x0, 15, 0, .ro, 0, false, false⟩

/-- The fields of page THM. -/
def Reg.pageThm : List Fld :=
  [Reg.THM_CAUSE_CMD_REJECT, Reg.THM_CAUSE_LOCKED, Reg.THM_CAUSE_FALLBACK, Reg.THM_CAUSE_RESTARTED,
   Reg.THM_CAUSE_FLASH_SUSP, Reg.THM_CAUSE_PINNED, Reg.THM_CAUSE_NBR_LOW, Reg.THM_CAUSE_SENSOR_FAIL,
   Reg.THM_CAUSE_LEVEL_DOWN, Reg.THM_CAUSE_LEVEL_UP, Reg.THM_T12_T2, Reg.THM_T12_T1] ++
  [Reg.THM_T3_T3, Reg.THM_HYST_HOLD, Reg.THM_HYST_HYST, Reg.THM_STAT_TCTL,
   Reg.THM_STAT_HOTTEST, Reg.THM_STAT_PINNED, Reg.THM_STAT_FLOOR, Reg.THM_STAT_LEVEL,
   Reg.THM_SFAIL_LO_FAIL, Reg.THM_SFAIL_HI_FAIL, Reg.THM_SHUT_RECENT, Reg.THM_SHUT_OFF_LATCHED] ++
  [Reg.THM_SHUT_ACTIVE, Reg.THM_SHUT_SENSOR, Reg.THM_SHUT_COUNT, Reg.THM_NBR_N,
   Reg.THM_NBR_NB3, Reg.THM_NBR_NB2, Reg.THM_NBR_NB1, Reg.THM_NBR_NB0,
   Reg.THM_TEMP_ODD, Reg.THM_TEMP_EVEN]

/-! Page CAL: R422. -/

def Reg.CAL_CAUSE_CMD_REJECT : Fld := ⟨.cal, 0x14, 1, 0x0, 1, 0x0, 31, 31, .rw1c, 0, false, false⟩
def Reg.CAL_CAUSE_LOCKED : Fld := ⟨.cal, 0x14, 1, 0x0, 1, 0x0, 30, 30, .rw1c, 0, false, false⟩
def Reg.CAL_CAUSE_CFG_WR : Fld := ⟨.cal, 0x14, 1, 0x0, 1, 0x0, 5, 5, .rw1c, 0, false, false⟩
def Reg.CAL_CAUSE_TAKEOVER : Fld := ⟨.cal, 0x14, 1, 0x0, 1, 0x0, 4, 4, .rw1c, 0, false, false⟩
def Reg.CAL_CAUSE_CAL_SKIPPED : Fld := ⟨.cal, 0x14, 1, 0x0, 1, 0x0, 3, 3, .rw1c, 0, false, false⟩
def Reg.CAL_CAUSE_CAL_DEFER : Fld := ⟨.cal, 0x14, 1, 0x0, 1, 0x0, 2, 2, .rw1c, 0, false, false⟩
def Reg.CAL_CAUSE_CAL_REJECT : Fld := ⟨.cal, 0x14, 1, 0x0, 1, 0x0, 1, 1, .rw1c, 0, false, false⟩
def Reg.CAL_CAUSE_CAL_DONE : Fld := ⟨.cal, 0x14, 1, 0x0, 1, 0x0, 0, 0, .rw1c, 0, false, false⟩
def Reg.CAL_CFG_AUTO_EN : Fld := ⟨.cal, 0x40, 1, 0x0, 1, 0x0, 31, 31, .rwl, 1, false, false⟩
def Reg.CAL_CFG_DEFER_MAX : Fld := ⟨.cal, 0x40, 1, 0x0, 1, 0x0, 23, 16, .rw, 8, false, false⟩
def Reg.CAL_CFG_DT : Fld := ⟨.cal, 0x40, 1, 0x0, 1, 0x0, 15, 0, .rw, 64, false, false⟩
def Reg.CAL_TOL_TOL_T : Fld := ⟨.cal, 0x44, 1, 0x0, 1, 0x0, 31, 16, .rw, 6, false, false⟩
def Reg.CAL_TOL_TOL_A : Fld := ⟨.cal, 0x44, 1, 0x0, 1, 0x0, 15, 0, .rw, 2, false, false⟩
def Reg.CAL_RUNS_COUNT : Fld := ⟨.cal, 0x48, 1, 0x0, 1, 0x0, 31, 0, .ro, 0, false, false⟩
def Reg.CAL_REJECTS_COUNT : Fld := ⟨.cal, 0x4c, 1, 0x0, 1, 0x0, 31, 0, .ro, 0, false, false⟩
def Reg.CAL_SKIPS_COUNT : Fld := ⟨.cal, 0x50, 1, 0x0, 1, 0x0, 31, 0, .ro, 0, false, false⟩
def Reg.CAL_RES0_STB_A : Fld := ⟨.cal, 0x100, 8, 0x1c0, 26, 0x10, 23, 0, .rws, 0, false, false⟩
def Reg.CAL_RES0_ADC : Fld := ⟨.cal, 0x100, 8, 0x1c0, 26, 0x10, 31, 0, .rws, 0, false, false⟩
def Reg.CAL_RES1_STB_B : Fld := ⟨.cal, 0x104, 8, 0x1c0, 26, 0x10, 23, 0, .rws, 0, false, false⟩
def Reg.CAL_RES2_STB_C : Fld := ⟨.cal, 0x108, 8, 0x1c0, 26, 0x10, 23, 0, .rws, 0, false, false⟩
def Reg.CAL_CSTAT_TREF : Fld := ⟨.cal, 0x10c, 8, 0x1c0, 26, 0x10, 31, 16, .rws, 400, false, false⟩
def Reg.CAL_CSTAT_PHASE : Fld := ⟨.cal, 0x10c, 8, 0x1c0, 26, 0x10, 14, 12, .ro, 0, false, false⟩
def Reg.CAL_CSTAT_LAST : Fld := ⟨.cal, 0x10c, 8, 0x1c0, 26, 0x10, 11, 8, .ro, 0, false, false⟩
def Reg.CAL_CSTAT_DEFERS : Fld := ⟨.cal, 0x10c, 8, 0x1c0, 26, 0x10, 7, 0, .ro, 0, false, false⟩

/-- The fields of page CAL. -/
def Reg.pageCal : List Fld :=
  [Reg.CAL_CAUSE_CMD_REJECT, Reg.CAL_CAUSE_LOCKED, Reg.CAL_CAUSE_CFG_WR, Reg.CAL_CAUSE_TAKEOVER,
   Reg.CAL_CAUSE_CAL_SKIPPED, Reg.CAL_CAUSE_CAL_DEFER, Reg.CAL_CAUSE_CAL_REJECT, Reg.CAL_CAUSE_CAL_DONE,
   Reg.CAL_CFG_AUTO_EN, Reg.CAL_CFG_DEFER_MAX, Reg.CAL_CFG_DT, Reg.CAL_TOL_TOL_T] ++
  [Reg.CAL_TOL_TOL_A, Reg.CAL_RUNS_COUNT, Reg.CAL_REJECTS_COUNT, Reg.CAL_SKIPS_COUNT,
   Reg.CAL_RES0_STB_A, Reg.CAL_RES0_ADC, Reg.CAL_RES1_STB_B, Reg.CAL_RES2_STB_C,
   Reg.CAL_CSTAT_TREF, Reg.CAL_CSTAT_PHASE, Reg.CAL_CSTAT_LAST, Reg.CAL_CSTAT_DEFERS]

/-! Page UPD: R443. -/

def Reg.UPD_CAUSE_CMD_REJECT : Fld := ⟨.upd, 0x14, 1, 0x0, 1, 0x0, 31, 31, .rw1c, 0, false, false⟩
def Reg.UPD_CAUSE_LOCKED : Fld := ⟨.upd, 0x14, 1, 0x0, 1, 0x0, 30, 30, .rw1c, 0, false, false⟩
def Reg.UPD_CAUSE_CONVERT_FAIL : Fld := ⟨.upd, 0x14, 1, 0x0, 1, 0x0, 6, 6, .rw1c, 0, false, false⟩
def Reg.UPD_CAUSE_REVERTED : Fld := ⟨.upd, 0x14, 1, 0x0, 1, 0x0, 5, 5, .rw1c, 0, false, false⟩
def Reg.UPD_CAUSE_FALLBACK : Fld := ⟨.upd, 0x14, 1, 0x0, 1, 0x0, 4, 4, .rw1c, 0, false, false⟩
def Reg.UPD_CAUSE_ACT_FAIL : Fld := ⟨.upd, 0x14, 1, 0x0, 1, 0x0, 3, 3, .rw1c, 0, false, false⟩
def Reg.UPD_CAUSE_CLAIM_BUSY : Fld := ⟨.upd, 0x14, 1, 0x0, 1, 0x0, 2, 2, .rw1c, 0, false, false⟩
def Reg.UPD_CAUSE_FAIL : Fld := ⟨.upd, 0x14, 1, 0x0, 1, 0x0, 1, 1, .rw1c, 0, false, false⟩
def Reg.UPD_CAUSE_DONE : Fld := ⟨.upd, 0x14, 1, 0x0, 1, 0x0, 0, 0, .rw1c, 0, false, false⟩
def Reg.UPD_CLAIM_RESULT : Fld := ⟨.upd, 0x40, 1, 0x0, 1, 0x0, 30, 28, .ro, 0, false, false⟩
def Reg.UPD_CLAIM_HELD : Fld := ⟨.upd, 0x40, 1, 0x0, 1, 0x0, 18, 18, .ro, 0, false, false⟩
def Reg.UPD_CLAIM_OWNER : Fld := ⟨.upd, 0x40, 1, 0x0, 1, 0x0, 17, 16, .ro, 0, false, false⟩
def Reg.UPD_CLAIM_TOKEN : Fld := ⟨.upd, 0x40, 1, 0x0, 1, 0x0, 15, 0, .rw, 0, false, false⟩
def Reg.UPD_SESSION_CLASS : Fld := ⟨.upd, 0x44, 1, 0x0, 1, 0x0, 26, 24, .ro, 0, false, false⟩
def Reg.UPD_SESSION_WRITTEN : Fld := ⟨.upd, 0x44, 1, 0x0, 1, 0x0, 23, 0, .ro, 0, false, false⟩
def Reg.UPD_RESULT_CODE : Fld := ⟨.upd, 0x48, 1, 0x0, 1, 0x0, 3, 0, .ro, 0, false, false⟩
def Reg.UPD_BOOT_SF_TRIES : Fld := ⟨.upd, 0x4c, 1, 0x0, 1, 0x0, 23, 20, .ro, 0, false, false⟩
def Reg.UPD_BOOT_SF_PEND : Fld := ⟨.upd, 0x4c, 1, 0x0, 1, 0x0, 19, 18, .ro, 0, false, false⟩
def Reg.UPD_BOOT_SF_RUN : Fld := ⟨.upd, 0x4c, 1, 0x0, 1, 0x0, 17, 16, .ro, 0, false, false⟩
def Reg.UPD_BOOT_MG_TRIES : Fld := ⟨.upd, 0x4c, 1, 0x0, 1, 0x0, 15, 12, .ro, 0, false, false⟩
def Reg.UPD_BOOT_MG_PEND : Fld := ⟨.upd, 0x4c, 1, 0x0, 1, 0x0, 11, 10, .ro, 0, false, false⟩
def Reg.UPD_BOOT_MG_RUN : Fld := ⟨.upd, 0x4c, 1, 0x0, 1, 0x0, 9, 8, .ro, 0, false, false⟩
def Reg.UPD_BOOT_FALLBACK : Fld := ⟨.upd, 0x4c, 1, 0x0, 1, 0x0, 2, 2, .ro, 0, false, false⟩
def Reg.UPD_BOOT_SF_REVERTED : Fld := ⟨.upd, 0x4c, 1, 0x0, 1, 0x0, 1, 1, .ro, 0, false, false⟩
def Reg.UPD_BOOT_MG_REVERTED : Fld := ⟨.upd, 0x4c, 1, 0x0, 1, 0x0, 0, 0, .ro, 0, false, false⟩
def Reg.UPD_BOOT_TRIES_TRIES : Fld := ⟨.upd, 0x50, 1, 0x0, 1, 0x0, 3, 0, .rwl, 3, false, false⟩
def Reg.UPD_RCP_STAGING : Fld := ⟨.upd, 0x54, 1, 0x0, 1, 0x0, 6, 6, .ro, 0, false, false⟩
def Reg.UPD_RCP_PEND : Fld := ⟨.upd, 0x54, 1, 0x0, 1, 0x0, 5, 5, .ro, 0, false, false⟩
def Reg.UPD_RCP_PBANK : Fld := ⟨.upd, 0x54, 1, 0x0, 1, 0x0, 4, 4, .ro, 0, false, false⟩
def Reg.UPD_RCP_ACTIVE : Fld := ⟨.upd, 0x54, 1, 0x0, 1, 0x0, 3, 3, .ro, 0, false, false⟩
def Reg.UPD_RCP_VALID : Fld := ⟨.upd, 0x54, 1, 0x0, 1, 0x0, 1, 0, .ro, 0, false, false⟩
def Reg.UPD_SFMT_RETAINED : Fld := ⟨.upd, 0x58, 1, 0x0, 1, 0x0, 31, 16, .ro, 0, false, false⟩
def Reg.UPD_SFMT_RUN : Fld := ⟨.upd, 0x58, 1, 0x0, 1, 0x0, 15, 0, .ro, 0, false, false⟩
def Reg.UPD_CLAIM_TO_TIMEOUT : Fld := ⟨.upd, 0x5c, 1, 0x0, 1, 0x0, 15, 0, .rw, 10000, false, false⟩
def Reg.UPD_STAGE_BASE_BASE : Fld := ⟨.upd, 0x60, 1, 0x0, 1, 0x0, 20, 0, .rwl, 0, false, false⟩
def Reg.UPD_VER_VERSION : Fld := ⟨.upd, 0x64, 6, 0x4, 1, 0x0, 31, 0, .ro, 0, false, false⟩
def Reg.UPD_PARAM_PEND_PEND : Fld := ⟨.upd, 0x80, 3, 0x4, 1, 0x0, 31, 0, .ro, 0, false, false⟩
def Reg.UPD_DATA_DATA : Fld := ⟨.upd, 0x800, 512, 0x4, 1, 0x0, 31, 0, .wo, 0, false, false⟩

/-- The fields of page UPD. -/
def Reg.pageUpd : List Fld :=
  [Reg.UPD_CAUSE_CMD_REJECT, Reg.UPD_CAUSE_LOCKED, Reg.UPD_CAUSE_CONVERT_FAIL, Reg.UPD_CAUSE_REVERTED,
   Reg.UPD_CAUSE_FALLBACK, Reg.UPD_CAUSE_ACT_FAIL, Reg.UPD_CAUSE_CLAIM_BUSY, Reg.UPD_CAUSE_FAIL,
   Reg.UPD_CAUSE_DONE, Reg.UPD_CLAIM_RESULT, Reg.UPD_CLAIM_HELD, Reg.UPD_CLAIM_OWNER] ++
  [Reg.UPD_CLAIM_TOKEN, Reg.UPD_SESSION_CLASS, Reg.UPD_SESSION_WRITTEN, Reg.UPD_RESULT_CODE,
   Reg.UPD_BOOT_SF_TRIES, Reg.UPD_BOOT_SF_PEND, Reg.UPD_BOOT_SF_RUN, Reg.UPD_BOOT_MG_TRIES,
   Reg.UPD_BOOT_MG_PEND, Reg.UPD_BOOT_MG_RUN, Reg.UPD_BOOT_FALLBACK, Reg.UPD_BOOT_SF_REVERTED] ++
  [Reg.UPD_BOOT_MG_REVERTED, Reg.UPD_BOOT_TRIES_TRIES, Reg.UPD_RCP_STAGING, Reg.UPD_RCP_PEND,
   Reg.UPD_RCP_PBANK, Reg.UPD_RCP_ACTIVE, Reg.UPD_RCP_VALID, Reg.UPD_SFMT_RETAINED,
   Reg.UPD_SFMT_RUN, Reg.UPD_CLAIM_TO_TIMEOUT, Reg.UPD_STAGE_BASE_BASE, Reg.UPD_VER_VERSION] ++
  [Reg.UPD_PARAM_PEND_PEND, Reg.UPD_DATA_DATA]

/-! Page CLK: R458. -/

def Reg.CLK_CAUSE_CMD_REJECT : Fld := ⟨.clk, 0x14, 1, 0x0, 1, 0x0, 31, 31, .rw1c, 0, false, false⟩
def Reg.CLK_CAUSE_LOCKED : Fld := ⟨.clk, 0x14, 1, 0x0, 1, 0x0, 30, 30, .rw1c, 0, false, false⟩
def Reg.CLK_CAUSE_BOOT_DONE : Fld := ⟨.clk, 0x14, 1, 0x0, 1, 0x0, 1, 1, .rw1c, 0, false, false⟩
def Reg.CLK_CAUSE_RESET : Fld := ⟨.clk, 0x14, 1, 0x0, 1, 0x0, 0, 0, .rw1c, 0, false, false⟩
def Reg.CLK_RST_CAUSE_MASTER : Fld := ⟨.clk, 0x40, 1, 0x0, 1, 0x0, 17, 16, .ro, 0, false, false⟩
def Reg.CLK_RST_CAUSE_LAST : Fld := ⟨.clk, 0x40, 1, 0x0, 1, 0x0, 3, 0, .ro, 1, false, false⟩
def Reg.CLK_RST_CNT_DEV : Fld := ⟨.clk, 0x44, 1, 0x0, 1, 0x0, 31, 16, .ro, 0, false, false⟩
def Reg.CLK_RST_CNT_MGMT : Fld := ⟨.clk, 0x44, 1, 0x0, 1, 0x0, 15, 0, .ro, 0, false, false⟩
def Reg.CLK_ISL_ON_ON : Fld := ⟨.clk, 0x48, 1, 0x0, 1, 0x0, 29, 0, .ro, 0, false, false⟩
def Reg.CLK_LOCK_LOCK : Fld := ⟨.clk, 0x4c, 1, 0x0, 1, 0x0, 29, 0, .ro, 0, false, false⟩
def Reg.CLK_BOOT_T_KPS : Fld := ⟨.clk, 0x50, 1, 0x0, 1, 0x0, 31, 16, .ro, 0, false, false⟩
def Reg.CLK_BOOT_T_BOOT : Fld := ⟨.clk, 0x50, 1, 0x0, 1, 0x0, 15, 0, .ro, 0, false, false⟩

/-- The fields of page CLK. -/
def Reg.pageClk : List Fld :=
  [Reg.CLK_CAUSE_CMD_REJECT, Reg.CLK_CAUSE_LOCKED, Reg.CLK_CAUSE_BOOT_DONE, Reg.CLK_CAUSE_RESET,
   Reg.CLK_RST_CAUSE_MASTER, Reg.CLK_RST_CAUSE_LAST, Reg.CLK_RST_CNT_DEV, Reg.CLK_RST_CNT_MGMT,
   Reg.CLK_ISL_ON_ON, Reg.CLK_LOCK_LOCK, Reg.CLK_BOOT_T_KPS, Reg.CLK_BOOT_T_BOOT]

/-! Page KPS1: R61. -/

def Reg.KPS1_CAUSE_CMD_REJECT : Fld := ⟨.kps1, 0x14, 1, 0x0, 1, 0x0, 31, 31, .rw1c, 0, false, false⟩

/-- The fields of page KPS1. -/
def Reg.pageKps1 : List Fld :=
  [Reg.KPS1_CAUSE_CMD_REJECT]

/-! Page HAL2: R61. -/

def Reg.HAL2_CAUSE_CMD_REJECT : Fld := ⟨.hal2, 0x14, 1, 0x0, 1, 0x0, 31, 31, .rw1c, 0, false, false⟩

/-- The fields of page HAL2. -/
def Reg.pageHal2 : List Fld :=
  [Reg.HAL2_CAUSE_CMD_REJECT]

/-! Page HAL3: R61. -/

def Reg.HAL3_CAUSE_CMD_REJECT : Fld := ⟨.hal3, 0x14, 1, 0x0, 1, 0x0, 31, 31, .rw1c, 0, false, false⟩

/-- The fields of page HAL3. -/
def Reg.pageHal3 : List Fld :=
  [Reg.HAL3_CAUSE_CMD_REJECT]

end Sys2Proof.Machine

namespace Sys2Proof

open Machine

/-- The fields of a page. -/
def Page.fields : Page → List Fld
  | .dev => Reg.pageDev
  | .pen => Reg.pagePen
  | .kps0 => Reg.pageKps0
  | .kps1 => Reg.pageKps1
  | .kps2 => Reg.pageKps2
  | .kps3 => Reg.pageKps3
  | .thm => Reg.pageThm
  | .cal => Reg.pageCal
  | .upd => Reg.pageUpd
  | .clk => Reg.pageClk
  | .seq => Reg.pageSeq
  | .mem => Reg.pageMem
  | .hal0 => Reg.pageHal0
  | .hal1 => Reg.pageHal1
  | .hal2 => Reg.pageHal2
  | .hal3 => Reg.pageHal3
  | .eth => Reg.pageEth
  | .lnk0 => Reg.pageLnk0
  | .lnk1 => Reg.pageLnk1
  | .jst0 => Reg.pageJst0
  | .jst1 => Reg.pageJst1
  | .bnd0 => Reg.pageBnd0
  | .bnd1 => Reg.pageBnd1
  | .scr => Reg.pageScr
  | .ft => Reg.pageFt
  | .en => Reg.pageEn
  | .hl => Reg.pageHl
  | .lk => Reg.pageLk
  | .fbk => Reg.pageFbk
  | .ax0 => Reg.pageAx0
  | .ax1 => Reg.pageAx1
  | .mgp => Reg.pageMgp

end Sys2Proof
end

