-- ==== Sys2Proof/Machine/Sparse.lean ====
section
/-! DEFINITION. Sparse canonical maps: a list of (key, value) pairs, keys strictly rising, no value equal to what an
unlisted key reads as. Every table, register file and memory of the state is one. -/

namespace Sys2Proof.Machine

/-- A sparse map from natural-number keys. What an unlisted key reads as is given by the reader. -/
abbrev Sparse (α : Type) := List (Nat × α)

/-- The value at key k; `d` says what an unlisted key reads as. -/
def Sparse.get {α : Type} (d : Nat → α) : Sparse α → Nat → α
  | [], k => d k
  | (j, v) :: r, k => if j = k then v else Sparse.get d r k

/-- Put the pair (k, v) at its place, in place of a pair of that key. -/
def Sparse.insert {α : Type} : Sparse α → Nat → α → Sparse α
  | [], k, v => [(k, v)]
  | (j, w) :: r, k, v =>
    if j < k then (j, w) :: Sparse.insert r k v
    else if j = k then (k, v) :: r
    else (k, v) :: (j, w) :: r

/-- Take out every pair of key k. -/
def Sparse.drop {α : Type} (m : Sparse α) (k : Nat) : Sparse α := m.filter fun e => !(e.1 == k)

/-- Write v at key k, keeping the canonical form: the value that an unlisted key reads as is not listed. -/
def Sparse.put {α : Type} [DecidableEq α] (d : Nat → α) (m : Sparse α) (k : Nat) (v : α) : Sparse α :=
  if v = d k then Sparse.drop m k else Sparse.insert m k v

/-- Keys strictly rising, all of them above the bound when one is given. -/
def Sparse.rising {α : Type} : Option Nat → Sparse α → Bool
  | _, [] => true
  | none, (j, _) :: r => Sparse.rising (some j) r
  | some b, (j, _) :: r => decide (b < j) && Sparse.rising (some j) r

/-- The canonical form. -/
def Sparse.wf {α : Type} [DecidableEq α] (d : Nat → α) (m : Sparse α) : Bool :=
  Sparse.rising none m && m.all (fun e => decide (e.2 ≠ d e.1))

/-- Write the values of a list at consecutive keys from k. -/
def Sparse.putList {α : Type} [DecidableEq α] (d : Nat → α) (m : Sparse α) (k : Nat) : List α → Sparse α
  | [] => m
  | v :: vs => Sparse.putList d (Sparse.put d m k v) (k + 1) vs

/-- The n values at consecutive keys from k. -/
def Sparse.getList {α : Type} (d : Nat → α) (m : Sparse α) (k : Nat) : Nat → List α
  | 0 => []
  | n + 1 => Sparse.get d m k :: Sparse.getList d m (k + 1) n

end Sys2Proof.Machine
end

