-- ==== Sys2Proof/Machine/State.lean ====
section
/-! DEFINITION. The state of the UL-9600 as plain data, its faults and refusals, and the state after reset.
Registers live in `regs` (and `active` for shadowed and group registers), one word per native BAR0 address; a word
that is not listed reads as its Reset value (Machine/Regs.lean). Everything the spec gives the machine beside its
registers stands in the records below. Instants are ps. -/

namespace Sys2Proof.Machine

/-- The model raises no fault: every row of the table has an effect that the spec gives (safe). -/
inductive Fault : Type
  deriving DecidableEq, Repr

/-- Refusals of the model. -/
inductive Refusal where
  /-- Raised by Machine/Dispatch.lean for a row that has no meaning yet (safe). -/
  | notModelled (mnemonic : String)
  deriving DecidableEq, Repr

/-- R48: port states, in the encoding of STATE. -/
inductive PortState where
  | off | service | standby | ready | printing | hotHold | safe
  deriving DecidableEq, Repr

/-- R37, R47: sequencer states, in the encoding of DEV_STATE. -/
inductive SeqState where
  | idle | armed | printing | draining | boundary
  deriving DecidableEq, Repr

/-- R173: link states. -/
inductive LinkState where
  | down | idle | ident | config | run
  deriving DecidableEq, Repr

/-- R456: a deferred SVC_ENTER. -/
inductive SvcPend where
  | none | boundary | afterLine
  deriving DecidableEq, Repr

/-- R225: the causes of a lost line, in the bit order of PL_LOST_CAUSE. -/
inductive LostCause where
  | underrun | boundary | rate | link | passed | stopped
  deriving DecidableEq, Repr

/-- R96: ring states, in the encoding of RSTATE. -/
inductive RingState where
  | unconfigured | run | halted | resync
  deriving DecidableEq, Repr

/-- R110: states of the LPDDR5X controller. -/
inductive MemState where
  | off | training | ready | selfRefresh | fault
  deriving DecidableEq, Repr

/-- R205: feedback channel states. -/
inductive FbState where
  | off | service | run | fault
  deriving DecidableEq, Repr

/-- R240: health scan states. -/
inductive ScanState where
  | stopped | waiting | stepping
  deriving DecidableEq, Repr

/-- R256: axis states, in the encoding of STATE. -/
inductive AxState where
  | off | service | disabled | standstill | moving | homing | stopping | fault
  deriving DecidableEq, Repr

/-- R289: Joist channel states, in the encoding of CST. -/
inductive ChState where
  | idle | pending | running | halted
  deriving DecidableEq, Repr

/-- R324: servo states. -/
inductive ServoState where
  | free | locking | locked | holdover
  deriving DecidableEq, Repr

/-- R333: Bexgar link states. -/
inductive BxState where
  | down | hello | up
  deriving DecidableEq, Repr

/-- R336: Ethernet port states. -/
inductive EthState where
  | disabled | training | up | partialUp
  deriving DecidableEq, Repr

/-- R391: Kingpost states. -/
inductive KpsState where
  | selftest | hold | run | latched
  deriving DecidableEq, Repr

/-- R428: update slot states. -/
inductive UpdState where
  | free | claimed | erasing | opened | verifying
  deriving DecidableEq, Repr

/-- R77: DEV_OP. -/
inductive DevOp where
  | boot | run | limited
  deriving DecidableEq, Repr

/-- R414: phases of a calibration channel, in the encoding of CSTAT.PHASE. -/
inductive CalPhase where
  | idle | pending | p1 | p2 | p3 | p4
  deriving DecidableEq, Repr

/-- R386: progress of the factory test mode unlock. -/
inductive FtmState where
  | none | loaded (t : Time) | active | blocked
  deriving DecidableEq, Repr

/-- R471: the current instruction of the test access port. -/
inductive TapInstr where
  | extest | idcode | samplePreload | clamp | highz | ftmUnlock | ftmConfirm | bypass
  deriving DecidableEq, Repr

/-- R35: the stores whose words carry SECDED. -/
inductive Store where
  | band | spool | mask | lineBuf | errState | nat | width | thresh | hist | desc | natShadow | widthShadow | pvt | ramp
  deriving DecidableEq, Repr

/-- R93: the fields of a band header. -/
structure Hdr where
  format : Nat
  page : Nat
  first : Nat
  lines : Nat
  pageLines : Nat
  gap : Nat
  last : Bool
  port : Nat
  seqNo : Nat
  rowBytes : Nat
  word8 : Nat
  deriving DecidableEq, Repr

/-- A page whose first header the reader has accepted: that header's values, its start S (R212), and how many of its
lines had passed their row-fetch instant when it was accepted (R99). -/
structure PageInfo where
  page : Nat
  format : Nat
  pageLines : Nat
  gap : Nat
  word8 : Nat
  blank : Bool
  start : Int
  lateN : Nat
  /-- R98: a RESYNC accepted a later page: the lines of this one that have not fired are lost -/
  cut : Bool
  deriving DecidableEq, Repr

/-- A band whose header the reader has passed and whose rows are not all released (R94, R102). `pos` is the position of
its header, counted in bytes since RING_RESET. -/
structure Band where
  page : Nat
  first : Nat
  lines : Nat
  last : Bool
  format : Nat
  rowBytes : Nat
  pos : Nat
  released : Nat
  hdrReleased : Bool
  discard : Bool
  deriving DecidableEq, Repr

/-- R212: the latest page met, its start and its lengths. -/
structure Met where
  page : Nat
  start : Int
  pageLines : Nat
  gap : Nat
  deriving DecidableEq, Repr

/-- R86 to R102: a port's ring in the Band Store. Positions count bytes since RING_RESET: a pointer of R88 is its
position modulo the ring size, its WRAP the parity of the quotient. -/
structure Ring where
  st : RingState
  base : Nat
  size : Nat
  cols : Nat
  spoolOnly : Bool
  wpos : Nat
  rpos : Nat
  hpos : Nat
  /-- R95 check 7: the current page of the reader with its first header's values, and whether its LAST band is still
  awaited -/
  curInfo : Option PageInfo
  pageOpen : Bool
  nextLine : Nat
  expSeq : Option Nat
  /-- accepted pages that the port has not begun, oldest first -/
  pages : List PageInfo
  bands : List Band
  requesting : Bool
  hdrCode : Nat
  /-- R212 -/
  met : Option Met
  sLost : Bool
  /-- R98: the pages that are discarded: the first and the last of those skipped or left latest -/
  discPage : Option (Nat × Nat)
  /-- R102: the page that the port has ended latest: each line of its rows has been fetched or lost -/
  overPage : Option Nat
  /-- R97, R104: RING_FLUSH has taken the rest of this page, its LAST band not wholly committed, from the reader -/
  flushed : Option Nat
  deriving DecidableEq, Repr

/-- R31: one timing line of the page in progress, from its row fetch to its compare. -/
structure Line where
  m : Nat
  lost : Option LostCause
  /-- the nozzles that fire and their codes (1, 2, 3): the decisions of step S7 until stage 3, the classes from then on -/
  codes : List (Nat × Nat)
  /-- W_x,d at index 4x + d, and E_x -/
  widths : List Nat
  env : List Nat
  /-- end of the LINE frame on the link, once it is sent (R160) -/
  sentAt : Option Time
  lseq : Nat
  /-- t0, once scheduled (R219), and whether the line fires with LATE -/
  t0 : Option Time
  late : Bool
  deriving DecidableEq, Repr

/-- A strobe pulse (R145, R148): strobe 0 A, 1 B, 2 C, its rise and its fall. -/
structure Pulse where
  strobe : Nat
  rise : Time
  fall : Time
  deriving DecidableEq, Repr

/-- R57, R75: what waits for a shadow transfer: a master's access as the pieces of 32-bit words that are still to come
(address, and bytes to write or number of bytes to read), a NAT_IMM command, or an automatic change of HEALTH. -/
inductive Stalled where
  | write (m : Master) (pieces : List (Nat × List Byte))
  | read (m : Master) (pieces : List (Nat × Nat))
  | natImm (entry : Nat) (value : Word)
  | health (entry health : Nat) (imm : Bool)
  deriving DecidableEq, Repr

/-- The page flow of one port: placement and fire timing of the page in progress (R212 to R226). -/
structure Flow where
  /-- the page in progress: its first line has been reached (R37) -/
  cur : Option PageInfo
  /-- R37: the port joins a running device and has not found its page; the position or tick it joined at -/
  joining : Option Rat
  /-- R99: the boundary sequence is over and the port waits for a header -/
  seqDone : Bool
  /-- R479, R40 B3: mask slot and phases of the current page -/
  slot : Nat
  phaseX : Nat
  phaseY : Nat
  /-- timing lines of the page (R215), or those left by an ABORT -/
  total : Nat
  /-- next line to fetch, to take through stage 3, to send, to schedule -/
  fetchM : Nat
  stageM : Nat
  sendM : Nat
  schedM : Nat
  lines : List Line
  /-- S6 decisions of the page lines that later timing lines still need: (page line, decisions), newest first (R216) -/
  decs : List (Nat × List (Nat × Nat))
  /-- the row of a C8/600 pair whose second line is still to come (R100) -/
  rowBuf : List Byte
  /-- t0 of the latest line fired in this page flow, and in this page; the period measured last (R192) -/
  lastT0 : Option Time
  pageT0 : Option Time
  lastPeriod : Option Time
  /-- X(m_last) (R224) -/
  lastX : Option Rat
  xHi : Option Int
  revHold : Bool
  revFrom : Int
  /-- entry into the latest boundary, and the end of its step B5 or B6 (R44) -/
  boundaryFrom : Time
  boundaryEnd : Option Time
  pageForced : Bool
  /-- the line whose phases run, its phase, the pulses of that phase and those held back (R148) -/
  firing : Option Line
  phase : Nat
  pulses : List Pulse
  delayed : List Nat
  /-- R156: the phase of the next marker, and LSEQ of the line or step whose marker 0 was sent last -/
  marked : Nat
  markFor : Option Nat
  deriving DecidableEq, Repr

/-- The overdrive budget of a port (R192, R193): bins newest first in ps, the instant of the last bin boundary or
clearing, and the start of exhaustion. -/
structure Budget where
  bins : List Nat
  binFrom : Time
  exhFrom : Option Time
  forcing : Bool
  deriving DecidableEq, Repr

/-- The health unit of a port (R231 to R250). -/
structure Health where
  st : ScanState
  learn : Bool
  svc : Bool
  stopReq : Bool
  cursor : Nat
  /-- steps run in the present slice, and its close -/
  sliceSteps : Nat
  sliceClose : Option Time
  /-- the step in progress: its start t0 and its line; the start of the next step of the run; the nozzles under
  confirmation (empty: all sixteen) with their class -/
  stepT0 : Option Time
  stepLine : Option Line
  nextT0 : Option Time
  /-- LSEQ of the LINE frame that carried the latest step (R235) -/
  stepLseq : Option Nat
  /-- R235: the ACK of that frame was OK, or it was a NACK or is missing; none while it is awaited -/
  stepAck : Option Bool
  /-- R235: LSEQ of the LINE frames that carried scan steps, newest first -/
  stepFrames : List Nat
  confirm : List (Nat × Nat)
  confirmsLeft : Nat
  /-- the results that wait for confirmation: nozzle, class, reason, g, r, and whether it is confirmed again -/
  pendingRec : List (Nat × Nat × Nat × Nat × Nat × Bool)
  /-- R239: per die, the count of nozzles and the sums of 8 z[i] -/
  learnN : List Nat
  learnSum : List (List Int)
  /-- R249: conductance estimates, 16 fraction bits -/
  cond : Sparse Nat
  deriving DecidableEq, Repr

/-- R157, R159, R164, R165: a frame that the device sends on a fire link. LINE: TBANK, LSEQ, each present die with its
fields W_A, W_B and W_C, the codes by port nozzle, and ORD. CONFIG: MODE, PHASE_PITCH, QUIET, the present dies, ORD.
TRIM: BANK, BOTH, FIRST, COUNT and the WSCALE values. START: TBANK. -/
inductive LinkFrame where
  | line (tbank lseq : Nat) (dies : List (Nat × List Nat)) (codes : List (Nat × Nat)) (ord : List Nat)
  | config (mode pitch quiet : Nat) (dies ord : List Nat)
  | trim (bank : Nat) (both : Bool) (first count : Nat) (scales : List Nat)
  | idReq
  | start (tbank : Nat)
  deriving DecidableEq, Repr

/-- One head port (R48 and the chapters on its pages). -/
structure Port where
  st : PortState
  sq : SeqState
  pwrEn : Bool
  svcPend : SvcPend
  link : LinkState
  /-- R173 step 2: identity last read since PORST_N -/
  identSeen : Option (Nat × Nat × Nat)
  identReqAt : Option Time
  /-- R173 step 4: the end of the CONFIG frame whose CFG_ACK is awaited, and how often CONFIG was resent; R186: the dies
  that its DIES field names -/
  configAt : Option Time
  cfgTries : Nat
  cfgDies : List Nat
  /-- R48, R173 step 5: a STATUS since START; R189: a STATUS since HOT_HOLD was entered -/
  statusSeen : Bool
  statusSinceHold : Bool
  /-- R171: the latest valid STATUS, or START before the first -/
  statusAt : Time
  /-- R176: the latest valid STATUS -/
  statusLast : Option Time
  rtLossNow : Bool
  ackMissRun : Nat
  /-- LINE frames whose ACK is awaited: LSEQ, and the deadline once t0 is known (R170) -/
  ackWait : List (Nat × Option Time)
  lseq : Nat
  /-- R166: the bank named in LINE frames and the blocks pending for the other bank -/
  bank : Nat
  trimPend : List Nat
  trimImm : List Nat
  /-- R122: the page and the timing line up to which lines have been screened with other values of a NAT_IMM entry: the
  immediate blocks wait behind their LINE frames (log 165) -/
  immHold : Option (Nat × Nat)
  /-- the head's two banks as the device has sent them: WSCALE by 12,288 × bank + nozzle -/
  headTrim : Sparse Nat
  /-- R154: the end of the last frame on the link; the frames that went out together last, and whether ABT ended them;
  R163: a frame in progress at this instant ends with ABT -/
  linkFreeAt : Time
  sent : List LinkFrame
  abt : Bool
  cutAt : Time
  /-- R156: the byte on D0 of the marker sent last; D1 carries its complement -/
  marker : Byte
  /-- R154: the running disparities of D0 and D1 behind what was sent last, positive or not; IDLE symbols come on top -/
  disp : Bool × Bool
  /-- R156: s_15 of the latest line or scan step that the port has fired; 0 before the first -/
  last15 : Time
  /-- R417: when the latest strobe pulse of an earlier phase ended; R381: the pulses of the
  phases before this one, of the last 20 µs -/
  lastFall : Time
  recent : List Pulse
  /-- R73, R75 -/
  dirty : Bool
  busyNow : Bool
  b4Until : Time
  hold : Bool
  rdActive : Bool
  nowRej : Bool
  stalled : List Stalled
  flow : Flow
  /-- R177: history states, by port nozzle index -/
  hist : Sparse Nat
  /-- R132, R133: carries e(c) and toggle bits, by column -/
  carry : Sparse Nat
  toggle : Sparse Nat
  /-- R185: u1 to u15 of each die as a bit mask; R187: dies at or above HOT, CRIT, below RESUME, below TB0 -/
  bandBits : List Nat
  hotDies : Nat
  critDies : Nat
  resDies : Nat
  coldDies : Nat
  budget : Budget
  health : Health
  /-- R441 -/
  recipeLoad : Bool
  recipeDone : Bool
  /-- R45: the page that the port has begun last since the device state left IDLE -/
  begun : Option Nat
  paramPend : Bool
  deriving DecidableEq, Repr

/-- One feedback channel and its observer (R198 to R210). -/
structure Chan where
  st : FbState
  count : Int
  a : Bool
  b : Bool
  i : Bool
  x : Rat
  v : Rat
  acc : Rat
  /-- sample instant of the observer state shown, and its tick number -/
  tm : Time
  tick : Nat
  innov : Rat
  /-- a double transition since the last tick (R208) and the instants of the latest ones (R201) -/
  coast : Bool
  doubles : List Time
  lastCount : Option Time
  prevCount : Option Time
  lastUp : Bool
  idxSeen : Bool
  /-- R205: the fault was sent with severity 2 -/
  faultSev2 : Bool
  deriving DecidableEq, Repr

/-- R278: a PVT run. -/
structure PvtRun where
  seg : Nat
  tick : Nat
  p0 : Rat
  v0 : Rat
  deriving DecidableEq, Repr

/-- R269: what kind of stop decelerates the axis. -/
inductive StopKind where
  | none | dec | qdec
  deriving DecidableEq, Repr

/-- R274: homing phases. -/
inductive HomePhase where
  | none | search | halt | release | index | settle
  deriving DecidableEq, Repr

/-- R254: a pulse of a bridge: the instant of its rise and its length in 5 ns steps, on A1 or B1, or negative on A2 or B2. -/
structure BridgePulse where
  rise : Time
  steps : Int
  deriving DecidableEq, Repr

/-- One stepper axis (R252 to R280). -/
structure Axis where
  st : AxState
  p : Rat
  v : Rat
  pPrev : Rat
  /-- the interpolated position of the present PWM period (R260) -/
  q : Rat
  target : Rat
  /-- the target AX_TARGET is not read: a RESUME or a set drives the axis (R270, R282) -/
  ownTarget : Bool
  homed : Bool
  remain : Rat
  remainV : Bool
  /-- R269: the stop in progress, and whether it stops a move -/
  stop : StopKind
  moveStop : Bool
  /-- R274 to R276: the phase of a homing run, the way travelled since HOME, the home edge, whether H1 runs against DIR
  after a limit trip, the qualified edges, and the positions q of the latest PWM periods, newest first -/
  homePhase : HomePhase
  homeTravel : Rat
  homeEdge : Rat
  homeRev : Bool
  chatter : Nat
  qHist : List (Time × Rat)
  /-- R276: the qualified levels of LIMN and LIMP, once there is one -/
  limn : Option Bool
  limp : Option Bool
  /-- R264, R265 -/
  eb : Rat
  er : Int
  lambda : Rat
  lambdaV : Bool
  snsAt : Option Time
  snsTurns : Rat
  snsAddr : Nat
  peLast : Rat
  addr : Nat
  heldAddr : Nat
  iSet : Nat
  stillTicks : Nat
  moved : Bool
  stallRun : Nat
  ferrRun : Nat
  vsat : Bool
  dutyA : Rat
  dutyB : Rat
  /-- R254, R255: the pulses of bridges A and B of the latest two PWM periods, newest first: a member's carrier centre may
  lie in the period after -/
  pulses : List (BridgePulse × BridgePulse)
  /-- R466: the instant AXnn_EN rose, and, after DISABLE, the instant until which it stays high -/
  enAt : Time
  enTill : Time
  pvt : Option PvtRun
  badSeg : Nat
  inSet : Option Nat
  setStart : Rat
  /-- R260: when a set of another motion group last stepped the axis -/
  setStepAt : Option Time
  faultSev2 : Bool
  deriving DecidableEq, Repr

/-- One motion group (R255, R263). -/
structure MGroup where
  vbusFault : Bool
  period : Nat
  samples : List Nat
  vbus : Rat
  outRun : Nat
  deriving DecidableEq, Repr

/-- One interpolation set (R281 to R283). -/
structure MSet where
  active : Bool
  lead : Nat
  leadLen : Rat
  s : Rat
  v : Rat
  /-- (slot, axis, Δ) of the members -/
  members : List (Nat × Nat × Rat)
  stop : StopKind
  startIn : Nat
  deriving DecidableEq, Repr

/-- R293: a descriptor as fetched. -/
structure Desc where
  index : Nat
  src : Nat
  dst : Nat
  len : Nat
  ctrl : Nat
  next : Nat
  deriving DecidableEq, Repr

/-- R307, R345: a request that Joist sends on the PCIe link. None carries Relaxed Ordering (R309). -/
structure HostReq where
  write : Bool
  addr : Nat
  len : Nat
  noSnoop : Bool
  deriving DecidableEq, Repr

/-- One Joist channel (R289 to R306). -/
structure JChan where
  st : ChState
  pref : Option Desc
  fetching : Option Nat
  run : Option Desc
  /-- the bytes that the host link has returned for the running descriptor's source, in order -/
  hostData : List Byte
  /-- the host-space requests of the running descriptor, and that of the fetch under way -/
  reqs : List HostReq
  fetchReq : Option HostReq
  /-- the stream bytes that requests sent before Bus Master Enable was cleared cover -/
  cut : Option Nat
  /-- the latest STATUS that was written to host memory: its Joist address and the word -/
  statusOut : Option (Nat × Word)
  cur : Nat
  evLatch : Bool
  deriving DecidableEq, Repr

/-- One Joist engine (R290). -/
structure Engine where
  holder : Option Nat
  last : Nat
  deriving DecidableEq, Repr

/-- R323: a Sync that waits for its Follow_Up: t2 (1/256 ns) and the correctionField (2⁻¹⁶ ns), the instant it came, and
what the servo's adjustment had removed in all by then. -/
structure SyncWait where
  seqId : Nat
  t2 : Int
  corr : Int
  at0 : Time
  removed : Int
  deriving DecidableEq, Repr

/-- R338: a transmit stamp in the FIFO; the stamp in 1/256 ns. -/
structure TxStamp where
  link : Nat
  msgType : Nat
  domain : Nat
  seqId : Nat
  stamp : Nat
  deriving DecidableEq, Repr

/-- R315, R316: the latest frame that went to management firmware: its octets, and its receive stamp (1/256 ns) where it is
a PTP event message. -/
structure EthRx where
  octets : List Byte
  stamp : Option Int
  deriving DecidableEq, Repr

/-- The Halyard unit (R319 to R326). Time is `base` (in 2⁻³² ns) at the 500 MHz tick number `baseTick`, and grows by
`inc` (Q8.32 ns) per tick since; `nom` is the nominal increment of those ticks. -/
structure Hal where
  base : Nat
  baseTick : Nat
  inc : Nat
  nom : Nat
  servo : ServoState
  integ : Rat
  adj : Rat
  nb : Nat
  lastSign : Int
  lockRun : Nat
  /-- latest θ in 2⁻¹⁶ ns, the instant it was handled, what the adjustment has removed in all up to `baseTick` and up to
  the instant at which θ was measured (2⁻³² ns), and the instant of the latest step -/
  theta : Int
  thetaAt : Time
  removed : Int
  removedRef : Int
  stepPend : Bool
  lastStepAt : Option Time
  syncs : List SyncWait
  stamps : List TxStamp
  deriving DecidableEq, Repr

/-- One Ethernet port (R336). -/
structure Eth where
  st : EthState
  mode : Nat
  up : List Nat
  anDone : Nat
  /-- the latest frame that went to firmware, and the latest of firmware's frames as it left -/
  rx : Option EthRx
  tx : List Byte
  deriving DecidableEq, Repr

/-- R330: a retained DATA frame: its payload stands in the replay buffer, `slot` bytes from the start. -/
structure BxFrame where
  seqNo : Nat
  txStream : Nat
  dst : Nat
  dstStream : Nat
  offset : Nat
  len : Nat
  slot : Nat
  deriving DecidableEq, Repr

/-- R328, R329: a Bexgar frame as the device sends it. -/
structure BxOut where
  type : Nat
  dst : Nat
  bcast : Bool
  seqNo : Nat
  ack : Nat
  sub : Nat
  offset : Nat
  payload : List Byte
  deriving DecidableEq, Repr

/-- One Bexgar link (R330 to R333). -/
structure BxLink where
  st : BxState
  peerSeen : Bool
  nextSeq : Nat
  retained : List BxFrame
  /-- SEQ from which retained frames are resent after a FULL or NOTREADY wait, and the instant it ends -/
  resendFrom : Option Nat
  resendAt : Time
  /-- e; the frames it has moved past since it was last sent, and the instant of the first of them -/
  expect : Nat
  taken : Nat
  takenAt : Time
  /-- further NACKs are held back until this instant -/
  nackHold : Time
  /-- the instant RTO counts from, and the timeouts in a row -/
  ackMoved : Time
  retries : Nat
  heardAt : Time
  /-- the instant of the peer's latest STATUS -/
  peerAt : Option Time
  /-- the instant of the latest IDENT it sent -/
  identAt : Option Time
  /-- the latest frame the link has sent, and its octets -/
  out : Option BxOut
  wire : List Byte
  deriving DecidableEq, Repr

/-- R88: a pointer register: a byte offset in a region and the WRAP bit above it. -/
structure Ptr where
  off : Nat
  wrap : Bool
  deriving DecidableEq, Repr

/-- One transmit stream (R335, R340). -/
structure TxStream where
  wptr : Ptr
  rptr : Ptr
  offs : Nat
  acked : Nat
  deriving DecidableEq, Repr

/-- One receive stream (R334, R340). -/
structure RxStream where
  wptr : Ptr
  rptr : Ptr
  exp : Nat
  halted : Bool
  full : Bool
  deriving DecidableEq, Repr

/-- R335: an epoch entry. -/
structure Epoch where
  id : Nat
  port : Nat
  page : Nat
  stamp : BitVec 64
  deriving DecidableEq, Repr

/-- The Bexgar engine (R328 to R340). -/
structure Lnk where
  on : Bool
  links : Sparse BxLink
  tx : Sparse TxStream
  rx : Sparse RxStream
  epochs : List Epoch
  /-- the instant of the latest STATUS frames -/
  statusAt : Option Time
  /-- the stream that sent last, by link -/
  turn : Sparse Nat
  deriving DecidableEq, Repr

/-- R344: how a request completes. -/
inductive Completion where
  | ok (data : Nat)
  | unsupported
  | abort
  deriving DecidableEq, Repr

/-- R346: an error report on the link: correctable, or uncorrectable of either severity. -/
inductive ErrReport where
  | correctable | nonFatal | fatal
  deriving DecidableEq, Repr

/-- The PCIe endpoint's own state (R341, R343, R346, R347, R351). -/
structure Pcie where
  linkUp : Bool
  speed : Nat
  width : Nat
  bme : Bool
  msiEn : Bool
  masked : Bool
  d0 : Bool
  mps : Nat
  mrrs : Nat
  /-- R343: the addresses that the host has assigned to BAR0, BAR2 and BAR4 -/
  bar0 : Nat
  bar2 : Nat
  bar4 : Nat
  /-- R351: the programmed address and data, and those of the latest MSI sent -/
  msiAddr : BitVec 64
  msiData : BitVec 16
  msiSent : Option (BitVec 64 × BitVec 16)
  /-- R346: AER: the status words, the severities, the first error that waits, and the 4 DW header log -/
  aerCor : Word
  aerUnc : Word
  aerSev : Word
  aerFirst : Option AerErr
  aerHeader : List Word
  /-- R346: the latest error report that the device sent -/
  aerReport : Option ErrReport
  /-- how the latest request outside the BARs completed -/
  answer : Option Completion
  /-- R351: an MSI is deferred (MSI_PEND), the MSI Pending bit, and whether PEN_ACT was non-zero after the latest
  command -/
  msiPend : Bool
  msiPendBit : Bool
  actWas : Bool
  deriving DecidableEq, Repr

/-- The serial management port (R353 to R356). -/
structure Smp where
  busy : Bool
  rdValid : Bool
  crcErr : Bool
  overrun : Bool
  seqNo : Nat
  rbuf : Word
  /-- a READ is in progress (R355) -/
  reading : Bool
  /-- the bytes that SMP_SDO carried in the latest transaction (R354) -/
  sdo : List Byte
  deriving DecidableEq, Repr

/-- R369: a slot of the unacknowledged table. -/
structure Slot where
  valid : Bool
  source : Nat
  kind : Nat
  sev : Nat
  count : Nat
  deriving DecidableEq, Repr

/-- R372, R373: a history entry. -/
structure HistEntry where
  msg : Word
  seqNo : Nat
  eff : Nat
  esc : Bool
  noslot : Bool
  stamp : BitVec 64
  deriving DecidableEq, Repr

/-- R367: one island's message path. -/
structure MsgPath where
  queue : List Word
  lost : Nat
  deriving DecidableEq, Repr

/-- Kingpost (R358 to R394). -/
structure Kps where
  st : KpsState
  dsafe : Bool
  dsafeMsg : Word
  deviceLatch : Bool
  /-- ports whose latch is clear, and motion groups whose latch is clear -/
  portClear : List Nat
  motionClear : List Nat
  tripped : List (Nat × Nat)
  slots : Sparse Slot
  hist : Sparse HistEntry
  nextSeq : Nat
  fullPend : Bool
  paths : Sparse MsgPath
  heartbeatAt : Time
  /-- R394: strobes 3p + x whose readback TEST_RB holds high, and until when -/
  readback : List (Nat × Time)
  /-- ports whose stop-request line has asserted and has not been served yet (R360): empty between commands -/
  stops : List Nat
  deriving DecidableEq, Repr

/-- Sill's thermal unit (R395 to R410). -/
structure Thm where
  temps : Sparse Int
  failed : List Nat
  runs : Sparse Nat
  hot : List Nat
  level : Nat
  floor : Nat
  pinned : List Nat
  tctl : Int
  hottest : Nat
  /-- R401: since when Tctl has stayed below Tk - HYST, for k = 1, 2, 3 -/
  coolFrom : List (Option Time)
  /-- R409: since when every valid reading has been below 100 °C -/
  allCoolFrom : Option Time
  nbrLow : Bool
  shutdown : Bool
  offLatched : Bool
  restarts : List Time
  fallback : Bool
  flashSuspended : Bool
  vernierAt : Time
  refAt : Time
  /-- R399: the compensation of each element as it stands (compElem numbers them) -/
  comp : Sparse Int
  deriving DecidableEq, Repr

/-- One calibration channel (R413 to R420). -/
structure CalChan where
  phase : CalPhase
  forced : Bool
  trig : Int
  last : Nat
  defers : Nat
  newRes : List Word
  accepted : Bool
  /-- the spare stands in for this member -/
  standIn : Bool
  /-- the start of the attempt, or of phase P3; the latest deferral of the run -/
  startAt : Time
  deferredAt : Option Time
  deriving DecidableEq, Repr

/-- R432: the entry of one firmware class. -/
structure FwEntry where
  validA : Bool
  validB : Bool
  cur : Nat
  pend : Option Nat
  tries : Nat
  bootTries : Nat
  reverted : Bool
  deriving DecidableEq, Repr

/-- R432: a copy of the boot directory. -/
structure Dir where
  gen : Nat
  mgmt : FwEntry
  safety : FwEntry
  rcp0 : Bool
  rcp1 : Bool
  active : Option Nat
  deriving DecidableEq, Repr

/-- R440: an activation that is staging or pending. -/
structure Activation where
  bank : Nat
  staging : Bool
  page : Nat
  deriving DecidableEq, Repr

/-- The update slot, the directory and the recipes (R427 to R443). -/
structure Upd where
  st : UpdState
  owner : Nat
  token : Nat
  claimRes : Sparse Nat
  /-- R428, R429: the session: its class, its slot or bank, the bytes accepted, the bytes in flash, the internal buffers
  that wait for programming, and the byte count of a chunk that waits for a buffer -/
  cls : Nat
  bank : Nat
  written : Nat
  flashed : Nat
  bufs : List (List Byte)
  waiting : Option Nat
  lastCmdAt : Time
  /-- R423, R432: copy 0 and copy 1 of the boot directory; none where its CRC-32C does not match -/
  copy0 : Option Dir
  copy1 : Option Dir
  runMgmt : Nat
  runSafety : Nat
  fallback : Bool
  act : Option Activation
  /-- R440: where the latest staged copy stands in the spool -/
  stagedAt : Nat
  deriving DecidableEq, Repr

/-- The test access port (R471 to R474). -/
structure Tap where
  instr : TapInstr
  cells : Sparse Bool
  /-- R473: functional logic disconnected from the covered pins until the next PORST_N -/
  disconnected : Bool
  /-- the data register that the current instruction selects, where it is not the boundary register -/
  dr : BitVec 64
  /-- R471, R473: the levels that the boundary register captured last, in the order of its cells -/
  captured : List Bool
  deriving DecidableEq, Repr

/-- A held lower half or a capture of R58: the master's code, the register's address, the value. -/
structure Held where
  master : Nat
  addr : Nat
  value : Word
  deriving DecidableEq, Repr

/-- R403: a command that waits for its gated part. -/
structure Waking where
  m : Master
  page : Page
  inst : Nat
  code : Nat
  arg : Nat
  deriving DecidableEq, Repr

/-- The state of the UL-9600. -/
structure State where
  /-- the instant of the latest command (log 1) -/
  now : Time
  /-- PORST_N is low (R446) -/
  porst : Bool
  /-- the PROFILE strap as sampled: UL-24 (R4, R5), the FTM strap as sampled, the factory test unlock (R386) -/
  ul24 : Bool
  ftmStrap : Bool
  ftm : FtmState
  /-- R77; R453: the value MGMT_RESET returns to -/
  devOp : DevOp
  devOpBack : DevOp
  /-- R458: when the latest reset began; R451: whether the boot under way applies records and recipe -/
  bootFrom : Time
  /-- R321: the latest release of PORST_N -/
  relAt : Time
  /-- R448: when Sill has left reset (step 1), Kingpost has been released (step 3), and the other islands are powered with
  their clocks locked (step 4) -/
  sillAt : Time
  kpsAt : Time
  powerAt : Time
  /-- R452, R454: the islands are back from the latest DEV_RESET at this instant -/
  islandsAt : Time
  appliesRecords : Bool
  /-- register words by native BAR0 address: the software-visible copy, and the active copy -/
  regs : Sparse Word
  active : Sparse Word
  heldLow : List Held
  captures : List Held
  /-- the data that has come for each master's latest read (the model's own: what the master sees) -/
  lastRead : Sparse (List Byte)
  bar2Data : Option (List Byte)
  waking : List Waking
  stopPending : Bool
  ports : Sparse Port
  rings : Sparse Ring
  band : List Host.Cell
  spool : List Host.Cell
  masks : List Host.Cell
  flash : List Host.Cell
  natShadow : Sparse Word
  natActive : Sparse Word
  widthShadow : Sparse Word
  widthActive : Sparse Word
  sine : Sparse Word
  pvtTab : Sparse Word
  /-- words that hold an uncorrectable, a correctable ECC error (R35; physical facts, log 12) -/
  ue : List (Store × Nat)
  ce : List (Store × Nat)
  /-- R35: the corrected errors of the words that no register counts: NAT, ramp, PVT and shadow width words -/
  eccCount : Nat
  mem : MemState
  /-- R110: MEM_CFG as the latest TRAIN applied it; R106: the scrubber's next block, and the instant of its latest one -/
  memCfg : Word
  scrubAt : Nat
  scrubbed : Time
  chans : Sparse Chan
  axes : Sparse Axis
  mgroups : Sparse MGroup
  msets : Sparse MSet
  jchans : Sparse JChan
  engines : Sparse Engine
  hal : Hal
  eths : Sparse Eth
  lnk : Lnk
  pcie : Pcie
  smp : Smp
  kps : Kps
  thm : Thm
  cals : Sparse CalChan
  calTurn : Sparse Nat
  upd : Upd
  tap : Tap
  /-- line clocks of the port groups: the instant of tick 0 and the period in 2⁻³² ns (R153), by group -/
  clocks : Sparse (Time × Nat)
  /-- the latest tick of each line clock that has come -/
  ticks : Sparse Nat
  /-- the counter of free values (the model's own, log 8) -/
  free : Nat
  /-- the waiting commands, first in, first out (the model's own) -/
  pending : List Instr
  deriving DecidableEq, Repr

/-- A page flow with nothing in it. -/
def Flow.reset : Flow :=
  { cur := none, joining := none, seqDone := false, slot := 0, phaseX := 0, phaseY := 0, total := 0, fetchM := 0,
    stageM := 0, sendM := 0, schedM := 0, lines := [], decs := [], rowBuf := [], lastT0 := none,
    pageT0 := none, lastPeriod := none, lastX := none, xHi := none, revHold := false, revFrom := 0, boundaryFrom := 0,
    boundaryEnd := none, pageForced := false, firing := none, phase := 0, pulses := [], delayed := [], marked := 0,
    markFor := none }

/-- R192: every bin 0, counted from the moment the island leaves reset. -/
def Budget.reset : Budget := { bins := [], binFrom := 0, exhFrom := none, forcing := false }

/-- R240, R251: the health unit at reset. -/
def Health.reset : Health :=
  { st := .stopped, learn := false, svc := false, stopReq := false, cursor := 0, sliceSteps := 0, sliceClose := none,
    stepT0 := none, stepLine := none, nextT0 := none, stepLseq := none, stepAck := none, stepFrames := [], confirm := [],
    confirmsLeft := 0, pendingRec := [], learnN := [], learnSum := [], cond := [] }

/-- R48, R37, R173: a port at reset: OFF, its sequencer IDLE, its link DOWN, history cold. -/
def Port.reset : Port :=
  { st := .off, sq := .idle, pwrEn := false, svcPend := .none, link := .down, identSeen := none, identReqAt := none, configAt := none,
    cfgTries := 0, cfgDies := [], statusSeen := false, statusSinceHold := false, statusAt := 0, statusLast := none,
    rtLossNow := false, ackMissRun := 0, ackWait := [], lseq := 0, bank := 0, trimPend := [], trimImm := [], immHold := none,
    headTrim := [], linkFreeAt := 0, sent := [], abt := false, cutAt := 0, marker := 0, disp := (false, false), last15 := 0, lastFall := 0, recent := [], dirty := false, busyNow := false, b4Until := 0, hold := false,
    rdActive := false, nowRej := false, stalled := [], flow := Flow.reset, hist := [], carry := [], toggle := [],
    bandBits := [0, 0, 0, 0], hotDies := 0, critDies := 0, resDies := 0, coldDies := 0, budget := Budget.reset,
    health := Health.reset, recipeLoad := false,
    recipeDone := false, begun := none, paramPend := false }

/-- R87, R109: a ring at reset: UNCONFIGURED, pointers 0. -/
def Ring.reset : Ring :=
  { st := .unconfigured, base := 0, size := 0, cols := 12288, spoolOnly := false, wpos := 0, rpos := 0, hpos := 0,
    curInfo := none, pageOpen := false, nextLine := 0, expSeq := none, pages := [], bands := [], requesting := false,
    hdrCode := 0, met := none, sLost := false, discPage := none, overPage := none, flushed := none }

/-- R205, R228: a feedback channel at reset: OFF, count 0. -/
def Chan.reset : Chan :=
  { st := .off, count := 0, a := false, b := false, i := false, x := 0, v := 0, acc := 0, tm := 0, tick := 0,
    innov := 0, coast := false, doubles := [], lastCount := none, prevCount := none, lastUp := true, idxSeen := false,
    faultSev2 := false }

/-- R256, R284: an axis at reset: OFF at position 0. -/
def Axis.reset : Axis :=
  { st := .off, p := 0, v := 0, pPrev := 0, q := 0, target := 0, ownTarget := false, homed := false, remain := 0,
    remainV := false, stop := .none, moveStop := false, homePhase := .none, homeTravel := 0, homeEdge := 0,
    homeRev := false, chatter := 0, qHist := [], limn := none, limp := none, eb := 0, er := 0, lambda := 0,
    lambdaV := false, snsAt := none, snsTurns := 0, snsAddr := 0, peLast := 0, addr := 0, heldAddr := 0, iSet := 0,
    stillTicks := 0, moved := false, stallRun := 0, ferrRun := 0, vsat := false, dutyA := 0, dutyB := 0,
    pulses := [], enAt := 0, enTill := 0, pvt := none, badSeg := 0, inSet := none, setStart := 0, setStepAt := none,
    faultSev2 := false }

/-- R286: a motion group at reset: NORMAL. -/
def MGroup.reset : MGroup := { vbusFault := false, period := 0, samples := [], vbus := 0, outRun := 0 }

/-- R286: a set at reset: not active. -/
def MSet.reset : MSet :=
  { active := false, lead := 0, leadLen := 0, s := 0, v := 0, members := [], stop := .none, startIn := 0 }

/-- R311: a Joist channel at reset: IDLE. -/
def JChan.reset : JChan :=
  { st := .idle, pref := none, fetching := none, run := none, hostData := [], reqs := [], fetchReq := none, cut := none
    statusOut := none, cur := 0, evLatch := false }

/-- R290: an engine at reset: free; DESIGN CHOICE (log 13): channel 0 is first in the first round. -/
def Engine.reset : Engine := { holder := none, last := 15 }

/-- R319, R337: Halyard at reset: time 0, INC 2.0 ns, FREE. -/
def Hal.reset : Hal :=
  { base := 0, baseTick := 0, inc := 0x200000000, nom := 0x200000000, servo := .free, integ := 0, adj := 0, nb := 0,
    lastSign := 0, lockRun := 0, theta := 0, thetaAt := 0, removed := 0, removedRef := 0, stepPend := false,
    lastStepAt := none, syncs := [], stamps := [] }

/-- R336: an Ethernet port at reset: DISABLED. -/
def Eth.reset : Eth := { st := .disabled, mode := 0, up := [], anDone := 0, rx := none, tx := [] }

/-- R333, R339: a Bexgar link at reset: DOWN. -/
def BxLink.reset : BxLink :=
  { st := .down, peerSeen := false, nextSeq := 0, retained := [], resendFrom := none, resendAt := 0, expect := 0,
    taken := 0, takenAt := 0, nackHold := 0, ackMoved := 0, retries := 0, heardAt := 0, peerAt := none, identAt := none,
    out := none, wire := [] }

/-- R340: a transmit stream at reset. -/
def TxStream.reset : TxStream := { wptr := ⟨0, false⟩, rptr := ⟨0, false⟩, offs := 0, acked := 0 }

/-- R340: a receive stream at reset. -/
def RxStream.reset : RxStream := { wptr := ⟨0, false⟩, rptr := ⟨0, false⟩, exp := 0, halted := false, full := false }

/-- R339: Bexgar at reset: OFF. -/
def Lnk.reset : Lnk := { on := false, links := [], tx := [], rx := [], epochs := [], statusAt := none, turn := [] }

/-- R347, and PRESUMED (log 6) from PCI Express: after a fundamental reset the link is down, Bus Master Enable and
MSI Enable are clear, the vector is unmasked, the function is in D0, Max_Payload_Size is 128 and
Max_Read_Request_Size is 512, no BAR is assigned, AER has its default severities and has logged nothing. -/
def Pcie.reset : Pcie :=
  { linkUp := false, speed := 0, width := 0, bme := false, msiEn := false, masked := false, d0 := true, mps := 128,
    mrrs := 512, bar0 := 0, bar2 := 0, bar4 := 0, msiAddr := 0, msiData := 0, msiSent := none, aerCor := 0, aerUnc := 0,
    aerSev := 0x462030, aerFirst := none, aerReport := none, aerHeader := [0, 0, 0, 0], answer := none, msiPend := false,
    msiPendBit := false, actWas := false }

/-- R355: the serial management port at reset. -/
def Smp.reset : Smp :=
  { busy := false, rdValid := false, crcErr := false, overrun := false, seqNo := 0, rbuf := 0, reading := false,
    sdo := [] }

/-- R392: a free slot. -/
def Slot.reset : Slot := { valid := false, source := 0, kind := 0, sev := 0, count := 0 }

/-- R372: an empty history slot. -/
def HistEntry.reset : HistEntry := { msg := 0, seqNo := 0, eff := 0, esc := false, noslot := false, stamp := 0 }

/-- R367: an empty message path. -/
def MsgPath.reset : MsgPath := { queue := [], lost := 0 }

/-- R385, R391: Kingpost at reset: SELFTEST, every latch set, Device Safe held. -/
def Kps.reset : Kps :=
  { st := .selftest, dsafe := true, dsafeMsg := 0, deviceLatch := true, portClear := [], motionClear := [],
    tripped := [], slots := [], hist := [], nextSeq := 0, fullPend := false, paths := [],
    heartbeatAt := 0, readback := [], stops := [] }

/-- R421: the thermal unit at reset. -/
def Thm.reset : Thm :=
  { temps := [], failed := [], runs := [], hot := [], level := 0, floor := 0, pinned := [], tctl := 0, hottest := 0,
    coolFrom := [none, none, none], allCoolFrom := none, nbrLow := false, shutdown := false, offLatched := false, restarts := [],
    fallback := false, flashSuspended := false, vernierAt := 0, refAt := 0, comp := [] }

/-- R412, R422: a calibration channel at reset: idle, TREF (a register) and TRIG 25 °C = 400/16. -/
def CalChan.reset : CalChan :=
  { phase := .idle, forced := false, trig := 400, last := 0, defers := 0, newRes := [], accepted := false,
    standIn := false, startAt := 0, deferredAt := none }

/-- DESIGN CHOICE (log 7): the flash as delivered: no valid slot beyond slot A of each firmware class, confirmed. -/
def FwEntry.reset : FwEntry :=
  { validA := true, validB := false, cur := 0, pend := none, tries := 0, bootTries := 3, reverted := false }

/-- DESIGN CHOICE (log 7): the boot directory as delivered, in copy 0: no recipe. -/
def Dir.reset : Dir :=
  { gen := 0, mgmt := FwEntry.reset, safety := FwEntry.reset, rcp0 := false, rcp1 := false, active := none }

/-- R428, R443: the update slot at reset: FREE. -/
def Upd.reset : Upd :=
  { st := .free, owner := 0, token := 0, claimRes := [], cls := 0, bank := 0, written := 0, flashed := 0,
    bufs := [], waiting := none, lastCmdAt := 0, copy0 := some Dir.reset, copy1 := none, runMgmt := 0, runSafety := 0, fallback := false,
    act := none, stagedAt := 0 }

/-- R474: the IDCODE register. -/
def idcodeWord : Word :=
  ((Config.devSilrev.setWidth 32 >>> 8) &&& 0xF) <<< 28 ||| 0x09600000 ||| 0x553

/-- R471, R474: PORST_N low resets the TAP, which selects IDCODE. -/
def Tap.reset : Tap :=
  { instr := .idcode, cells := [], disconnected := false, dr := idcodeWord.setWidth 64, captured := [] }

/-- The device while PORST_N is low after power-up (R446): every register at its Reset value, every memory at its
reset contents, nothing waiting. The first command that brings it to life is PORST_N_RELEASE. -/
def State.reset : State :=
  { now := 0, porst := true, ul24 := false, ftmStrap := false, ftm := .none, devOp := .boot, devOpBack := .boot,
    bootFrom := 0, relAt := 0, sillAt := 0, kpsAt := 0, powerAt := 0, islandsAt := 0, appliesRecords := true, regs := [], active := [], heldLow := [], captures := [], lastRead := [],
    bar2Data := none, waking := [], stopPending := false, ports := [], rings := [], band := [], spool := [],
    masks := [], flash := [], natShadow := [], natActive := [], widthShadow := [], widthActive := [], sine := [],
    pvtTab := [], ue := [], ce := [], eccCount := 0, mem := .off, memCfg := 0x700, scrubAt := 0, scrubbed := 0, chans := [], axes := [], mgroups := [], msets := [],
    jchans := [], engines := [], hal := Hal.reset, eths := [], lnk := Lnk.reset, pcie := Pcie.reset,
    smp := Smp.reset, kps := Kps.reset, thm := Thm.reset, cals := [], calTurn := [], upd := Upd.reset,
    tap := Tap.reset, clocks := [], ticks := [], free := 0, pending := [] }

end Sys2Proof.Machine
end

