-- ==== Sys2Proof/Machine/Regs.lean ====
section
/-! DEFINITION. The register space of BAR0 (R53, R56, R59): where a page stands, which pages are present, the Reset
value of every word, and the accessors through which every register of the state is read and written. -/

namespace Sys2Proof

/-- R53: the page kinds, in address order. -/
def Page.all : List Page :=
  [.dev, .pen, .kps0, .kps1, .kps2, .kps3, .thm, .cal, .upd, .clk, .seq, .mem, .hal0, .hal1, .hal2, .hal3, .eth,
   .lnk0, .lnk1, .jst0, .jst1, .bnd0, .bnd1, .scr, .ft, .en, .hl, .lk, .fbk, .ax0, .ax1, .mgp]

/-- R53: base address of a page kind. -/
def Page.base : Page → Nat
  | .dev => 0x0 | .pen => 0x1000 | .kps0 => 0x2000 | .kps1 => 0x3000 | .kps2 => 0x4000 | .kps3 => 0x5000
  | .thm => 0x6000 | .cal => 0x7000 | .upd => 0x8000 | .clk => 0x9000 | .seq => 0xA000 | .mem => 0xB000
  | .hal0 => 0x10000 | .hal1 => 0x11000 | .hal2 => 0x12000 | .hal3 => 0x13000 | .eth => 0x14000
  | .lnk0 => 0x16000 | .lnk1 => 0x17000 | .jst0 => 0x20000 | .jst1 => 0x21000 | .bnd0 => 0x30000
  | .bnd1 => 0x31000 | .scr => 0x40000 | .ft => 0x100000 | .en => 0x101000 | .hl => 0x102000 | .lk => 0x103000
  | .fbk => 0x300000 | .ax0 => 0x400000 | .ax1 => 0x401000 | .mgp => 0x500000

/-- R53: stride between instances. -/
def Page.stride : Page → Nat
  | .jst0 | .jst1 | .ax0 | .ax1 => 0x2000
  | .ft | .en | .hl | .lk => 0x4000
  | _ => 0x1000

/-- R53: number of instances. -/
def Page.count : Page → Nat
  | .eth => 2
  | .jst0 | .jst1 | .scr | .mgp => 8
  | .ft | .en | .hl | .lk | .fbk | .ax0 | .ax1 => 96
  | _ => 1

/-- R53: block type code. -/
def Page.code : Page → Nat
  | .dev => 1 | .pen => 2 | .kps0 | .kps1 | .kps2 | .kps3 => 3 | .thm => 4 | .cal => 5 | .upd => 6 | .clk => 7
  | .seq => 8 | .mem => 9 | .hal0 | .hal1 | .hal2 | .hal3 => 0xA | .eth => 0xB | .lnk0 | .lnk1 => 0xC
  | .jst0 | .jst1 => 0xD | .bnd0 | .bnd1 => 0xE | .scr => 0xF | .ft | .en | .hl | .lk => 0x10 | .fbk => 0x11
  | .ax0 | .ax1 => 0x12 | .mgp => 0x13

/-- R59: page index within the instance. -/
def Page.index : Page → Nat
  | .kps1 | .hal1 | .lnk1 | .jst1 | .bnd1 | .en | .ax1 => 1
  | .kps2 | .hal2 | .hl => 2
  | .kps3 | .hal3 | .lk => 3
  | _ => 0

/-- R364: the island that holds a page (R26); DEDUCED (log 14) for the UPD and CAL pages. -/
def Page.island (p : Page) (inst : Nat) : Nat :=
  match p with
  | .dev | .clk | .thm => 29
  | .kps0 | .kps1 | .kps2 | .kps3 => 27
  | .pen => 0
  | .cal | .upd => 28
  | .seq | .mem | .jst0 | .jst1 | .bnd0 | .bnd1 => 25
  | .hal0 | .hal1 | .hal2 | .hal3 | .eth | .lnk0 | .lnk1 => 26
  | .scr => 1 + inst
  | .ft | .en | .hl | .lk | .fbk => 9 + inst / 12
  | .ax0 | .ax1 | .mgp => 17 + inst / (if p = .mgp then 1 else 12)

end Sys2Proof

namespace Sys2Proof.Machine

/-- BAR0 address of a page offset. -/
def regAddr (p : Page) (inst off : Nat) : Nat := p.base + p.stride * inst + off

/-- The page kind, instance and offset at a BAR0 address, if a page stands there. -/
def locate (a : Nat) : Option (Page × Nat × Nat) :=
  (Page.all.find? fun p => p.base ≤ a && (a - p.base) / p.stride < p.count && (a - p.base) % p.stride < 0x1000).map
    fun p => (p, (a - p.base) / p.stride, (a - p.base) % p.stride)

/-- R397, R421: THM_NBR of a sensor: between 2 and 4 neighbours. -/
def thmNbrWord (k : Nat) : Word :=
  let w := (Config.thmNbr k).toNat
  BitVec.ofNat 32 (w % 2 ^ 24 + 2 ^ 24 * (2 + w / 2 ^ 24 % 3))

/-- The Reset words that the field tables do not give by a number: straps, die values, values by profile, values by
index (R77, R108, R138, R174, R175, R176, R197, R230, R391, R412, R421, R422). -/
def specialReset (ul24 : Bool) (p : Page) (inst off : Nat) : Option Word :=
  match p with
  | .dev =>
    if off = 0x44 then some (Config.devSilrev.setWidth 32)
    else if off = 0x4C then some (if ul24 then 0x00606018 else 0x00606060)
    else if off = 0x50 then some (Config.devUid.setWidth 32)
    else if off = 0x54 then some ((Config.devUid >>> 32).setWidth 32)
    else none
  | .bnd0 => if off = 0x50 then some (if ul24 then 0xFFFF else 0xFFFFFFFF)
             else if off = 0x54 then some (if ul24 then 0 else 0xFFFFFFFF) else none
  | .scr =>
    if 0x100 ≤ off ∧ off < 0x400 ∧ 8 ≤ off % 0x40 ∧ off % 0x40 < 0x18
    then some (BitVec.ofNat 32 (0x80000000 + 3072 * 2 ^ 16 + 3072 * ((off % 0x40 - 8) / 4))) else none
  | .ft =>
    if 0x100 ≤ off ∧ off < 0x118 ∨ 0x2C0 ≤ off ∧ off < 0x2E4 then
      (if inst % 12 ≠ 0 then some 0
       else if off = 0x100 then some (if ul24 then 1 else 0)
       else if off = 0x2C0 then some (BitVec.ofNat 32 inst) else none)
    else none
  | .lk => if off = 0x40 then some (if ul24 then 0x03E80003 else 0x03E80013) else none
  | .en =>
    if off = 0x40 then some (if ul24 then 0 else 1)
    else if 0x50 ≤ off ∧ off < 0x70 then
      some (BitVec.ofNat 32 ((400 + 32 * ((off - 0x50) / 2 + 1)) * 2 ^ 16 + (400 + 32 * ((off - 0x50) / 2)))) else none
  | .kps0 => if off = 0x48 ∨ off = 0x4C ∨ off = 0x50 then some 0xFFFFFFFF else none
  | .thm => if 0x180 ≤ off ∧ off < 0x280 then some (thmNbrWord ((off - 0x180) / 4)) else none
  | .cal =>
    if 0x100 ≤ off ∧ off < 0xF00 ∧ (off - 0x100) % 0x1C0 < 0x1A0 ∧ off % 16 < 12 then
      let k := (off - 0x100) % 0x1C0 / 16
      let r := off % 16 / 4
      let trim := Config.otpTrim ((off - 0x100) / 0x1C0 * 32 + k) r
      some (if k < 13 then trim &&& 0xFFFFFF else if r = 0 then trim else 0)
    else none
  | _ => none

/-- The Reset word of a page offset from the field tables. -/
def tableReset (p : Page) (off : Nat) : Word :=
  p.fields.foldl (fun w f => if f.at? off then f.set w f.reset else w) 0

/-- The Reset word at a BAR0 address. -/
def resetWord (ul24 : Bool) (a : Nat) : Word :=
  match locate a with
  | none => 0
  | some (p, inst, off) => (specialReset ul24 p inst off).getD (tableReset p off)

/-- The software-visible copy of the register word at a BAR0 address. -/
def State.word (s : State) (a : Nat) : Word := Sparse.get (resetWord s.ul24) s.regs a

/-- Set that word. -/
def State.setWord (s : State) (a : Nat) (w : Word) : State :=
  { s with regs := Sparse.put (resetWord s.ul24) s.regs a w }

/-- The active copy of a shadowed word (R73) or of a group word (R175). -/
def State.aword (s : State) (a : Nat) : Word := Sparse.get (resetWord s.ul24) s.active a

/-- Set the active copy. -/
def State.setAword (s : State) (a : Nat) (w : Word) : State :=
  { s with active := Sparse.put (resetWord s.ul24) s.active a w }

/-- Address of copy (i, j) of a field's register in an instance. -/
def Fld.addr (f : Fld) (inst : Nat := 0) (i : Nat := 0) (j : Nat := 0) : Nat :=
  regAddr f.page inst (f.off + i * f.s1 + j * f.s2)

/-- Read a field of the software-visible copy. -/
def State.fget (s : State) (f : Fld) (inst : Nat := 0) (i : Nat := 0) (j : Nat := 0) : Nat :=
  f.get (s.word (f.addr inst i j))

/-- Write a field of the software-visible copy. -/
def State.fput (s : State) (f : Fld) (v : Nat) (inst : Nat := 0) (i : Nat := 0) (j : Nat := 0) : State :=
  s.setWord (f.addr inst i j) (f.set (s.word (f.addr inst i j)) v)

/-- Read a field of the active copy. -/
def State.aget (s : State) (f : Fld) (inst : Nat := 0) (i : Nat := 0) (j : Nat := 0) : Nat :=
  f.get (s.aword (f.addr inst i j))

/-- A field as a Boolean: it reads 1. -/
def State.fbit (s : State) (f : Fld) (inst : Nat := 0) (i : Nat := 0) (j : Nat := 0) : Bool :=
  s.fget f inst i j == 1

/-- The same of the active copy. -/
def State.abit (s : State) (f : Fld) (inst : Nat := 0) (i : Nat := 0) (j : Nat := 0) : Bool :=
  s.aget f inst i j == 1

/-- A counter that saturates at its field's width goes up by n. -/
def State.fadd (s : State) (f : Fld) (n : Nat) (inst : Nat := 0) (i : Nat := 0) (j : Nat := 0) : State :=
  s.fput f (min (s.fget f inst i j + n) (2 ^ f.width - 1)) inst i j

/-- A signed reading of a w-bit value. -/
def signed (w v : Nat) : Int := (BitVec.ofNat w v).toInt

/-- The w-bit two's complement of an integer. -/
def unsign (w : Nat) (v : Int) : Nat := (BitVec.ofInt w v).toNat

/-- Read a field that spans two registers: the lower at `lo`, the upper at `hi` (R58). -/
def State.wide (s : State) (lo hi : Fld) (inst : Nat := 0) (i : Nat := 0) : Nat :=
  s.fget lo inst i + 2 ^ 32 * s.fget hi inst i

/-- The active copy of such a field. -/
def State.awide (s : State) (lo hi : Fld) (inst : Nat := 0) (i : Nat := 0) : Nat :=
  s.aget lo inst i + 2 ^ 32 * s.aget hi inst i

/-- Write both halves of such a field. -/
def State.putWide (s : State) (lo hi : Fld) (v : Nat) (inst : Nat := 0) (i : Nat := 0) : State :=
  (s.fput lo (v % 2 ^ 32) inst i).fput hi (v / 2 ^ 32) inst i

/-- An event sets its cause bit (R68). -/
def State.raise (s : State) (f : Fld) (inst : Nat := 0) : State := s.fput f 1 inst

/-- R36, R56: head ports present in the profile. -/
def State.portCount (s : State) : Nat := if s.ul24 then 24 else 96

/-- R448: when island i comes up in the boot under way: Sill (29) at step 1, Kingpost (27) at step 3, the others at step 4. -/
def State.upAt (s : State) (i : Nat) : Time := if i = 29 then s.sillAt else if i = 27 then s.kpsAt else s.powerAt

/-- R36, R448, R458: island i is powered and out of reset. -/
def State.islandOn (s : State) (i : Nat) : Bool := (s.fget Reg.CLK_ISL_ON_ON).testBit i && decide (s.upAt i ≤ s.now)

/-- R56, R449: the page of this instance is present. -/
def State.present (s : State) (p : Page) (inst : Nat) : Bool :=
  !s.porst && decide (inst < p.count) && s.islandOn (p.island inst) &&
  (match p with
   | .ft | .en | .hl | .lk => decide (inst < s.portCount)
   | _ => true)

/-- R66: the page is unlocked. -/
def State.unlocked (s : State) (p : Page) (inst : Nat) : Bool := s.word (regAddr p inst 0x24) == 1

/-- R66: lock or unlock the page. -/
def State.setLock (s : State) (p : Page) (inst : Nat) (unlock : Bool) : State :=
  s.setWord (regAddr p inst 0x24) (if unlock then 1 else 0)

end Sys2Proof.Machine
end

