-- ==== Sys2Proof/Machine/Ops.lean ====
section
/-! DEFINITION. The named operations every family uses: time, records of instances, fixed-point rounding, free
values, byte memories, CRC-32C (R93, R158), and sending a fault message (R363 to R367, R476). -/

namespace Sys2Proof.Machine

/-- Picoseconds of a nanosecond, a microsecond and a millisecond (R19). -/
abbrev ns : Nat := 1000
abbrev us : Nat := 1000000
abbrev ms : Nat := 1000000000

/-- A command comes at instant t (log 1): time never runs backwards. -/
def State.at (s : State) (t : Time) : State := { s with now := max s.now t }

/-- R329: a comes after b in the numbering modulo 2³² (pages, generations, sequence numbers). -/
def laterPage (a b : Nat) : Bool :=
  let d := (a + 2 ^ 32 - b % 2 ^ 32) % 2 ^ 32
  decide (0 < d ∧ d < 2 ^ 31)

/-- R432: copy 1 of the boot directory is the one that Sill uses: of two valid copies, the one with the later generation. -/
def Upd.useB (u : Upd) : Bool :=
  match u.copy0, u.copy1 with
  | some a, some b => laterPage b.gen a.gen
  | none, some _ => true
  | _, none => false

/-- R432: the boot directory as the copy in use holds it. -/
def Upd.dir (u : Upd) : Dir := ((if u.useB then u.copy1 else u.copy0).getD Dir.reset)

/-- R432: the copy that is not in use is written. -/
def Upd.putDir (u : Upd) (d : Dir) : Upd := if u.useB then { u with copy0 := some d } else { u with copy1 := some d }

/-- R342: in D3hot the endpoint answers configuration requests only: the host's access does not reach its target. -/
def State.shutTo (s : State) (m : Master) : Bool := m == .host && !s.pcie.d0

/-- A master's access acts, unless the endpoint does not answer it. -/
def State.by (s : State) (m : Master) (f : State → State) : State := if s.shutTo m then s else f s

/-- R473: an event on a pin that the boundary register covers reaches the functional logic, unless a boundary
instruction has disconnected it. -/
def State.pins (s : State) (f : State → State) : State := if s.tap.disconnected then s else f s

/-- Head port p. -/
def State.port (s : State) (p : Nat) : Port := Sparse.get (fun _ => Port.reset) s.ports p
/-- Replace head port p. -/
def State.setPort (s : State) (p : Nat) (x : Port) : State :=
  { s with ports := Sparse.put (fun _ => Port.reset) s.ports p x }
/-- Change head port p. -/
def State.modPort (s : State) (p : Nat) (f : Port → Port) : State := s.setPort p (f (s.port p))

/-- The page flow of port p. -/
def State.flow (s : State) (p : Nat) : Flow := (s.port p).flow
/-- Change the page flow of port p. -/
def State.modFlow (s : State) (p : Nat) (f : Flow → Flow) : State :=
  s.modPort p fun x => { x with flow := f x.flow }

/-- Ring of port p. -/
def State.ring (s : State) (p : Nat) : Ring := Sparse.get (fun _ => Ring.reset) s.rings p
/-- Replace the ring of port p. -/
def State.setRing (s : State) (p : Nat) (x : Ring) : State :=
  { s with rings := Sparse.put (fun _ => Ring.reset) s.rings p x }
/-- Change the ring of port p. -/
def State.modRing (s : State) (p : Nat) (f : Ring → Ring) : State := s.setRing p (f (s.ring p))

/-- The pulses of a phase make room at instant t: they join the recent ones (R381), with the latest end of a pulse (R417). A
pulse that ended 20 µs ago is forgotten: a high interval that began in its window has tripped the strobe watchdog since
(R379). -/
def Port.keepFall (x : Port) (t : Time) : Port :=
  { x with
    recent := (x.recent.filter fun q => decide (t ≤ q.fall + 20000 * ns)) ++ (x.flow.pulses.filter fun q => decide (q.rise < t)).map fun q => { q with fall := min t q.fall }
    lastFall := x.flow.pulses.foldl (fun e q => if q.rise < t then max e (min t q.fall) else e) x.lastFall }

/-- Feedback channel c. -/
def State.chan (s : State) (c : Nat) : Chan := Sparse.get (fun _ => Chan.reset) s.chans c
/-- Replace feedback channel c. -/
def State.setChan (s : State) (c : Nat) (x : Chan) : State :=
  { s with chans := Sparse.put (fun _ => Chan.reset) s.chans c x }
/-- Change feedback channel c. -/
def State.modChan (s : State) (c : Nat) (f : Chan → Chan) : State := s.setChan c (f (s.chan c))

/-- Stepper axis a. -/
def State.axis (s : State) (a : Nat) : Axis := Sparse.get (fun _ => Axis.reset) s.axes a
/-- Replace axis a. -/
def State.setAxis (s : State) (a : Nat) (x : Axis) : State :=
  { s with axes := Sparse.put (fun _ => Axis.reset) s.axes a x }
/-- Change axis a. -/
def State.modAxis (s : State) (a : Nat) (f : Axis → Axis) : State := s.setAxis a (f (s.axis a))

/-- Motion group g. -/
def State.mgroup (s : State) (g : Nat) : MGroup := Sparse.get (fun _ => MGroup.reset) s.mgroups g
/-- Change motion group g. -/
def State.modMgroup (s : State) (g : Nat) (f : MGroup → MGroup) : State :=
  { s with mgroups := Sparse.put (fun _ => MGroup.reset) s.mgroups g (f (s.mgroup g)) }

/-- Interpolation set k of motion group g. -/
def State.mset (s : State) (g k : Nat) : MSet := Sparse.get (fun _ => MSet.reset) s.msets (2 * g + k)
/-- Change interpolation set k of motion group g. -/
def State.modMset (s : State) (g k : Nat) (f : MSet → MSet) : State :=
  { s with msets := Sparse.put (fun _ => MSet.reset) s.msets (2 * g + k) (f (s.mset g k)) }

/-- Channel c of Joist engine e. -/
def State.jchan (s : State) (e c : Nat) : JChan := Sparse.get (fun _ => JChan.reset) s.jchans (16 * e + c)
/-- Change channel c of Joist engine e. -/
def State.modJchan (s : State) (e c : Nat) (f : JChan → JChan) : State :=
  { s with jchans := Sparse.put (fun _ => JChan.reset) s.jchans (16 * e + c) (f (s.jchan e c)) }

/-- Joist engine e. -/
def State.engine (s : State) (e : Nat) : Engine := Sparse.get (fun _ => Engine.reset) s.engines e
/-- Change Joist engine e. -/
def State.modEngine (s : State) (e : Nat) (f : Engine → Engine) : State :=
  { s with engines := Sparse.put (fun _ => Engine.reset) s.engines e (f (s.engine e)) }

/-- Ethernet port e. -/
def State.eth (s : State) (e : Nat) : Eth := Sparse.get (fun _ => Eth.reset) s.eths e
/-- Change Ethernet port e. -/
def State.modEth (s : State) (e : Nat) (f : Eth → Eth) : State :=
  { s with eths := Sparse.put (fun _ => Eth.reset) s.eths e (f (s.eth e)) }

/-- Bexgar link L. -/
def State.bx (s : State) (L : Nat) : BxLink := Sparse.get (fun _ => BxLink.reset) s.lnk.links L
/-- Change Bexgar link L. -/
def State.modBx (s : State) (L : Nat) (f : BxLink → BxLink) : State :=
  { s with lnk := { s.lnk with links := Sparse.put (fun _ => BxLink.reset) s.lnk.links L (f (s.bx L)) } }

/-- Transmit stream n. -/
def State.txs (s : State) (n : Nat) : TxStream := Sparse.get (fun _ => TxStream.reset) s.lnk.tx n
/-- Change transmit stream n. -/
def State.modTx (s : State) (n : Nat) (f : TxStream → TxStream) : State :=
  { s with lnk := { s.lnk with tx := Sparse.put (fun _ => TxStream.reset) s.lnk.tx n (f (s.txs n)) } }

/-- Receive stream n. -/
def State.rxs (s : State) (n : Nat) : RxStream := Sparse.get (fun _ => RxStream.reset) s.lnk.rx n
/-- Change receive stream n. -/
def State.modRx (s : State) (n : Nat) (f : RxStream → RxStream) : State :=
  { s with lnk := { s.lnk with rx := Sparse.put (fun _ => RxStream.reset) s.lnk.rx n (f (s.rxs n)) } }

/-- Calibration channel c (R411). -/
def State.cal (s : State) (c : Nat) : CalChan := Sparse.get (fun _ => CalChan.reset) s.cals c
/-- Change calibration channel c. -/
def State.modCal (s : State) (c : Nat) (f : CalChan → CalChan) : State :=
  { s with cals := Sparse.put (fun _ => CalChan.reset) s.cals c (f (s.cal c)) }

/-- Apply an operation for every number of a list, in order. -/
def State.forEach (s : State) (l : List Nat) (f : State → Nat → State) : State := l.foldl f s

/-- Apply an operation when a condition holds. -/
def State.when (s : State) (c : Bool) (f : State → State) : State := if c then f s else s

/-- The ports of the profile (R7). -/
def State.portList (s : State) : List Nat := List.range s.portCount

/-- R14: the members of group g. -/
def members (g : Nat) : List Nat := (List.range 12).map (12 * g + ·)

/-- Draw a free value (log 8): nothing is known of it. -/
def State.drawn (s : State) : Nat := Config.freeValue s.free
/-- The state after a free value has been drawn. -/
def State.drew (s : State) : State := { s with free := s.free + 1 }

/-- log 11: the multiple of 1/2^n that stands for x: x itself where it is one, else the neighbour above or below that
rounding site `k` takes (the spec names no rounding there). -/
def fix (k n : Nat) (x : Rat) : Rat :=
  let y := x * (2 ^ n : Nat)
  (if y.floor = y.ceil then (y.floor : Rat)
   else if Config.roundsUp k x then (y.ceil : Rat) else (y.floor : Rat)) / (2 ^ n : Nat)

/-- The integer that stands for x at rounding site k (log 11). -/
def fixInt (k : Nat) (x : Rat) : Int :=
  if x.floor = x.ceil then x.floor else if Config.roundsUp k x then x.ceil else x.floor

/-- Rounding toward zero. -/
def truncInt (x : Rat) : Int := if x < 0 then -((-x).floor) else x.floor

/-- An integer held within a signed field of w bits. -/
def satS (w : Nat) (v : Int) : Int := max (-(2 ^ (w - 1) : Nat)) (min ((2 ^ (w - 1) : Nat) - 1) v)

/-- A natural number held within w bits. -/
def satU (w v : Nat) : Nat := min v (2 ^ w - 1)

/-- A byte of a memory whose unlisted bytes read as d. -/
def memGet (d : Byte) (m : List Host.Cell) (a : Nat) : Byte := Sparse.get (fun _ => d) m a

/-- The n bytes from address a. -/
def memBytes (d : Byte) (m : List Host.Cell) (a n : Nat) : List Byte := (List.range n).map fun i => memGet d m (a + i)

/-- Write bytes from address a on. -/
def memPut (d : Byte) (m : List Host.Cell) (a : Nat) (bs : List Byte) : List Host.Cell :=
  Sparse.putList (fun _ => d) m a bs

/-- A little-endian number from bytes. -/
def leNat : List Byte → Nat
  | [] => 0
  | b :: bs => b.toNat + 256 * leNat bs

/-- The n little-endian bytes of a number. -/
def leBytes : Nat → Nat → List Byte
  | 0, _ => []
  | n + 1, v => BitVec.ofNat 8 v :: leBytes n (v / 256)

/-- π as the device uses it, to the figures of the spec's own examples: 500 π is 1,570.796 (the example under R283), 4,000 π is
12,566 (R207). Its further precision is open (log 10). -/
def pi : Rat := max (3141591 / 1000000) (min (3141593 / 1000000) Config.pi)

/-- R88: the pointer of a position counted in bytes since the region was reset. -/
def Ptr.ofPos (size pos : Nat) : Ptr :=
  if size = 0 then ⟨0, false⟩ else ⟨pos % size, pos / size % 2 == 1⟩

/-- R88: bytes from one pointer forward to another. -/
def Ptr.ahead (a b : Ptr) (size : Nat) : Nat :=
  let pos (p : Ptr) : Nat := p.off + if p.wrap then size else 0
  (pos b + 2 * size - pos a) % (2 * size)

/-- R88: a pointer n bytes further on. -/
def Ptr.step (a : Ptr) (n size : Nat) : Ptr :=
  if a.off + n < size then ⟨a.off + n, a.wrap⟩ else ⟨a.off + n - size, !a.wrap⟩

/-- R88: the pointer that a register value spells. -/
def Ptr.ofWord (w : Word) : Ptr := ⟨w.toNat % 2 ^ 28, w.getLsbD 31⟩

/-- R88: the register value of a pointer. -/
def Ptr.word (a : Ptr) : Word := BitVec.ofNat 32 (a.off % 2 ^ 28 + if a.wrap then 2 ^ 31 else 0)

/-- R158: one bit step of the reflected CRC-32C. -/
def crcStep : Nat → BitVec 32 → BitVec 32
  | 0, c => c
  | k + 1, c => crcStep k (if c.getLsbD 0 then (c >>> 1) ^^^ 0x82F63B78 else c >>> 1)

/-- R93, R158: CRC-32C, reflected, initial value and final XOR 0xFFFF_FFFF. -/
def crc32c (bs : List Byte) : BitVec 32 :=
  (bs.foldl (fun c b => crcStep 8 (c ^^^ b.setWidth 32)) 0xFFFFFFFF) ^^^ 0xFFFFFFFF

/-- A bit of a register. -/
def bitOf (b : Bool) : Nat := if b then 1 else 0

/-- A mask of the bits in a list. -/
def maskOf (l : List Nat) : Nat := l.foldl (fun m i => m ||| 2 ^ i) 0

/-- Add a number to a set held as a rising list without repeats. -/
def insertNat : Nat → List Nat → List Nat
  | a, [] => [a]
  | a, b :: l => if a < b then a :: b :: l else if a = b then b :: l else b :: insertNat a l

/-- R363: a fault message. -/
def msgWord (cls inst kind sev detail : Nat) : Word :=
  BitVec.ofNat 32 (cls % 8 * 2 ^ 29 + inst % 128 * 2 ^ 22 + kind % 64 * 2 ^ 16 + sev % 4 * 2 ^ 14 + detail % 2 ^ 14)

/-- R363: SOURCE of a message. -/
def msgSource (w : Word) : Nat := w.toNat / 2 ^ 22
/-- R363: class of the source. -/
def msgClass (w : Word) : Nat := w.toNat / 2 ^ 29
/-- R363: instance of the source. -/
def msgInst (w : Word) : Nat := w.toNat / 2 ^ 22 % 128
/-- R363: KIND. -/
def msgKind (w : Word) : Nat := w.toNat / 2 ^ 16 % 64
/-- R363: reported severity. -/
def msgSev (w : Word) : Nat := w.toNat / 2 ^ 14 % 4
/-- R363: DETAIL. -/
def msgDetail (w : Word) : Nat := w.toNat % 2 ^ 14

/-- R476: the island path of a source. -/
def msgPath (cls inst : Nat) : Nat :=
  match cls with
  | 0 =>
    if inst = 0 ∨ inst = 5 ∨ inst = 3 ∨ inst = 6 ∨ inst = 14 then 29
    else if inst = 1 then 0
    else if inst = 2 then 27
    else if inst = 4 ∨ inst = 15 then 28
    else if inst = 7 ∨ inst = 8 ∨ inst = 13 ∨ (16 ≤ inst ∧ inst < 24) then 25
    else if 9 ≤ inst ∧ inst ≤ 12 then 26
    else if 24 ≤ inst ∧ inst < 32 then 1 + (inst - 24)
    else 29
  | 1 => 9 + inst / 12
  | 2 => 9 + inst / 12
  | 3 => 17 + inst / 12
  | 4 => 17 + inst
  | 5 => inst
  | _ => 29

/-- The message path of island i. -/
def State.path (s : State) (i : Nat) : MsgPath := Sparse.get (fun _ => MsgPath.reset) s.kps.paths i
/-- Replace the message path of island i. -/
def State.setPath (s : State) (i : Nat) (x : MsgPath) : State :=
  { s with kps := { s.kps with paths := Sparse.put (fun _ => MsgPath.reset) s.kps.paths i x } }

/-- R367: a word enters an island's queue of 16, or is lost and counted. -/
def State.post (s : State) (i : Nat) (w : Word) : State :=
  let q := s.path i
  if q.queue.length < 16 then s.setPath i { q with queue := q.queue ++ [w] }
  else s.setPath i { q with lost := min (q.lost + 1) 16383 }

/-- R367: the source sends a fault message over the path of its island. -/
def State.send (s : State) (cls inst kind sev detail : Nat) : State :=
  s.post (msgPath cls inst) (msgWord cls inst kind sev detail)

/-- R363, R365: kinds of fault messages. -/
abbrev kindStbStuck := 0x01
abbrev kindStbRogue := 0x02
abbrev kindHeadCrit := 0x03
abbrev kindHeadHot := 0x04
abbrev kindRtLoss := 0x05
abbrev kindLink := 0x06
abbrev kindHeadFlag := 0x07
abbrev kindEnergy := 0x08
abbrev kindNatUe := 0x09
abbrev kindTableUe := 0x0A
abbrev kindDataUe := 0x0B
abbrev kindEncLoss := 0x0C
abbrev kindFbkFault := 0x0D
abbrev kindIndex := 0x0E
abbrev kindMotion := 0x0F
abbrev kindStall := 0x10
abbrev kindVbus := 0x11
abbrev kindClkLoss := 0x12
abbrev kindLockstep := 0x13
abbrev kindDieOtp := 0x14
abbrev kindSensorFail := 0x15
abbrev kindThrottle := 0x16
abbrev kindCal := 0x17
abbrev kindUpdate := 0x18
abbrev kindTimeStep := 0x19
abbrev kindBexgar := 0x1A
abbrev kindSafeRb := 0x1B
abbrev kindKpsWdog := 0x1C
abbrev kindSelftest := 0x1D
abbrev kindMgmtWdog := 0x1E
abbrev kindMsgLost := 0x1F

/-- R346: the errors of the correctable kind. -/
def aerCorrectable : AerErr → Bool
  | .receiver | .badTlp | .badDllp | .replayRollover | .replayTimeout | .advisory | .correctedInternal | .headerOverflow => true
  | _ => false

/-- R346: the bit of an error in its AER status word, as the PCI Express base specification numbers them (log 151). -/
def aerBit : AerErr → Nat
  | .receiver => 0 | .badTlp => 6 | .badDllp => 7 | .replayRollover => 8 | .replayTimeout => 12 | .advisory => 13
  | .correctedInternal => 14 | .headerOverflow => 15
  | .dataLink => 4 | .surpriseDown => 5 | .poisoned => 12 | .completionTimeout => 14 | .completerAbort => 15
  | .unexpectedCompletion => 16 | .receiverOverflow => 17 | .malformed => 18 | .ecrc => 19 | .unsupported => 20
  | .internal => 22

/-- R346: the errors whose header is logged (log 151). -/
def aerLogsHeader : AerErr → Bool
  | .poisoned | .completerAbort | .unexpectedCompletion | .malformed | .ecrc | .unsupported => true
  | _ => false

/-- R346: an error is reported on the link, while it is up, under its severity (log 151). -/
def Pcie.report (p : Pcie) (k : ErrReport) : Pcie := if p.linkUp then { p with aerReport := some k } else p

/-- R346: a correctable error is logged and reported. -/
def State.aerCor (s : State) (x : AerErr) : State :=
  let p := s.pcie.report .correctable
  State.raise (State.fadd { s with pcie := { p with aerCor := p.aerCor ||| BitVec.ofNat 32 (2 ^ aerBit x) } }
    Reg.PEN_AER_COR_COUNT 1) Reg.PEN_CAUSE_AER_COR

/-- R346: an error is logged and reported: its status bit, its count and its cause; an uncorrectable one with a header fills
the header log, or, while the log holds another's, is a Header Log Overflow. It is fatal where its severity bit is set. -/
def State.aer (s : State) (x : AerErr) (header : List Word) : State :=
  if aerCorrectable x then s.aerCor x
  else
    let p := s.pcie.report (if s.pcie.aerSev.getLsbD (aerBit x) then .fatal else .nonFatal)
    let p := { p with aerUnc := p.aerUnc ||| BitVec.ofNat 32 (2 ^ aerBit x) }
    let full := p.aerFirst.isSome
    let p := if full then p
      else { p with aerFirst := some x, aerHeader := if aerLogsHeader x then (header ++ [0, 0, 0, 0]).take 4 else p.aerHeader }
    let s := State.raise (State.fadd { s with pcie := p } Reg.PEN_AER_UNC_COUNT 1) Reg.PEN_CAUSE_AER_UNC
    s.when (full && aerLogsHeader x) fun s => s.aerCor .headerOverflow

/-- Four words that nothing states: a header. -/
def State.freeHeader (s : State) : List Word := (List.range 4).map fun i => BitVec.ofNat 32 (s.drawn / 2 ^ (32 * i))

/-- R39: the device state. -/
def State.devState (s : State) : SeqState :=
  let has (q : SeqState) : Bool := s.ports.any fun e => decide (e.2.sq = q)
  if has .printing then .printing else if has .draining then .draining else if has .boundary then .boundary
  else if has .armed then .armed else .idle

/-- R47: the encoding of a sequencer state. -/
def SeqState.code : SeqState → Nat
  | .idle => 0 | .armed => 1 | .printing => 2 | .draining => 3 | .boundary => 4

/-- R48: the encoding of a port state. -/
def PortState.code : PortState → Nat
  | .off => 0 | .service => 1 | .standby => 2 | .ready => 3 | .printing => 4 | .hotHold => 5 | .safe => 6

/-- R478: the port is in its page flow. -/
def Port.inFlow (x : Port) : Bool := x.st == .printing || x.st == .hotHold

/-- The word of a store holds an uncorrectable error (R35, log 12). -/
def State.isUe (s : State) (k : Store) (a : Nat) : Bool := s.ue.contains (k, a)
/-- The word holds a correctable error. -/
def State.isCe (s : State) (k : Store) (a : Nat) : Bool := s.ce.contains (k, a)
/-- R35: an access corrects a correctable word; a write of the whole word rewrites its check bits. -/
def State.mend (s : State) (k : Store) (a : Nat) : State := { s with ce := s.ce.filter (· ≠ (k, a)) }
/-- A word is written, whole or by one of its 32-bit halves: its check bits are new, it holds no error (log 12). -/
def State.clearEcc (s : State) (k : Store) (a : Nat) : State :=
  { s with ce := s.ce.filter (· ≠ (k, a)), ue := s.ue.filter (· ≠ (k, a)) }

end Sys2Proof.Machine
end

