-- ==== Sys2Proof/Machine/Fit.lean ====
section
/-! DEFINITION. What the tables and the configuration of a port give: NAT entries and widths, geometry (R112 to R117),
row delays (R214), slot plan (R149, R150) and the fit of a port in its slot (R141, R144, R152, R161). -/

namespace Sys2Proof.Machine

/-- R121: the reset content of a NAT entry. -/
abbrev natDefault : Word := 0xC8000000

/-- R120: the shadow copy of NAT entry j of port p. -/
def State.natS (s : State) (p j : Nat) : Word := Sparse.get (fun _ => natDefault) s.natShadow (12288 * p + j)
/-- The active copy. -/
def State.natA (s : State) (p j : Nat) : Word := Sparse.get (fun _ => natDefault) s.natActive (12288 * p + j)
/-- Write the shadow copy; bits [15:14] are reserved (R119). The check bits of its word are new (R35, log 12). -/
def State.setNatS (s : State) (p j : Nat) (w : Word) : State :=
  { s with natShadow := Sparse.put (fun _ => natDefault) s.natShadow (12288 * p + j) (w &&& 0xFFFF3FFF) }.clearEcc .natShadow
    ((12288 * p + j) / 2)
/-- Write the active copy. -/
def State.setNatA (s : State) (p j : Nat) (w : Word) : State :=
  { s with natActive := Sparse.put (fun _ => natDefault) s.natActive (12288 * p + j) (w &&& 0xFFFF3FFF) }.clearEcc .nat
    ((12288 * p + j) / 2)

/-- R119: HEALTH. -/
def natHealth (w : Word) : Nat := w.toNat / 2 ^ 30
/-- R119: MASK. -/
def natMask (w : Word) : Bool := w.getLsbD 29
/-- R119: SUBST_EN. -/
def natSubstEn (w : Word) : Bool := w.getLsbD 28
/-- R119: WSCALE. -/
def natWscale (w : Word) : Nat := w.toNat / 2 ^ 22 % 64
/-- R119: DENSITY_ADJ. -/
def natDensity (w : Word) : Int := signed 6 (w.toNat / 2 ^ 16)
/-- R119: SUBST. -/
def natSubst (w : Word) : Nat := w.toNat % 2 ^ 14
/-- R130: a nozzle is hidden. -/
def natHidden (w : Word) : Bool := natMask w || natHealth w == 2

/-- R183: the reset content of word k of a port's width block: HIST_MAP 0x5555, everything else 0; R195: HIST_MAP
reads 0 in the UL-24 profile. -/
def widthDefault (ul24 : Bool) (a : Nat) : Word := if a % 128 = 96 ∧ !ul24 then 0x5555 else 0

/-- R183: the shadow copy of word k of the block of port p. -/
def State.widthS (s : State) (p k : Nat) : Word := Sparse.get (widthDefault s.ul24) s.widthShadow (128 * p + k)
/-- The active copy. -/
def State.widthA (s : State) (p k : Nat) : Word := Sparse.get (widthDefault s.ul24) s.widthActive (128 * p + k)
/-- Write the shadow copy. -/
def State.setWidthS (s : State) (p k : Nat) (w : Word) : State :=
  { s with widthShadow := Sparse.put (widthDefault s.ul24) s.widthShadow (128 * p + k) w }.clearEcc .widthShadow
    ((128 * p + k) / 2)
/-- Write the active copy. -/
def State.setWidthA (s : State) (p k : Nat) (w : Word) : State :=
  { s with widthActive := Sparse.put (widthDefault s.ul24) s.widthActive (128 * p + k) w }.clearEcc .width
    ((128 * p + k) / 2)

/-- R183: the word of the block that holds W for class x, band b, die d. -/
def widthWord (x b d : Nat) : Nat := 32 * x + 2 * b + d / 2

/-- R182, R183: W of class x, band b and die d of the active table, held at 16,384. -/
def State.widthOf (s : State) (p x b d : Nat) : Nat :=
  min 16384 ((s.widthA p (widthWord x b d)).toNat / 2 ^ (16 * (d % 2)) % 2 ^ 16)

/-- R159: present dies: DIEd.PRESENT of the active copy; in the UL-24 profile the dies that the head named. -/
def State.dies (s : State) (p : Nat) : List Nat :=
  (List.range 4).filter fun d =>
    if s.ul24 then (s.fget Reg.LK_ID2_DIES p).testBit d else s.abit Reg.SCR_DIE_PRESENT (p / 12) (p % 12) d

/-- R112: rows of a die. -/
def State.dieRows (s : State) (p d : Nat) : Nat := 1 + s.aget Reg.SCR_DIE_REDUND (p / 12) (p % 12) d
/-- R112: columns that a die serves. -/
def State.dieSpan (s : State) (p d : Nat) : Nat := s.aget Reg.SCR_DIE_NOZZLES (p / 12) (p % 12) d / s.dieRows p d
/-- R112: lowest column of a die. -/
def State.dieBase (s : State) (p d : Nat) : Nat := s.aget Reg.SCR_DIE_COL_BASE (p / 12) (p % 12) d
/-- Highest column of a die, plus one. -/
def State.dieEnd (s : State) (p d : Nat) : Nat := s.dieBase p d + s.dieSpan p d

/-- Put a die into a list ordered by lowest column. -/
def State.insertDie (s : State) (p d : Nat) : List Nat → List Nat
  | [] => [d]
  | e :: l => if s.dieBase p d < s.dieBase p e then d :: e :: l else e :: s.insertDie p d l

/-- R113: the present dies ordered by their lowest column. -/
def State.dieOrder (s : State) (p : Nat) : List Nat := (s.dies p).foldl (fun l d => s.insertDie p d l) []

/-- Neighbours at distance one of a list. -/
def pairs1 : List Nat → List (Nat × Nat)
  | a :: b :: l => (a, b) :: pairs1 (b :: l)
  | _ => []

/-- Neighbours at distance two of a list. -/
def pairs2 : List Nat → List (Nat × Nat)
  | a :: b :: c :: l => (a, c) :: pairs2 (b :: c :: l)
  | _ => []

/-- R113: the active geometry of a port is valid. The UL-24 profile has no geometry (R135). -/
def State.geomOk (s : State) (p : Nat) : Bool :=
  let g := p / 12; let m := p % 12
  let ds := s.dieOrder p
  let cols := (s.ring p).cols
  let lseam := s.aget Reg.SCR_SEAM_LSEAM g m
  let rseam := s.aget Reg.SCR_SEAM_RSEAM g m
  s.ul24 ||
  (!ds.isEmpty &&
   ds.all (fun d => let n := s.aget Reg.SCR_DIE_NOZZLES g m d; n % 16 == 0 && decide (16 ≤ n) && decide (n ≤ 3072)) &&
   ds.all (fun d => decide (s.dieEnd p d ≤ cols)) &&
   (pairs1 ds).all (fun e => decide (s.dieBase p e.1 ≠ s.dieBase p e.2) && decide (s.dieEnd p e.1 < s.dieEnd p e.2)
      && decide (s.dieEnd p e.1 ≤ s.dieBase p e.2 + 256)) &&
   (pairs2 ds).all (fun e => decide (s.dieEnd p e.1 ≤ s.dieBase p e.2)) &&
   decide (lseam ≤ 256) && decide (rseam ≤ 256) && decide (lseam + rseam ≤ cols))

/-- R214: the present die-rows of a port. -/
def State.dieRowList (s : State) (p : Nat) : List (Nat × Nat) :=
  if s.ul24 then [] else
  (s.dies p).flatMap fun d => (List.range (s.dieRows p d)).map fun r => (d, r)

/-- R214: O_dr, in print lines. -/
def State.rowOfs (s : State) (p d r : Nat) : Rat :=
  if s.ul24 then 0 else (signed 32 (s.aget Reg.PL_ROWOFS_O p (2 * d + r)) : Rat) / 65536

/-- The least of a list of rationals; 0 of an empty one. -/
def minRat : List Rat → Rat
  | [] => 0
  | a :: l => l.foldl min a

/-- The greatest of a list of rationals; 0 of an empty one. -/
def maxRat : List Rat → Rat
  | [] => 0
  | a :: l => l.foldl max a

/-- R214: olo. -/
def State.olo (s : State) (p : Nat) : Rat := minRat ((s.dieRowList p).map fun e => s.rowOfs p e.1 e.2)
/-- R214: the whole-line delay k_dr. -/
def State.rowK (s : State) (p d r : Nat) : Int := (s.rowOfs p d r - s.olo p + 1 / 2).floor
/-- R214: e_dr. -/
def State.rowE (s : State) (p d r : Nat) : Rat := s.rowOfs p d r - s.olo p - s.rowK p d r
/-- R214: the fractions of all present die-rows. -/
def State.rowEs (s : State) (p : Nat) : List Rat := (s.dieRowList p).map fun e => s.rowE p e.1 e.2
/-- R214: ctr. -/
def State.rowCtr (s : State) (p : Nat) : Rat := s.olo p + (maxRat (s.rowEs p) + minRat (s.rowEs p)) / 2
/-- R214: resid. -/
def State.rowResid (s : State) (p : Nat) : Rat := (maxRat (s.rowEs p) - minRat (s.rowEs p)) / 2
/-- R214: kmax. -/
def State.kmax (s : State) (p : Nat) : Nat :=
  ((s.dieRowList p).map fun e => (s.rowK p e.1 e.2).toNat).foldl max 0
/-- R216: some k_dr exceeds 7. -/
def State.rowSpan (s : State) (p : Nat) : Bool := decide (7 < s.kmax p)

/-- The group values of R175 that the plan and the fit depend on. -/
structure GroupCfg where
  fixed : Bool
  int : Nat
  frac : Nat
  maxActive : Nat
  grid : Nat
  deriving DecidableEq, Repr

/-- R175: the active group values of group g. -/
def State.groupA (s : State) (g : Nat) : GroupCfg :=
  ⟨s.abit Reg.GRP_PACE_FIXED (12 * g), s.aget Reg.GRP_PERIOD_INT_INT (12 * g), s.aget Reg.GRP_PERIOD_FRAC_FRAC (12 * g),
   s.aget Reg.GRP_MAX_ACTIVE_MAX (12 * g), s.aget Reg.GRP_GRID_GRID (12 * g)⟩

/-- R175: the pending group values. -/
def State.groupP (s : State) (g : Nat) : GroupCfg :=
  ⟨s.fbit Reg.GRP_PACE_FIXED (12 * g), s.fget Reg.GRP_PERIOD_INT_INT (12 * g), s.fget Reg.GRP_PERIOD_FRAC_FRAC (12 * g),
   s.fget Reg.GRP_MAX_ACTIVE_MAX (12 * g), s.fget Reg.GRP_GRID_GRID (12 * g)⟩

/-- R153: the line clock period in ns. -/
def GroupCfg.period (c : GroupCfg) : Rat := (c.int : Rat) + (c.frac : Rat) / (2 ^ 32 : Nat)

/-- R149: a member's slot: credit count, offset, window. -/
structure SlotCfg where
  cred : Nat
  ofs : Nat
  win : Nat
  deriving DecidableEq, Repr

/-- The slot of port p. -/
def State.slotOf (s : State) (p : Nat) : SlotCfg :=
  ⟨s.fget Reg.FT_SEQ_CRED p, s.fget Reg.FT_SLOT_OFS p, s.fget Reg.FT_SLOT_WIN p⟩

/-- R149: the peak of a plan. -/
def planPeak (c : GroupCfg) (l : List SlotCfg) : Nat :=
  if c.fixed then
    ((0 :: l.map (·.ofs)).filter (fun t => decide (t < c.grid))).foldl
      (fun m t => max m ((l.filter fun x => decide (x.ofs ≤ t ∧ t < x.ofs + x.win)).foldl (fun n x => n + x.cred) 0)) 0
  else l.foldl (fun n x => n + x.cred) 0

/-- R149: a plan is valid. -/
def planOk (c : GroupCfg) (l : List SlotCfg) : Bool := decide (planPeak c l ≤ c.maxActive)

/-- The slots of the members of group g. -/
def State.slots (s : State) (g : Nat) : List SlotCfg := (members g).map s.slotOf

/-- R154: a symbol time of the fire link, in ns. -/
def State.symTime (s : State) (p : Nat) : Rat := 25 / ((s.fget Reg.LK_CFG_RATE p : Rat) + 1)

/-- R160: the SETUP that applies, in ns. -/
def State.setupNs (s : State) (p : Nat) : Rat :=
  max (max (s.fget Reg.LK_CFG_SETUP p : Rat) (s.fget Reg.LK_ID4_SETUP p : Rat)) (100 + 3 * s.symTime p)

/-- R159: symbol times of a LINE frame of n dies with its SOF, EOF and 16 markers. -/
def frameSyms (n : Nat) : Nat := 40 + 390 * n

/-- R141: Tmin, in units of 250 ps. -/
def State.tminUnits (s : State) (p : Nat) : Nat :=
  max (16 * s.fget Reg.FT_PITCH_PITCH p) (if s.fbit Reg.FT_CTL_OVD_EN p then 61880 else 82500)

/-- R140: the address of phase k. -/
def State.ord (s : State) (p k : Nat) : Nat :=
  (if k < 8 then s.fget Reg.FT_ADDR_ORD0_ORD p / 16 ^ k else s.fget Reg.FT_ADDR_ORD1_ORD p / 16 ^ (k - 8)) % 16

/-- R140: ORD is a permutation. -/
def State.ordOk (s : State) (p : Nat) : Bool :=
  (List.range 16).all fun a => (List.range 16).any fun k => s.ord p k == a

/-- R144: the envelope of a width. -/
def State.envOf (s : State) (p w : Nat) : Nat :=
  min 16384 (if s.fbit Reg.LK_CFG_TRIM_MODE p then (1155 * w + 999) / 1000 else w)

/-- R152: the largest envelope of class x over every band and present die of the active tables. -/
def State.envMax (s : State) (p x : Nat) : Nat :=
  s.envOf p (((List.range 16).flatMap fun b => (s.dies p).map fun d => s.widthOf p x b d).foldl max 0)

/-- R152 check 4: the span. With CRED 0 no pulse fires and the span is 0 (DEDUCED, log 15). -/
def State.span (s : State) (p : Nat) : Nat :=
  let a := s.envMax p 0; let b := s.envMax p 1; let c := s.envMax p 2
  let gap := s.fget Reg.FT_SEQ_GAP p
  match s.fget Reg.FT_SEQ_CRED p with
  | 0 => 0
  | 1 => a + gap + b + gap + c
  | 2 => max (max a b) (min a b + gap + c)
  | _ => max a (max b c)

/-- R152: the failed checks of a port, in the places of FT_FIT bits [8:1]. -/
def State.fitBits (s : State) (p : Nat) (c : GroupCfg) : Nat :=
  let pitch := s.fget Reg.FT_PITCH_PITCH p
  let guard := s.fget Reg.FT_PITCH_GUARD p
  let sl := s.slotOf p
  let sym := s.symTime p
  let floorPitch := if s.fbit Reg.FT_CTL_OVD_EN p then 3880 else 4800
  let b (k : Nat) (bad : Bool) : Nat := if bad then 2 ^ k else 0
  b 1 (sl.cred == 0) +
  b 2 (!s.ordOk p) +
  b 3 (!(decide (floorPitch ≤ pitch) && decide (280 ≤ guard) && decide (4 * sym ≤ (guard : Rat) / 4))) +
  b 4 (!decide (s.span p ≤ sl.win)) +
  b 5 (!c.fixed && !decide (sl.win + guard ≤ pitch)) +
  b 6 (c.fixed && !(decide (pitch = c.grid) && decide (sl.ofs + sl.win + guard ≤ c.grid)
        && decide ((s.tminUnits p : Rat) ≤ 4 * c.period))) +
  b 7 (!(decide ((frameSyms (s.dies p).length : Rat) * sym + s.setupNs p ≤ (s.tminUnits p : Rat) / 4)
        && decide (150 + 3 * sym ≤ (pitch : Rat) / 4))) +
  b 8 (!decide (s.fget Reg.FT_SEQ_GAP p < guard / 2))

/-- R152: the port fits its slot under the active group values. -/
def State.fits (s : State) (p : Nat) : Bool := s.fitBits p (s.groupA (p / 12)) == 0

/-- R174: FT_FIT. -/
def State.fitWord (s : State) (p : Nat) : Nat :=
  let b := s.fitBits p (s.groupA (p / 12))
  if b = 0 then 1 else b

/-- R211: the media reference of group g. -/
def State.refChan (s : State) (g : Nat) : Nat := s.aget Reg.PL_GRP_REF_REF (12 * g)

/-- R211: the media reference is in RUN. -/
def State.refOk (s : State) (g : Nat) : Bool := (s.chan (s.refChan g)).st == .run

/-- R215: PITCH of group g, in counts per line. -/
def State.pitch (s : State) (g : Nat) : Rat :=
  (s.awide Reg.PL_GRP_PITCH_LO_PITCH Reg.PL_GRP_PITCH_HI_PITCH (12 * g) : Rat) / (2 ^ 32 : Nat)

/-- R215: ORIGIN of group g. -/
def State.origin (s : State) (g : Nat) : Int :=
  signed 48 (s.awide Reg.PL_GRP_ORIGIN_LO_ORIGIN Reg.PL_GRP_ORIGIN_HI_ORIGIN (12 * g))

/-- R215: MOUNT of port p, in counts. -/
def State.mount (s : State) (p : Nat) : Rat :=
  (signed 64 (s.awide Reg.PL_MOUNT_LO_MOUNT Reg.PL_MOUNT_HI_MOUNT p) : Rat) / (2 ^ 32 : Nat)

/-- R215: the target position of timing line m of a page with start S. -/
def State.target (s : State) (p : Nat) (S m : Int) : Rat :=
  (s.origin (p / 12) : Rat) + s.mount p + ((S + m : Int) + s.rowCtr p) * s.pitch (p / 12)

/-- R226: q. -/
def State.fixQ (s : State) (p : Nat) : Rat :=
  let g := p / 12
  let pit := s.pitch g
  let per := (s.groupA g).period
  (if pit = 0 then 0 else s.mount p / pit) + s.rowCtr p -
    (if per = 0 then 0 else (s.fget Reg.FT_SLOT_OFS p : Rat) / 4 / per)

/-- R226: the tick of timing line m. -/
def State.tickOf (s : State) (p : Nat) (S m : Int) : Int := s.origin (p / 12) + S + m + (s.fixQ p + 1 / 2).floor

/-- R139: the nearest point of the 250 ps grid, an exact half taking the later one; ps from ps. -/
def gridPs (t : Rat) : Int := 250 * (t / 250 + 1 / 2).floor

end Sys2Proof.Machine
end

