-- ==== Sys2Proof/Machine/Flags.lean ====
section
/-! DEFINITION. Every condition of the cause registers (R68): which condition bits of a page are present now, what
CAUSE and CAUSE_LIVE read, and how a condition that goes away stays latched (R69). -/

namespace Sys2Proof.Machine

/-- Bytes of a ring (R86). -/
def Ring.bytes (r : Ring) : Nat := 65536 * r.size
/-- R87: fill of a ring. -/
def Ring.fill (r : Ring) : Nat := r.wpos - r.rpos
/-- R87: free space of a ring. -/
def Ring.free (r : Ring) : Nat := r.bytes - r.fill
/-- R94: rows of a band. -/
def Band.rows (b : Band) : Nat := if b.format = 0 then b.lines / 2 else b.lines
/-- R94: the position at which a band ends and the next header follows: a whole number of 64-byte steps (log 145). -/
def Band.endPos (b : Band) : Nat := b.pos + 64 + (b.rows * b.rowBytes + 63) / 64 * 64

/-- R93: word k of a header. -/
def hdrWord (bs : List Byte) (k : Nat) : Nat := leNat ((bs.drop (4 * k)).take 4)

/-- R93: the fields of a header. -/
def parseHdr (bs : List Byte) : Hdr :=
  let w := hdrWord bs
  { format := w 0 % 16, page := w 1, first := w 2, lines := w 3, pageLines := w 4, gap := w 5, last := (w 6).testBit 8
    port := w 6 % 128, seqNo := w 7 / 65536, rowBytes := w 7 % 65536, word8 := w 8 % 2 ^ 24 &&& 0xFFFF07 }

/-- The 64 bytes at position pos of ring p. -/
def State.ringBytes (s : State) (p pos n : Nat) : List Byte :=
  let r := s.ring p
  (List.range n).map fun i => memGet 0 s.band (65536 * r.base + (if r.bytes = 0 then 0 else (pos + i) % r.bytes))

/-- R94: the bytes of the band that a header announces. -/
def Hdr.bandBytes (h : Hdr) : Nat := 64 + (if h.format = 0 then h.lines / 2 else h.lines) * h.rowBytes

/-- R104: among at most n bands from position pos on, whose headers the reader has not met, all of page pg, stands the
LAST one, wholly committed. -/
def State.lastAhead (s : State) (p pg : Nat) : Nat → Nat → Bool
  | 0, _ => false
  | n + 1, pos =>
    let h := parseHdr (s.ringBytes p pos 64)
    decide (pos + 64 ≤ (s.ring p).wpos) && h.page == pg &&
    (if h.last then decide (pos + h.bandBytes ≤ (s.ring p).wpos) else s.lastAhead p pg n (pos + h.bandBytes))

/-- R104: page `pg`'s LAST band is wholly committed in port p's ring; never where RING_FLUSH took the rest of it. -/
def State.lastCommitted (s : State) (p pg : Nat) : Bool :=
  let r := s.ring p
  if r.flushed = some pg then false
  else if r.pageOpen && (match r.curInfo with | some i => i.page == pg | none => false) then
    s.lastAhead p pg ((r.wpos - r.hpos) / 64) r.hpos
  else r.bands.all fun b => !(b.page == pg && b.last) || decide (b.endPos ≤ r.wpos)

/-- R104: LOWFILL is present at port p. -/
def State.lowfill (s : State) (p : Nat) : Bool :=
  let r := s.ring p
  (s.port p).st == .printing && decide (r.fill < 4096 * s.fget Reg.BND_RLOW_LOW 0 p) &&
  (match (s.flow p).cur with
   | some pg => !s.lastCommitted p pg.page
   | none => false)

/-- R211: REF_LOSS is present at port p. -/
def State.refLoss (s : State) (p : Nat) : Bool :=
  (s.port p).sq != .idle && !(s.groupA (p / 12)).fixed && !s.refOk (p / 12)

/-- R202: SAT is present at channel c. -/
def State.chanSat (s : State) (c : Nat) : Bool :=
  let n := (s.chan c).count
  n == signed 48 (s.wide Reg.FBK_SOFT_MIN_LO_MIN Reg.FBK_SOFT_MIN_HI_MIN c) ||
  n == signed 48 (s.wide Reg.FBK_SOFT_MAX_LO_MAX Reg.FBK_SOFT_MAX_HI_MAX c)

/-- R357: NARROW is present. -/
def State.narrow (s : State) : Bool := s.pcie.linkUp && (decide (s.pcie.speed < 5) || decide (s.pcie.width < 8))

/-- R337: SLEW_MAX, in ppb. -/
def State.slewMax (s : State) : Nat := min 1000000 (s.fget Reg.HAL_SLEW_MAX_SLEW_MAX)

/-- A set of condition bits. -/
def condBits (l : List (Fld × Bool)) : Word :=
  l.foldl (fun w e => if e.2 then w ||| BitVec.ofNat 32 (2 ^ e.1.lo) else w) 0

/-- The condition bits of a page (R68), with their present levels. -/
def State.conds (s : State) (p : Page) (inst : Nat) : List (Fld × Bool) :=
  match p with
  | .bnd0 => [(Reg.BND0_CAUSE_LOWFILL, s.portList.any s.lowfill)]
  | .scr => [(Reg.SCR_CAUSE_GEOM, (members inst).any fun q => !s.geomOk q)]
  | .ft => [(Reg.FT_CAUSE_MISFIT, !s.fits inst), (Reg.FT_CAUSE_ROWSPAN, s.rowSpan inst),
            (Reg.FT_CAUSE_REF_LOSS, s.refLoss inst), (Reg.FT_CAUSE_REV_HOLD, (s.flow inst).revHold)]
  | .lk => [(Reg.LK_CAUSE_RT_LOSS, (s.port inst).rtLossNow)]
  | .en => [(Reg.EN_CAUSE_OVD_EXH, (s.port inst).budget.exhFrom.isSome),
            (Reg.EN_CAUSE_COLD, (s.port inst).coldDies != 0),
            (Reg.EN_CAUSE_CRITICAL, (s.port inst).critDies != 0), (Reg.EN_CAUSE_HOT, (s.port inst).hotDies != 0)]
  | .fbk => [(Reg.FBK_CAUSE_FAULT, (s.chan inst).st == .fault), (Reg.FBK_CAUSE_SAT, s.chanSat inst)]
  | .ax0 => [(Reg.AX0_CAUSE_FAULT, (s.axis inst).st == .fault), (Reg.AX0_CAUSE_VSAT, (s.axis inst).vsat)]
  | .jst0 => [(Reg.JST0_CAUSE_HALTED, (List.range 16).any fun c => (s.jchan inst c).st == .halted)]
  | .hal0 => [(Reg.HAL0_CAUSE_STEP_PEND, s.hal.stepPend),
              (Reg.HAL0_CAUSE_SLEW_LIM,
                s.hal.adj == (s.slewMax : Rat) || s.hal.adj == -(s.slewMax : Rat)),
              (Reg.HAL0_CAUSE_HOLDOVER, s.hal.servo == .holdover)]
  | .pen => [(Reg.PEN_CAUSE_NARROW, s.narrow), (Reg.PEN_CAUSE_MSI_PEND, s.pcie.msiPend)]
  | .kps0 => [(Reg.KPS0_CAUSE_DSAFE, s.kps.dsafe)]
  | .thm => [(Reg.THM_CAUSE_FALLBACK, s.thm.fallback), (Reg.THM_CAUSE_PINNED, !s.thm.pinned.isEmpty),
             (Reg.THM_CAUSE_NBR_LOW, s.thm.nbrLow)]
  | .cal => [(Reg.CAL_CAUSE_TAKEOVER, s.cals.any fun e => e.2.standIn)]
  | _ => []

/-- R68: CAUSE_LIVE of a page. -/
def State.live (s : State) (p : Page) (inst : Nat) : Word := condBits (s.conds p inst)

/-- R68, R69: what CAUSE reads: every bit that is latched, and every condition that is present. -/
def State.cause (s : State) (p : Page) (inst : Nat) : Word := s.word (regAddr p inst 0x14) ||| s.live p inst

/-- R69: the conditions that are present are latched: they stay visible after they go. -/
def State.latch (s : State) (p : Page) (inst : Nat) : State := s.setWord (regAddr p inst 0x14) (s.cause p inst)

/-- R113, R137: the members of group g whose active geometry is not valid. -/
def State.badGeom (s : State) (g : Nat) : Nat := maskOf ((List.range 12).filter fun m => !s.geomOk (12 * g + m))

/-- R104, R108: the ports 32i to 32i + 31 at which LOWFILL is present. -/
def State.lowMask (s : State) (i : Nat) : Nat :=
  maskOf ((List.range 32).filter fun k => decide (32 * i + k < s.portCount) && s.lowfill (32 * i + k))

/-- R69, R137: GEOM of a group's members is latched in CAUSE and in ATTN. -/
def State.latchScr (s : State) (g : Nat) : State :=
  (s.latch .scr g).fput Reg.SCR_ATTN_ATTN (s.fget Reg.SCR_ATTN_ATTN g ||| s.badGeom g) g

/-- The pages that port p's commands and events act on are latched. -/
def State.latchPort (s : State) (p : Nat) : State :=
  let s := ((s.latch .ft p).latch .en p).latch .lk p
  if s.ul24 then s else s.latchScr (p / 12)

/-- R70: the page signals upward. -/
def State.signals (s : State) (p : Page) (inst : Nat) : Bool :=
  s.present p inst && (s.cause p inst &&& s.word (regAddr p inst 0x18)) != 0

/-- R349: PEN_PG_ATTNg. -/
def State.pgAttn (s : State) (g : Nat) : Nat :=
  maskOf ((List.range 12).filter fun m =>
    s.signals .ft (12 * g + m) || s.signals .en (12 * g + m) || s.signals .hl (12 * g + m) || s.signals .lk (12 * g + m))

/-- R349: PEN_FB_ATTNg. -/
def State.fbAttn (s : State) (g : Nat) : Nat :=
  maskOf ((List.range 12).filter fun m => s.signals .fbk (12 * g + m))

/-- R284, R286: MGP_ATTN of group g: an axis signals on either of its pages. -/
def State.mgAttn (s : State) (g : Nat) : Nat :=
  maskOf ((List.range 12).filter fun m => s.signals .ax0 (12 * g + m) || s.signals .ax1 (12 * g + m))

/-- R348: summary bit k. -/
def State.sumBit (s : State) (k : Nat) : Bool :=
  if k < 8 then s.pgAttn k != 0
  else if k < 16 then s.fbAttn (k - 8) != 0
  else if k < 24 then s.signals .mgp (k - 16) || s.mgAttn (k - 16) != 0
  else if k < 32 then s.signals .jst0 (k - 24) || s.signals .jst1 (k - 24)
  else if k = 32 then s.signals .bnd0 0 || s.signals .bnd1 0
  else if k < 41 then s.signals .scr (k - 33)
  else if k < 43 then s.signals .eth (k - 41)
  else if k = 43 then s.signals .hal0 0 || s.signals .hal1 0 || s.signals .hal2 0 || s.signals .hal3 0
  else if k = 44 then s.signals .pen 0 || s.signals .dev 0
  else if k = 45 then s.signals .mem 0
  else if k = 46 then s.signals .kps0 0 || s.signals .kps1 0 || s.signals .kps2 0 || s.signals .kps3 0
  else if k = 47 then s.signals .thm 0
  else if k = 48 then s.signals .cal 0
  else if k = 49 then s.signals .upd 0
  else if k = 50 then s.signals .clk 0
  else if k = 51 then (s.word (regAddr .pen 0 0xA8) &&& s.word (regAddr .pen 0 0xAC)) != 0
  else if k = 52 then s.signals .seq 0
  else if k = 53 then s.signals .lnk0 0 || s.signals .lnk1 0
  else false

/-- R348: the summary. -/
def State.summary (s : State) : Nat := maskOf ((List.range 54).filter s.sumBit)

/-- R350: PEN_EN. -/
def State.penEn (s : State) : Nat := s.fget Reg.PEN_EN_LO_EN + 2 ^ 32 * s.fget Reg.PEN_EN_HI_EN

/-- R350: PEN_ACT. -/
def State.penAct (s : State) : Nat := s.summary &&& s.penEn

/-- R350: INT_N is asserted (driven low); R446: released while PORST_N is low. -/
def State.intAsserted (s : State) : Bool := !s.porst && s.fbit Reg.PEN_CTL_INT_EN && s.penAct != 0

/-- R404: THROT_N is asserted (driven low). -/
def State.throtAsserted (s : State) : Bool :=
  !s.porst && (s.thm.level == 3 || s.thm.shutdown || s.ports.any fun e => e.2.budget.exhFrom.isSome)

/-- R351: the four things an MSI needs. -/
def State.msiReady (s : State) : Bool := s.pcie.msiEn && s.pcie.bme && !s.pcie.masked && s.pcie.d0

/-- R351: PEN_ACT is non-zero. -/
def State.actNow (s : State) : Bool := s.penEn != 0 && s.penAct != 0

/-- R69, R351: no MSI waits any more; MSI_PEND stays latched. -/
def State.dropMsi (s : State) : State :=
  let s := s.when s.pcie.msiPend fun s => s.latch .pen 0
  { s with pcie := { s.pcie with msiPend := false, msiPendBit := false } }

/-- R351: an MSI is raised: it is sent, with the programmed address and data, or deferred. -/
def State.raiseMsi (s : State) : State :=
  if s.msiReady then
    let s := s.dropMsi
    State.fadd { s with pcie := { s.pcie with msiSent := some (s.pcie.msiAddr, s.pcie.msiData) } } Reg.PEN_MSI_CNT_COUNT 1
  else
    ({ s with pcie := { s.pcie with msiPend := true, msiPendBit := s.pcie.msiPendBit || s.pcie.masked } }).latch .pen 0

/-- R351: what a command has done to PEN_ACT: a rise from zero raises an MSI while MSI_MIRROR is set; a fall to zero
drops a deferred one. -/
def State.settle (s : State) : State :=
  if s.actNow then
    let s := s.when (!s.pcie.actWas && s.fbit Reg.PEN_CTL_MSI_MIRROR) State.raiseMsi
    { s with pcie := { s.pcie with actWas := true } }
  else
    let s := s.dropMsi
    { s with pcie := { s.pcie with actWas := false } }

/-- A command ends in its next state (every row of the table has an effect). -/
def done (s : State) : Host.Outcome State Fault Refusal := .next s.settle

end Sys2Proof.Machine
end

