-- ==== Sys2Proof/Machine/Operands.lean ====
section
/-! DEFINITION. How a command reaches its page: the checks of R61 in their order, CMD_STATUS (R59), the causes of R62,
and the wait for a gated part (R403). Also the common forms of an operand: the fields of ARG, what stands at an address
(R53, R78), the words of an access (R54, R344) and its order (R57), writes by field type (R20, R67, R475), and reads and
writes of wide fields (R58). -/

namespace Sys2Proof.Machine

/-- What a page's command table and its owning chapter say of one command on one state (R61): the argument fields lie
in their ranges (check 2), it needs unlock (check 3), it is legal in the present state (check 4), its further
condition holds (check 5), and its effect. -/
structure CmdSpec where
  argOk : Bool := true
  unlock : Bool := false
  legal : Bool := true
  cond : Bool := true
  eff : State → State := id

/-- Field [hi:lo] of ARG. -/
def argField (arg hi lo : Nat) : Nat := arg / 2 ^ lo % 2 ^ (hi + 1 - lo)

/-- R59: results of CMD_STATUS. -/
abbrev resOk := 0
abbrev resState := 1
abbrev resArg := 2
abbrev resBusy := 3
abbrev resLocked := 4

/-- Address of CMD_STATUS of a page. -/
def statusAddr (p : Page) (inst : Nat) : Nat := regAddr p inst 0x10

/-- R454: DEV_RESET still runs: its islands are not back in reset state. -/
def State.resetting (s : State) (p : Page) : Bool := p == .clk && decide (s.now < s.islandsAt)

/-- R59: EXEC of a page. -/
def State.exec? (s : State) (p : Page) (inst : Nat) : Bool :=
  (s.word (statusAddr p inst)).getLsbD 16 || s.resetting p

/-- R59: what CMD_STATUS reads. -/
def State.statusWord (s : State) (p : Page) (inst : Nat) : Word :=
  s.word (statusAddr p inst) ||| (if s.resetting p then 0x10000 else 0)

/-- Set EXEC. -/
def State.setExec (s : State) (p : Page) (inst : Nat) (on : Bool) : State :=
  let w := s.word (statusAddr p inst)
  s.setWord (statusAddr p inst) (if on then w ||| 0x10000 else w &&& 0xFFFEFFFF)

/-- Set RESULT. -/
def State.setResult (s : State) (p : Page) (inst : Nat) (r : Nat) : State :=
  let w := s.word (statusAddr p inst)
  s.setWord (statusAddr p inst) ((w &&& 0xFFFFF8FF) ||| BitVec.ofNat 32 (r % 8 * 256))

/-- R59: every write to CMD increments SEQNO and records CODE. -/
def State.countCmd (s : State) (p : Page) (inst code : Nat) : State :=
  let w := s.word (statusAddr p inst)
  s.setWord (statusAddr p inst)
    ((w &&& 0x00FFFF00) ||| BitVec.ofNat 32 ((w.toNat / 2 ^ 24 + 1) % 256 * 2 ^ 24 + code % 256))

/-- R62: a STATE result sets CMD_REJECT. -/
def State.reject (s : State) (p : Page) (inst : Nat) : State :=
  let a := regAddr p inst 0x14
  s.setWord a (s.word a ||| 0x80000000)

/-- R62, R66: LOCKED is set. -/
def State.lockedCause (s : State) (p : Page) (inst : Nat) : State :=
  let a := regAddr p inst 0x14
  s.setWord a (s.word a ||| 0x40000000)

/-- R53, R120, R126, R183, R262, R277: what stands at a BAR0 address. -/
inductive Place where
  | reg (p : Page) (inst off : Nat)
  | nat (port entry : Nat)
  | mask (g byte : Nat)
  | width (port word : Nat)
  | pvt (g word : Nat)
  | sine (g word : Nat)
  | unmapped
  deriving DecidableEq, Repr

/-- R53: the place of a native address. -/
def placeOf (a : Nat) : Place :=
  match locate a with
  | some (p, i, off) => .reg p i (off / 4 * 4)
  | none =>
    if 0x1000000 ≤ a ∧ a < 0x1600000 then
      (if (a - 0x1000000) % 0x10000 < 0xC000 then .nat ((a - 0x1000000) / 0x10000) ((a - 0x1000000) % 0x10000 / 4)
       else .unmapped)
    else if 0x2000000 ≤ a ∧ a < 0x2400000 then .mask ((a - 0x2000000) / 0x80000) ((a - 0x2000000) % 0x80000)
    else if 0x2400000 ≤ a ∧ a < 0x240C000 then .width ((a - 0x2400000) / 0x200) ((a - 0x2400000) % 0x200 / 4)
    else if 0x2410000 ≤ a ∧ a < 0x2418000 then .pvt ((a - 0x2410000) / 0x1000) ((a - 0x2410000) % 0x1000 / 4)
    else if 0x2418000 ≤ a ∧ a < 0x241C000 then .sine ((a - 0x2418000) / 0x800) ((a - 0x2418000) % 0x800 / 4)
    else .unmapped

/-- R78, R184: the native address of a forerunner offset. -/
def aliasOf (f : Nat) : Option Nat :=
  let rows (base stride target n : Nat) (k : Nat) : Option Nat :=
    if base ≤ f ∧ f < base + stride * k then some (target + n * ((f - base) / stride) + (f - base) % stride) else none
  if f < 0x7000 ∨ 0x9000 ≤ f ∧ f < 0xA000 then some f
  else (rows 0x10000 0x1000 0x100000 0x4000 24).orElse fun _ =>
    (rows 0x30000 0x1000 0x103000 0x4000 24).orElse fun _ =>
    (rows 0x50000 0x1000 0x300000 0x1000 24).orElse fun _ =>
    (rows 0x70000 0x1000 0x400000 0x2000 24).orElse fun _ =>
    (rows 0x90000 0x1000 0x500000 0x1000 2).orElse fun _ =>
    (rows 0x400000 0x10000 0x1000000 0x10000 24).orElse fun _ =>
    rows 0x600000 0x80 0x2400000 0x200 24

/-- R78: the alias window. -/
abbrev windowBase := 0x3800000

/-- R78, R79: the native target of a BAR0 address: in UL-24 the alias window is translated. -/
def State.native (s : State) (a : Nat) : Nat :=
  if windowBase ≤ a ∧ s.ul24 ∧ a < windowBase + 0x800000 then (aliasOf (a - windowBase)).getD a else a

/-- R53, R78: what stands at a BAR0 address in the profile. -/
def State.place (s : State) (a : Nat) : Place :=
  if s.native a < windowBase then placeOf (s.native a) else .unmapped

/-- R54, R344: the pieces that an access of n bytes at address a has in the 32-bit words it touches, in increasing address
order: where each begins, and its bytes. -/
def pieces (a n : Nat) : List (Nat × Nat) :=
  (List.range ((a % 4 + n + 3) / 4)).map fun k =>
    let w := a / 4 * 4 + 4 * k
    (max a w, min (a + n) (w + 4) - max a w)

/-- The pieces of a write, with their bytes. -/
def writePieces (a : Nat) (bs : List Byte) : List (Nat × List Byte) :=
  (pieces a bs.length).map fun e => (e.1, (bs.drop (e.1 - a)).take e.2)

/-- R57: an access of master m to this page waits here. -/
def State.blocks (s : State) (m : Master) (p : Page) (i : Nat) (w : Stalled) : Bool :=
  let here (a : Nat) : Bool :=
    match s.place a with
    | .reg q j _ => q == p && j == i
    | _ => false
  match w with
  | .write n l => n == m && l.any fun e => here e.1
  | .read n l => n == m && l.any fun e => here e.1
  | _ => false

/-- R57: the port behind whose waiting accesses one of master m to a page must wait. -/
def State.behind (s : State) (m : Master) (p : Page) (i : Nat) : Option Nat :=
  (s.ports.find? fun e => e.2.stalled.any (s.blocks m p i)).map (·.1)

/-- R75: an access waits at port p, after those that wait there. -/
def State.stall (s : State) (p : Nat) (w : Stalled) : State :=
  s.modPort p fun x => { x with stalled := x.stalled ++ [w] }

/-- R57: a master's write of a register of a page acts, unless an earlier access of that master to the page waits. -/
def State.ordered (s : State) (m : Master) (p : Page) (i off : Nat) (v : Word) (f : State → State) : State :=
  match s.behind m p i with
  | some q => s.stall q (.write m [(regAddr p i off, leBytes 4 v.toNat)])
  | none => f s

/-- R61, checks 2 to 6, in order; `spec` is none for a code that the page does not define. -/
def State.judge (s : State) (p : Page) (inst : Nat) (spec : Option CmdSpec) : State :=
  match spec with
  | none => s.setResult p inst resArg
  | some c =>
    if !c.argOk then s.setResult p inst resArg
    else if c.unlock && !s.unlocked p inst then (s.setResult p inst resLocked).lockedCause p inst
    else if !c.legal then (s.setResult p inst resState).reject p inst
    else if !c.cond then s.setResult p inst resArg
    else c.eff (s.setResult p inst resOk)

/-- R61, R403: a master writes CMD of a page. `gated` says that the command needs a part that is clock-gated now. -/
def State.command (s : State) (m : Master) (p : Page) (inst code arg : Nat) (gated : Bool) (spec : Option CmdSpec) :
    State :=
  if !s.present p inst || s.shutTo m then s
  else s.ordered m p inst 0x0C (BitVec.ofNat 32 (code + 256 * arg)) fun s =>
    let s := s.countCmd p inst code
    if s.exec? p inst then s.setResult p inst resBusy
    else if gated && spec.isSome then
      { s.setExec p inst true with waking := s.waking ++ [⟨m, p, inst, code, arg⟩] }
    else s.judge p inst spec

/-- R64: code 0x00 in every page. -/
def nopSpec : CmdSpec := {}

/-- R403: stage 1 of throttling is applied. -/
def State.gating (s : State) : Bool := decide (1 ≤ s.thm.level)

/-- R402: the screening island of group g is clock-gated. -/
def State.gatedScreen (s : State) (g : Nat) : Bool := s.gating && (members g).all fun p => (s.port p).sq == .idle

/-- R402: the fire-timing, fire-link and ADC sections of group g are clock-gated. -/
def State.gatedFire (s : State) (g : Nat) : Bool := s.gating && (members g).all fun p => (s.port p).st == .off

/-- R402: motion island n is clock-gated: it has no enabled axis. -/
def Axis.enabled (x : Axis) : Bool :=
  match x.st with
  | .standstill | .moving | .homing | .stopping => true
  | _ => false

/-- R402: motion island n is clock-gated. -/
def State.gatedMotion (s : State) (n : Nat) : Bool := s.gating && (members n).all fun a => !(s.axis a).enabled

/-- R402: the lanes of Ethernet port e, whose links are disabled, are clock-gated. -/
def State.gatedEth (s : State) (e : Nat) : Bool := s.gating && (s.eth e).st == .disabled

/-- R402: how many of the four management cores are clock-gated. -/
def State.gatedCores (s : State) : Nat := if s.gating then 3 else 0

/-- R402: the bank is inside no ring and no health result area (R244). -/
def State.gatedBank (s : State) (k : Nat) : Bool :=
  let lo := 0x400000 * k
  let hi := lo + 0x400000
  let hit (b n : Nat) : Bool := decide (0 < n ∧ b < hi ∧ lo < b + n)
  s.gating &&
  (s.portList.all fun p =>
    let r := s.ring p
    !(r.st != .unconfigured && hit (65536 * r.base) r.bytes) &&
    !hit (4096 * s.fget Reg.HL_RES_BASE_BASE p) (4096 * s.fget Reg.HL_RES_SIZE_SIZE p))

/-- R20: the word that a field's bits take from a write of `v`, for a page that is locked or not; a config field
keeps its value where its config state does not hold. -/
def writeField (f : Fld) (unlocked cfgOk : Bool) (old v : Word) : Word :=
  match f.ty with
  | .ro | .wo => old
  | .rw1c => old &&& ~~~(v &&& f.mask)
  | .rwl => if unlocked then (old &&& ~~~f.mask) ||| (v &&& f.mask) else old
  | .rw | .rws => if f.config && !cfgOk then old else (old &&& ~~~f.mask) ||| (v &&& f.mask)

/-- The fields of the register at a page offset. -/
def fieldsAt (p : Page) (off : Nat) : List Fld := p.fields.filter (·.at? off)

/-- R66, R67, R475: a write of a register by its field types; LOCKED is set when a locked field's value would have
changed (or the register holds nothing but locked fields: R66), and the config cause when a config field's would. -/
def State.writeReg (s : State) (p : Page) (inst off : Nat) (v : Word) (cfgOk : Bool) (cfgCause : Option (Fld × Nat)) :
    State :=
  let a := regAddr p inst off
  let old := s.word a
  let unl := s.unlocked p inst
  let fs := fieldsAt p off
  let new := fs.foldl (fun w f => writeField f unl cfgOk w v) old
  let s1 := s.setWord a new
  let lockHit := !unl && fs.any (fun f => f.ty == .rwl) &&
    (fs.any (fun f => f.ty == .rwl && (f.get old != f.get v)) || fs.all (fun f => f.ty == .rwl || f.ty == .ro))
  let cfgHit := !cfgOk && fs.any (fun f => f.config && (f.get old != f.get v))
  let s2 := if lockHit then s1.lockedCause p inst else s1
  match cfgCause with
  | some (c, i) => if cfgHit then s2.raise c i else s2
  | none => s2

/-- R58: a master's held lower half at a register address. -/
def State.heldAt (s : State) (m : Master) (a : Nat) : Option Word :=
  (s.heldLow.find? fun h => h.master == m.code && h.addr == a).map (·.value)

/-- R58: hold a lower half, replacing an earlier one of the same master. -/
def State.hold (s : State) (m : Master) (a : Nat) (v : Word) : State :=
  { s with heldLow := ⟨m.code, a, v⟩ :: s.heldLow.filter fun h => !(h.master == m.code && h.addr == a) }

/-- R58: forget a held lower half. -/
def State.unhold (s : State) (m : Master) (a : Nat) : State :=
  { s with heldLow := s.heldLow.filter fun h => !(h.master == m.code && h.addr == a) }

/-- R58: capture a value for the master's next read of a register. -/
def State.capture (s : State) (m : Master) (a : Nat) (v : Word) : State :=
  { s with captures := ⟨m.code, a, v⟩ :: s.captures.filter fun h => !(h.master == m.code && h.addr == a) }

/-- R58: the captured value of a register, if one waits. -/
def State.captured (s : State) (m : Master) (a : Nat) : Option Word :=
  (s.captures.find? fun h => h.master == m.code && h.addr == a).map (·.value)

/-- R58: a capture serves one read. -/
def State.uncapture (s : State) (m : Master) (a : Nat) : State :=
  { s with captures := s.captures.filter fun h => !(h.master == m.code && h.addr == a) }

/-- The data that has come for a master's latest read. -/
def State.readData (s : State) (m : Master) : List Byte := Sparse.get (fun _ => []) s.lastRead m.code

/-- What a master's latest read of a word or less returned. -/
def State.readBy (s : State) (m : Master) : Word := BitVec.ofNat 32 (leNat (s.readData m))

/-- A master's read has the data `bs` so far. -/
def State.answer (s : State) (m : Master) (bs : List Byte) : State :=
  { s with lastRead := Sparse.put (fun _ => []) s.lastRead m.code bs }

end Sys2Proof.Machine
end

