-- ==== Sys2Proof/Machine/Frames.lean ====
section
/-! DEFINITION. Ethernet frames byte for byte (R313 to R318), the PTP messages in them, and the frames of Bexgar
(R328). A frame is the list of its octets, from the destination address to the FCS. -/

namespace Sys2Proof.Machine

/-- Octet i of a frame; past its end, 0. -/
def octet (o : List Byte) (i : Nat) : Nat := (o.getD i 0).toNat

/-- n octets from i on as a number, the first the most significant. -/
def beAt (o : List Byte) (i n : Nat) : Nat := (List.range n).foldl (fun a k => 256 * a + octet o (i + k)) 0

/-- n octets from i on as a number, the first the least significant. -/
def leAt (o : List Byte) (i n : Nat) : Nat := leNat ((o.drop i).take n)

/-- The n octets of a number, the most significant first. -/
def beOctets (n v : Nat) : List Byte := (leBytes n v).reverse

/-- Octets of a frame from i on are replaced. -/
def putOctets (o : List Byte) (i : Nat) (bs : List Byte) : List Byte := o.take i ++ bs ++ o.drop (i + bs.length)

/-! ### Ethernet -/

/-- R315: one bit step of the reflected CRC-32 of IEEE 802.3. -/
def fcsStep : Nat → BitVec 32 → BitVec 32
  | 0, c => c
  | k + 1, c => fcsStep k (if c.getLsbD 0 then (c >>> 1) ^^^ 0xEDB88320 else c >>> 1)

/-- R315: the FCS of a frame. -/
def fcs (bs : List Byte) : BitVec 32 :=
  (bs.foldl (fun c b => fcsStep 8 (c ^^^ b.setWidth 32)) 0xFFFFFFFF) ^^^ 0xFFFFFFFF

/-- A frame and its FCS, as it leaves. -/
def withFcs (bs : List Byte) : List Byte := bs ++ leBytes 4 (fcs bs).toNat

/-- R315: the FCS of a received frame is good. -/
def fcsGood (o : List Byte) : Bool :=
  decide (18 ≤ o.length) && leAt o (o.length - 4) 4 == (fcs (o.take (o.length - 4))).toNat

/-- R315: the EtherType, directly or after one 802.1Q tag, and where what follows it begins. -/
def etherBody (o : List Byte) : Nat × Nat :=
  if beAt o 12 2 = 0x8100 then (beAt o 16 2, 18) else (beAt o 12 2, 14)

/-- R313: the largest frame that is accepted or sent. -/
abbrev maxFrame : Nat := 9216

/-- R313: a PAUSE frame: MAC Control with the PAUSE opcode. -/
def isPause (o : List Byte) : Bool := beAt o 12 2 == 0x8808 && beAt o 14 2 == 1

/-- R315: the EtherType of Bexgar. -/
abbrev bexgarType : Nat := 0x88B5

/-- R314: link L's address: ETH_MAC of its port, plus the lane on the last octet without carry. -/
def State.macOf (s : State) (L : Nat) : List Byte :=
  let hi := s.fget Reg.ETH_MAC_HI_MAC (L / 4)
  let lo := s.fget Reg.ETH_MAC_LO_MAC (L / 4)
  beOctets 5 ((hi * 2 ^ 32 + lo) / 256) ++ [BitVec.ofNat 8 (lo + L % 4)]

/-- R315: a frame's destination is link L, broadcast or a multicast address. -/
def State.toLink (s : State) (L : Nat) (o : List Byte) : Bool := o.take 6 == s.macOf L || (octet o 0).testBit 0

/-! ### PTP messages (R316, R318, R323) -/

/-- R316: how a PTP message is carried; UDP with the offset of its header. -/
inductive PtpCarrier where
  | l2
  | ipv4 (udp : Nat)
  | ipv6 (udp : Nat)
  deriving DecidableEq, Repr

/-- R316: a PTP message in a frame: its carrier, where it begins, and the UDP port it came to (0 at layer 2). -/
structure PtpAt where
  carrier : PtpCarrier
  off : Nat
  port : Nat
  deriving DecidableEq, Repr

/-- R316: where a frame carries a PTP message: EtherType 0x88F7, or UDP over IPv4, with or without options, or over IPv6
without an extension header. -/
def ptpAt (o : List Byte) : Option PtpAt :=
  let (ty, b) := etherBody o
  if ty = 0x88F7 then some ⟨.l2, b, 0⟩
  else if ty = 0x0800 ∧ octet o b / 16 = 4 ∧ octet o (b + 9) = 17 ∧ beAt o (b + 6) 2 % 2 ^ 13 = 0 then
    let u := b + 4 * (octet o b % 16)
    some ⟨.ipv4 u, u + 8, beAt o (u + 2) 2⟩
  else if ty = 0x86DD ∧ octet o b / 16 = 6 ∧ octet o (b + 6) = 17 then
    let u := b + 40
    some ⟨.ipv6 u, u + 8, beAt o (u + 2) 2⟩
  else none

/-- The fields of a PTP message that the device looks at: t1 is originTimestamp (or the Follow_Up's) in ns, and corr
correctionField in 2⁻¹⁶ ns. -/
structure Ptp where
  msgType : Nat
  twoStep : Bool
  domain : Nat
  seqId : Nat
  srcClock0 : Nat
  srcClock1 : Nat
  srcPort : Nat
  t1 : Int
  corr : Int
  deriving DecidableEq, Repr

/-- R316: a PTP message of majorVersion 2 and minorVersion 0 or 1 at offset b of a frame. -/
def ptpParse (o : List Byte) (b : Nat) : Option Ptp :=
  if octet o (b + 1) % 16 = 2 ∧ octet o (b + 1) / 16 ≤ 1 then
    some {
      msgType := octet o b % 16, twoStep := (octet o (b + 6)).testBit 1, domain := octet o (b + 4)
      seqId := beAt o (b + 30) 2, srcClock0 := beAt o (b + 20) 4, srcClock1 := beAt o (b + 24) 4
      srcPort := beAt o (b + 28) 2, t1 := beAt o (b + 34) 6 * 1000000000 + beAt o (b + 40) 4
      corr := signed 64 (beAt o (b + 8) 8) }
  else none

/-- R316: the event message that a frame carries. -/
def eventOf (o : List Byte) : Option (PtpAt × Ptp) :=
  match ptpAt o with
  | none => none
  | some a =>
    if a.carrier = .l2 ∨ a.port = 319 then ((ptpParse o a.off).filter fun p => decide (p.msgType ≤ 3)).map fun p => (a, p)
    else none

/-- R323: the Follow_Up that a frame carries, at layer 2 or on the general UDP port 320. -/
def followUpOf (o : List Byte) : Option Ptp :=
  match ptpAt o with
  | none => none
  | some a =>
    if a.carrier = .l2 ∨ a.port = 320 then (ptpParse o a.off).filter fun p => p.msgType == 8 else none

/-- R318: a correctionField with an amount added, in 2⁻¹⁶ ns. -/
def addCorr (o : List Byte) (b : Nat) (p : Ptp) (x : Int) : List Byte :=
  putOctets o (b + 8) (beOctets 8 (unsign 64 (p.corr + x)))

/-- R318: the sum of 16-bit words from i up to j. -/
def wordSum (o : List Byte) (i j : Nat) : Nat :=
  ((List.range ((j - i) / 2)).map fun k => beAt o (i + 2 * k) 2).sum

/-- R318: what a one-step frame needs for its UDP checksum after its message has changed: 0 over IPv4; over IPv6 the two
octets after the message keep the sum. -/
def fixChecksum (old o : List Byte) : PtpCarrier → List Byte
  | .l2 => o
  | .ipv4 u => putOctets o (u + 6) [0, 0]
  | .ipv6 u =>
    let e := u + beAt o (u + 4) 2 - 2
    let v := (beAt o e 2 + wordSum old u e + 65535 * e - wordSum o u e) % 65535
    putOctets o e (beOctets 2 v)

/-- R318: a one-step frame with its transmit stamp `tx` (1/256 ns) written in; `req` is the receive stamp of the request
that a Pdelay_Resp answers. -/
def stampOneStep (o : List Byte) (a : PtpAt) (p : Ptp) (tx req : Int) : List Byte :=
  let w := match p.msgType with
    | 0 =>
      let ns := (tx / 256).toNat
      addCorr (putOctets o (a.off + 34) (beOctets 6 (ns / 1000000000) ++ beOctets 4 (ns % 1000000000))) a.off p (tx % 256 * 256)
    | 3 => addCorr o a.off p ((tx - req) * 256)
    | _ => o
  fixChecksum o w a.carrier

/-! ### Bexgar frames (R328) -/

/-- R328: the header of a Bexgar frame whose VER, PCRC and TYPE are good. -/
structure BxHdr where
  type : Nat
  srcId : Nat
  srcLink : Nat
  dst : Nat
  bcast : Bool
  seqNo : Nat
  ack : Nat
  sub : Nat
  offset : Nat
  deriving DecidableEq, Repr

/-- R328: the header and payload of what follows the EtherType 0x88B5; none where the frame is discarded. -/
def bxParse (o : List Byte) : Option (BxHdr × List Byte) :=
  let n := leAt o 12 2
  if octet o 0 = 1 ∧ 1 ≤ octet o 1 ∧ octet o 1 ≤ 6 ∧ 24 + n ≤ o.length ∧
      leAt o (20 + n) 4 = (crc32c (o.take (20 + n))).toNat then
    some ({ type := octet o 1, srcId := octet o 2 % 32, srcLink := octet o 2 / 32, dst := octet o 3 % 32
            bcast := (octet o 3).testBit 7, seqNo := leAt o 4 4, ack := leAt o 8 4, sub := octet o 14
            offset := leAt o 16 4 }, (o.drop 20).take n)
  else none

/-- R328: the octets of a frame that the device sends on link L, from VER to PCRC. -/
def bxOctets (id L : Nat) (f : BxOut) : List Byte :=
  let b := [1, BitVec.ofNat 8 f.type, BitVec.ofNat 8 (id % 32 + 32 * (L % 4)), BitVec.ofNat 8 (f.dst % 32 + 128 * bitOf f.bcast)] ++
    leBytes 4 f.seqNo ++ leBytes 4 f.ack ++ leBytes 2 f.payload.length ++ [BitVec.ofNat 8 f.sub, 0] ++
    leBytes 4 f.offset ++ f.payload
  b ++ leBytes 4 (crc32c b).toNat

/-- R339: the tag of LNK_VLAN. -/
def State.bxTag (s : State) : List Byte :=
  if s.fbit Reg.LNK_VLAN_TAG_EN then
    beOctets 2 0x8100 ++ beOctets 2 (s.fget Reg.LNK_VLAN_PCP * 8192 + s.fget Reg.LNK_VLAN_VID)
  else []

/-- R328, R339: a frame as it leaves on link L. The address of a BCAST frame is LNK_MCAST; that of any other the spec does
not state: a free value (log 149). -/
def State.bxFrame (s : State) (L : Nat) (f : BxOut) : List Byte :=
  let dst := if f.bcast then s.fget Reg.LNK_MCAST_HI_MAC * 2 ^ 32 + s.fget Reg.LNK_MCAST_LO_MAC else s.drawn % 2 ^ 48
  let b := beOctets 6 dst ++ s.macOf L ++ s.bxTag ++ beOctets 2 bexgarType ++
    bxOctets (s.fget Reg.DEV_LINE_ID_ID) L f
  withFcs (b ++ List.replicate (60 - b.length) 0)

end Sys2Proof.Machine
end

