-- ==== Sys2Proof/Machine/LineCode.lean ====
section
/-! DEFINITION. The symbols of the fire link (R23, R154, R155) and their 8b/10b code with a running disparity. PRESUMED
(log 141): the code is the published one of the 8b/10b line code; the spec names it and states none of its tables. -/

namespace Sys2Proof.Machine

/-- R154, R155: what a lane carries in a symbol time: a control symbol or a data byte. -/
inductive LinkSym where
  | idle | sof | eof | phs | abt
  | data (b : Byte)
  deriving DecidableEq, Repr

/-- The 5b/6b code of D.x at negative running disparity, a first. -/
def code6 (x : Nat) : Nat :=
  ([0x27, 0x1D, 0x2D, 0x31, 0x35, 0x29, 0x19, 0x38, 0x39, 0x25, 0x15, 0x34, 0x0D, 0x2C, 0x1C, 0x17] ++
   [0x1B, 0x23, 0x13, 0x32, 0x0B, 0x2A, 0x1A, 0x3A, 0x33, 0x26, 0x16, 0x36, 0x0E, 0x2E, 0x1E, 0x2B]).getD x 0

/-- The 3b/4b code of D.x.y at negative running disparity, f first; of y = 7 the primary form. -/
def code4 (y : Nat) : Nat := [0xB, 0x9, 0x5, 0xC, 0xD, 0xA, 0x6, 0xE].getD y 0

/-- The ones among the lowest n bits of a word. -/
def onesOf (n w : Nat) : Nat := ((List.range n).filter w.testBit).length

/-- A block of n bits, inverted at positive running disparity where it is unbalanced or `alt` asks for it. -/
def atDisparity (n w : Nat) (plus alt : Bool) : Nat :=
  if plus && (alt || 2 * onesOf n w != n) then 2 ^ n - 1 - w else w

/-- The code of a data byte, and the running disparity behind it (true: positive). -/
def codeData (plus : Bool) (b : Byte) : BitVec 10 × Bool :=
  let x := b.toNat % 32
  let y := b.toNat / 32
  let six := atDisparity 6 (code6 x) plus (x == 7)
  let mid := plus != (2 * onesOf 6 six != 6)
  let alt7 := y == 7 && (if mid then [11, 13, 14].contains x else [17, 18, 20].contains x)
  let four := atDisparity 4 (if alt7 then 7 else code4 y) mid (y == 3)
  (BitVec.ofNat 10 (16 * six + four), mid != (2 * onesOf 4 four != 4))

/-- The code of a control symbol at negative running disparity: K28.5, K27.7, K29.7, K28.1, K23.7. -/
def codeControl : LinkSym → Nat
  | .idle => 0x0FA
  | .sof => 0x368
  | .eof => 0x2E8
  | .phs => 0x0F9
  | .abt => 0x3A8
  | .data _ => 0

/-- R154: the 8b/10b code of a symbol at a running disparity, and the running disparity behind it. -/
def codeSym (plus : Bool) : LinkSym → BitVec 10 × Bool
  | .data b => codeData plus b
  | k =>
    let w := codeControl k
    (BitVec.ofNat 10 (if plus then 1023 - w else w), plus != (2 * onesOf 10 w != 10))

/-- R154: the codes of a lane's symbols in turn, and the running disparity behind them. -/
def codeLane (plus : Bool) : List LinkSym → List (BitVec 10) × Bool
  | [] => ([], plus)
  | y :: r =>
    let (w, p) := codeSym plus y
    let (ws, q) := codeLane p r
    (w :: ws, q)

/-- R154: the bytes of lane `lane`: byte 2i of a frame is on D0 and byte 2i + 1 on D1. -/
def laneBytes (lane : Nat) : List Byte → List Byte
  | a :: b :: r => (if lane = 0 then a else b) :: laneBytes lane r
  | _ => []

end Sys2Proof.Machine
end

