-- ==== Sys2Proof/Machine/Wire.lean ====
section
/-! DEFINITION. Halyard time and its stamps (R319 to R321), how a frame leaves on a Bexgar link (R328 to R332, R335) and
on a fire link (R154, R157 to R165), byte for byte. -/

namespace Sys2Proof.Machine

/-- R165: symbol times of a TRIM frame of n nozzles, SOF and EOF included. -/
def trimSyms (n : Nat) : Nat := 10 + n / 2

/-- R154, R157: the symbol times of a frame, SOF and EOF included: two bytes each. -/
def LinkFrame.syms : LinkFrame → Nat
  | .line _ _ dies _ _ => 8 + 390 * dies.length
  | .config .. => 14
  | .trim _ _ _ n _ => trimSyms n
  | .idReq | .start _ => 8

/-- The run of consecutive numbers that a rising list begins with, at most n of them. -/
def runOf : Nat → List Nat → List Nat
  | 0, _ => []
  | _, [] => []
  | _ + 1, [a] => [a]
  | n + 1, a :: b :: l => if b = a + 1 then a :: runOf n (b :: l) else [a]

/-- R166: a rising list of blocks in runs of adjacent ones, at most 64 each. -/
def blockRuns : Nat → List Nat → List (List Nat)
  | 0, _ => []
  | _, [] => []
  | n + 1, l => runOf 64 l :: blockRuns n (l.drop (runOf 64 l).length)

/-- R159, R164, R165: the 8-byte header of a frame. -/
def LinkFrame.header : LinkFrame → List Byte
  | .line tbank lseq dies _ _ => [1, BitVec.ofNat 8 tbank] ++ leBytes 2 lseq ++ leBytes 4 (maskOf (dies.map (·.1)))
  | .config mode pitch quiet dies _ =>
    [2, BitVec.ofNat 8 mode] ++ leBytes 2 pitch ++ leBytes 2 quiet ++ leBytes 2 (maskOf dies)
  | .trim bank both first n _ => [3, BitVec.ofNat 8 (bank + 2 * bitOf both)] ++ leBytes 2 first ++ leBytes 4 n
  | .idReq => leBytes 8 5
  | .start tbank => [6, BitVec.ofNat 8 tbank] ++ leBytes 6 0

/-- The code of a port nozzle in a LINE frame, 0 where it has none. -/
def codeAt (codes : List (Nat × Nat)) (j : Nat) : Nat := ((codes.find? fun e => e.1 == j).map (·.2)).getD 0

/-- R159: byte i of CODES of die d: four primitives of phase group i / 48. -/
def codesByte (codes : List (Nat × Nat)) (ord : List Nat) (d i : Nat) : Byte :=
  BitVec.ofNat 8 ((List.range 4).foldl
    (fun b r => b + codeAt codes (3072 * d + 16 * (4 * (i % 48) + r) + ord.getD (i / 48) 0) * 4 ^ r) 0)

/-- R158: bytes followed by their CRC-32C. -/
def withCrc (bs : List Byte) : List Byte := bs ++ leBytes 4 (crc32c bs).toNat

/-- R159: a die block. -/
def dieBlock (codes : List (Nat × Nat)) (ord : List Nat) (die : Nat × List Nat) : List Byte :=
  withCrc ([BitVec.ofNat 8 die.1, 0] ++ die.2.flatMap (leBytes 2) ++ (List.range 768).map (codesByte codes ord die.1))

/-- R157: the body of a frame. -/
def LinkFrame.body : LinkFrame → List Byte
  | .line _ _ dies codes ord => dies.flatMap (dieBlock codes ord)
  | .config _ _ _ _ ord =>
    withCrc ((List.range 8).map fun i => BitVec.ofNat 8 (ord.getD (2 * i) 0 + 16 * ord.getD (2 * i + 1) 0))
  | .trim _ _ _ _ scales => withCrc (scales.map (BitVec.ofNat 8))
  | .idReq | .start _ => []

/-- R157, R158: what stands between SOF and EOF. -/
def LinkFrame.bytes (f : LinkFrame) : List Byte := withCrc f.header ++ f.body

/-- Symbol times on port p's fire link, in ps. -/
def State.symPs (s : State) (p n : Nat) : Nat := ((n : Rat) * s.symTime p * 1000).ceil.toNat

/-- R154, R155, R157: the symbols of a frame on one of the two lanes. -/
def LinkFrame.lane (f : LinkFrame) (k : Nat) : List LinkSym :=
  [LinkSym.sof] ++ (laneBytes k f.bytes).map LinkSym.data ++ [LinkSym.eof]

/-- R154, R155: the symbols of frames that go out one after the other. -/
def laneOf (fs : List LinkFrame) (k : Nat) : List LinkSym := fs.flatMap fun f => f.lane k

/-- R154: n IDLE symbols (K28.5) before what is sent turn the running disparity n times. -/
def idleDisparity (plus : Bool) (n : Nat) : Bool := (codeLane plus (List.replicate (n % 2) .idle)).2

/-- R154: lanes D0 and D1 carry symbols after n IDLE symbols: their running disparities behind them. -/
def Port.coded (x : Port) (n : Nat) (d0 d1 : List LinkSym) : Port :=
  { x with disp := ((codeLane (idleDisparity x.disp.1 n) d0).2, (codeLane (idleDisparity x.disp.2 n) d1).2) }

/-- R154: the codes that frames take on a lane, from a running disparity. -/
def lineCodes (plus : Bool) (fs : List LinkFrame) (k : Nat) : List (BitVec 10) := (codeLane plus (laneOf fs k)).1

/-- R163: a transmission that starts at a and would end at e ends with ABT where the link is cut in between. -/
def Port.cutEnd (x : Port) (a e : Time) : Time := if a < x.cutAt ∧ x.cutAt < e then x.cutAt else e

/-- R154, R162, R163: frames go out one after the other, from the instant the link is free, behind the IDLE symbols since: it is
busy until their end. A frame that is cut ends with ABT. -/
def State.sendFrames (s : State) (p : Nat) (fs : List LinkFrame) : State :=
  s.modPort p fun x =>
    let a := max s.now x.linkFreeAt
    let e := a + s.symPs p (fs.foldl (fun n f => n + f.syms) 0)
    let e' := x.cutEnd a e
    let sym := max 1 (s.symPs p 1)
    let lane (k : Nat) : List LinkSym :=
      if e' = e then laneOf fs k else (laneOf fs k).take ((e' - a) / sym) ++ [.abt]
    { x.coded ((a - x.linkFreeAt) / sym) (lane 0) (lane 1) with linkFreeAt := e', sent := fs, abt := e' != e }

/-- R319: Halyard time, in 2⁻³² ns, at the present instant. -/
def State.halTime (s : State) : Nat := s.hal.base + s.hal.inc * (s.now / 2000 - s.hal.baseTick)

/-- R319: seconds, nanoseconds and fraction of a Halyard time. -/
def halSec (t : Nat) : Nat := t / 2 ^ 32 / 1000000000 % 2 ^ 48
/-- Nanoseconds of a Halyard time. -/
def halNs (t : Nat) : Nat := t / 2 ^ 32 % 1000000000
/-- Fraction of a Halyard time, in 2⁻³² ns. -/
def halFrac (t : Nat) : Nat := t % 2 ^ 32

/-- R320: the short stamp of a Halyard time. -/
def stampOf (t : Nat) : BitVec 64 :=
  BitVec.ofNat 64 (halSec t % 2 ^ 32 * 2 ^ 32 + halNs t * 4 + halFrac t / 2 ^ 30)

/-- R319: Halyard time at instant t, as the counter runs now. -/
def State.halTimeAt (s : State) (t : Time) : Nat := s.hal.base + s.hal.inc * (t / 2000 - s.hal.baseTick)

/-- R320, R321: the short stamp of instant t. -/
def State.stampAt (s : State) (t : Time) : BitVec 64 :=
  if s.ul24 then stampOf ((t - s.relAt) / 2000 * 2 * 2 ^ 32) else stampOf (s.halTimeAt t)

/-- R320, R321: the short stamp of the present instant. -/
def State.shortStamp (s : State) : BitVec 64 := s.stampAt s.now

/-- R314: the Ethernet port of link L. -/
def linkPort (L : Nat) : Nat := L / 4

/-- R333: link L's Ethernet link is up. -/
def State.ethUp (s : State) (L : Nat) : Bool := (s.eth (linkPort L)).up.contains (L % 4)

/-- R328, R332: a frame goes out on link L; it carries e. -/
def State.bxSend (s : State) (L : Nat) (f : BxOut) : State :=
  if !s.ethUp L then s
  else
    let f := { f with ack := (s.bx L).expect }
    let s := s.modBx L fun x => { x with taken := 0, out := some f, wire := s.bxFrame L f }
    let s := s.when (!f.bcast) State.drew
    (s.fadd Reg.LNK_TX_FRAMES_COUNT 1).fadd Reg.ETH_TX_FRAMES_COUNT 1 (linkPort L)

/-- R329: the UP links. -/
def State.upLinks (s : State) : List Nat := (List.range 8).filter fun L => decide ((s.bx L).st = .up)

/-- R329: the peer's identity on link L, as LNK_PEER holds it. -/
def State.peerId (s : State) (L : Nat) : Nat := s.fget Reg.LNK_PEER_ID 0 L

/-- R328: a frame with nothing but its type. -/
def bxPlain (type dst : Nat) : BxOut :=
  { type := type, dst := dst, bcast := false, seqNo := 0, ack := 0, sub := 0, offset := 0, payload := [] }

/-- R335: an EPOCH frame of port p's page goes with BCAST to every UP link (R329: type 0x06); its stamp is the Halyard time of
the page's t0. -/
def State.sendEpoch (s : State) (p page : Nat) (t0 : Time) : State :=
  s.forEach s.upLinks fun s L => s.bxSend L { bxPlain 6 (s.peerId L) with
    bcast := true, payload := leBytes 4 p ++ leBytes 4 page ++ leBytes 8 (s.stampAt t0).toNat }

end Sys2Proof.Machine
end

