-- ==== Sys2Proof/Machine/Screen.lean ====
section
/-! DEFINITION. Screening: who prints a column (R112 to R117), and steps S1 to S7 on one line (R124 to R135). -/

namespace Sys2Proof.Machine

/-- R37, R47: port p marks a page defective. -/
def State.markDefect (s : State) (p : Nat) : State :=
  let i := p / 32
  (s.fput Reg.SEQ_DEFECT_DEFECT (s.fget Reg.SEQ_DEFECT_DEFECT 0 i ||| 2 ^ (p % 32)) 0 i).raise Reg.SEQ_CAUSE_PAGE_DEFECT

/-- R137: member p sets a cause of its screening group's page. -/
def State.raiseScr (s : State) (f : Fld) (p : Nat) : State :=
  let g := p / 12
  (s.raise f g).fput Reg.SCR_ATTN_ATTN (s.fget Reg.SCR_ATTN_ATTN g ||| 2 ^ (p % 12)) g

/-- R108: port p sets a cause of the Band Store. -/
def State.raiseBnd (s : State) (f : Fld) (p : Nat) : State :=
  let i := p / 32
  (s.raise f 0).fput Reg.BND_ATTN_ATTN (s.fget Reg.BND_ATTN_ATTN 0 i ||| 2 ^ (p % 32)) 0 i

/-- R117: the ordered dither B(x, y). -/
def ditherB (x y : Nat) : Nat :=
  let z := x ^^^ y
  (List.range 4).foldl
    (fun a b => a + (if z.testBit b then 2 ^ (2 * (3 - b) + 1) else 0) + (if y.testBit b then 2 ^ (2 * (3 - b)) else 0)) 0

/-- R117: the high side of a seam of length L owns position k on page line n. -/
def seamHigh (dt : Bool) (L k n : Nat) : Bool :=
  decide (ditherB (k % 16) (n % 16) < (if dt then (2 * k + 1) * 128 / L else if L < 2 * k + 1 then 256 else 0))

/-- R117: which side of a seam of port p owns position k; where the port's ramp table holds an uncorrectable error (R35) the
ramp's value is a free one (log 147). -/
def State.seamHigh (s : State) (p : Nat) (dt : Bool) (L k n : Nat) : Bool :=
  if dt && s.isUe .ramp p then decide (ditherB (k % 16) (n % 16) < Config.freeValue (s.free + k) % 257) else Sys2Proof.Machine.seamHigh dt L k n

/-- R112: the column that nozzle j of port p serves, if it is a physical nozzle (R13, R135). -/
def State.nozzleCol (s : State) (p j : Nat) : Option Nat :=
  if s.ul24 then (if j < (s.ring p).cols then some j else none)
  else
    let d := j / 3072
    let i := j % 3072
    let g := p / 12; let m := p % 12
    if (s.dies p).contains d && decide (i < s.aget Reg.SCR_DIE_NOZZLES g m d) then
      let sp := i / s.dieRows p d
      some (if s.abit Reg.SCR_DIE_REVERSE g m d then s.dieBase p d + s.dieSpan p d - 1 - sp else s.dieBase p d + sp)
    else none

/-- R112: the nozzle of die d and row r that serves column c. -/
def State.nozzleAt (s : State) (p d r c : Nat) : Nat :=
  let sp := if s.abit Reg.SCR_DIE_REVERSE (p / 12) (p % 12) d then s.dieBase p d + s.dieSpan p d - 1 - c
            else c - s.dieBase p d
  3072 * d + sp * s.dieRows p d + r

/-- R116: the owner of column c on page line n. -/
def State.owner (s : State) (p n c : Nat) : Option Nat :=
  let g := p / 12; let m := p % 12
  if s.ul24 then (if c < (s.ring p).cols then some c else none)
  else
    let cols := (s.ring p).cols
    let dt := s.abit Reg.SCR_PCFG_DT_EN g m
    let lseam := s.aget Reg.SCR_SEAM_LSEAM g m
    let rseam := s.aget Reg.SCR_SEAM_RSEAM g m
    let mine := if c < lseam then s.seamHigh p dt lseam c n
                else if cols - rseam ≤ c then !s.seamHigh p dt rseam (c - (cols - rseam)) n else true
    let die := match (s.dieOrder p).filter (fun d => decide (s.dieBase p d ≤ c ∧ c < s.dieEnd p d)) with
      | [] => none
      | [d] => some d
      | lo :: hi :: _ =>
        let L := min (s.dieEnd p lo) (s.dieEnd p hi) - s.dieBase p hi
        some (if s.seamHigh p dt L (c - s.dieBase p hi) n then hi else lo)
    if !mine then none
    else die.map fun d =>
      let r := if s.dieRows p d = 2 ∧ s.abit Reg.SCR_PCFG_PAIR g m = false then (n + c) % 2 else 0
      s.nozzleAt p d r c

/-- R123: entry j of the active NAT of port p cannot be corrected. -/
def State.natUe (s : State) (p j : Nat) : Bool := s.isUe .nat ((12288 * p + j) / 2)

/-- R131: nozzle k is a usable substitute of owner o. -/
def State.substOk (s : State) (p o k : Nat) : Bool :=
  k != o && decide (k < 12288) && !s.natUe p k && !natHidden (s.natA p k) &&
  (match s.nozzleCol p k with
   | some c => decide (c < (s.ring p).cols)
   | none => false)

/-- R130, R131: what step S3 marks a column for. -/
inductive Hide where
  /-- no owner at this port -/
  | bare
  /-- the owner prints -/
  | own (o : Nat)
  /-- the drop moves from the owner to the substitute -/
  | subst (o k : Nat)
  /-- the value or drop moves to neighbour columns -/
  | spread (o : Nat)
  /-- the drop is discarded without count (R123, R135) -/
  | dead
  deriving DecidableEq, Repr

/-- S2 and S3 for one column. -/
def State.hideOf (s : State) (p n c : Nat) : Hide :=
  match s.owner p n c with
  | none => .bare
  | some o =>
    if s.natUe p o then .dead
    else
      let w := s.natA p o
      if !natHidden w then .own o
      else if natSubstEn w && s.substOk p o (natSubst w) then .subst o (natSubst w)
      else if s.ul24 then .dead
      else .spread o

/-- A column of a line: its number, its value or code, its mark. -/
structure Col where
  c : Nat
  v : Nat
  k : Hide
  deriving DecidableEq, Repr

/-- R132: a neighbour column that can take a value or a drop: its nozzle. -/
def Col.taker : Option Col → Option Nat
  | some ⟨_, _, .own o⟩ => some o
  | _ => none

/-- Each element with its neighbours. -/
def windows {α : Type} : Option α → List α → List (Option α × α × Option α)
  | _, [] => []
  | l, [x] => [(l, x, none)]
  | l, x :: y :: r => (l, x, some y) :: windows (some x) (y :: r)

/-- S1 (R82, R125): the value or code of every column. -/
def unpack (format : Nat) (row : List Byte) : List Nat :=
  match format with
  | 0 => row.flatMap fun b => [b.toNat, b.toNat]
  | 1 => row.map (·.toNat)
  | 2 => row.flatMap fun b => (List.range 4).map fun i => b.toNat / 4 ^ i % 4
  | _ => row.flatMap fun b => (List.range 8).map fun i => b.toNat / 2 ^ i % 2

/-- The progress of a line through the hiding steps: decisions by nozzle, error state, and what is counted. -/
structure Screened where
  drops : Sparse Nat
  carry : Sparse Nat
  toggle : Sparse Nat
  substN : Nat
  spreadN : Nat
  lostN : Nat
  collideN : Nat
  deriving DecidableEq, Repr

/-- The decision of a nozzle. -/
def Screened.drop (a : Screened) (j : Nat) : Nat := Sparse.get (fun _ => 0) a.drops j
/-- Give a nozzle a decision. -/
def Screened.put (a : Screened) (j v : Nat) : Screened := { a with drops := Sparse.put (fun _ => 0) a.drops j v }

/-- R132: the shares that a column marked for spreading gives to its lower and its higher neighbour. -/
def shares (w : Option Col × Col × Option Col) : Nat × Nat :=
  match w.2.1.k with
  | .spread _ =>
    match Col.taker w.1, Col.taker w.2.2 with
    | some _, some _ => (1, 1)
    | some _, none => (2, 0)
    | none, some _ => (0, 2)
    | none, none => (0, 0)
  | _ => (0, 0)

/-- S4 (R132): the columns after the spread, and the carries. Every sum is formed from the values before S4. -/
def spreadC8 (spread : Nat) (a : Screened) (cols : List Col) : List Col × Screened :=
  let marked := (windows none cols).map fun w => (w.2.1, shares w)
  (windows none marked).foldl
    (fun acc w =>
      let x := w.2.1.1
      let fromLow := match w.1 with
        | some y => y.1.v * spread * y.2.2
        | none => 0
      let fromHigh := match w.2.2 with
        | some y => y.1.v * spread * y.2.1
        | none => 0
      let gives := (match w.1 with | some y => y.2.2 | none => 0) + (match w.2.2 with | some y => y.2.1 | none => 0)
      let b := acc.2
      let b := match x.k with
        | .spread _ =>
          if w.2.1.2 = (0, 0) then (if x.v = 0 then b else { b with lostN := b.lostN + 1 })
          else { b with spreadN := b.spreadN + 1 }
        | _ => b
      if gives = 0 then (acc.1 ++ [x], b)
      else
        let add := Sparse.get (fun _ => 0) b.carry x.c + fromLow + fromHigh
        (acc.1 ++ [{ x with v := min 255 (x.v + add / 256) }],
         { b with carry := Sparse.put (fun _ => 0) b.carry x.c (add % 256) }))
    ([], a)

/-- R126, R128: the threshold of column c on page line n for a nozzle's DENSITY_ADJ. -/
def State.threshold (s : State) (p n c : Nat) (da : Int) : Int :=
  let f := s.flow p
  let x := (c + s.aget Reg.SCR_PCFG_XORG (p / 12) (p % 12) + f.phaseX) % 256
  let y := (n + f.phaseY) % 256
  let b := memGet 0 s.masks (0x80000 * (p / 12) + 0x10000 * f.slot + 256 * y + x)
  (b.toNat : Int) * (128 - da) / 128

/-- R129: the 64-bit mask word that serves column c. -/
def State.maskWord (s : State) (p n c : Nat) : Nat :=
  let f := s.flow p
  (0x80000 * (p / 12) + 0x10000 * f.slot + 256 * ((n + f.phaseY) % 256)
    + (c + s.aget Reg.SCR_PCFG_XORG (p / 12) (p % 12) + f.phaseX) % 256) / 8

/-- R129: an uncorrectable mask, line-buffer or error-state word serves column c. The layout of the last two is not
given; eight columns share a word (log 18). DESIGN CHOICE (log 145): every screened line reads the line-buffer and
error-state words of all its columns, whatever its format and whether or not it spreads, and a C8 line the mask words of all
its columns, also of those that get no threshold. -/
def State.colUe (s : State) (p n c : Nat) (c8 : Bool) : Bool :=
  (c8 && s.isUe .mask (s.maskWord p n c)) || s.isUe .lineBuf (1536 * p + c / 8) || s.isUe .errState (1536 * p + c / 8)

/-- R129: the correctable mask, line-buffer and error-state words that serve columns of the line. -/
def State.colCes (s : State) (p n : Nat) (cs : List Nat) (c8 : Bool) : List (Store × Nat) :=
  s.ce.filter fun e => cs.any fun c =>
    (c8 && e == (.mask, s.maskWord p n c)) || e == (.lineBuf, 1536 * p + c / 8) || e == (.errState, 1536 * p + c / 8)

/-- S5 and the owner decisions of S6 for contone. -/
def State.thresholdCols (s : State) (p n : Nat) (cols : List Col) : List Col :=
  cols.map fun x =>
    let da := match x.k with
      | .own o => natDensity (s.natA p o)
      | .subst _ k => natDensity (s.natA p k)
      | _ => 0
    match x.k with
    | .own _ | .subst _ _ => { x with v := if s.threshold p n x.c da < (x.v : Int) then 1 else 0 }
    | _ => { x with v := 0 }

/-- S6: the owners' own decisions. -/
def ownDrops (a : Screened) (cols : List Col) : Screened :=
  cols.foldl (fun b x => match x.k with
    | .own o => if x.v = 0 then b else b.put o x.v
    | _ => b) a

/-- S6, R133: D1 and D2 spreads in increasing column order. DESIGN CHOICE (log 145): a spread drop may land on a column whose own
drops an uncorrectable word suppresses (R129): its owner counts as free. -/
def spreadDrops (a : Screened) (cols : List Col) : Screened :=
  (windows none cols).foldl
    (fun b w =>
      let x := w.2.1
      match x.k with
      | .spread _ =>
        if x.v = 0 then b
        else
          let t := Sparse.get (fun _ => 0) b.toggle x.c
          let free (y : Option Col) : Option Nat := match Col.taker y with
            | some o => if b.drop o = 0 then some o else none
            | none => none
          let first := free (if t = 0 then w.1 else w.2.2)
          let second := free (if t = 0 then w.2.2 else w.1)
          match (match first with | some o => some o | none => second) with
          | some o =>
            { b.put o x.v with spreadN := b.spreadN + 1, toggle := Sparse.put (fun _ => 0) b.toggle x.c (1 - t) }
          | none => { b with lostN := b.lostN + 1 }
      | _ => b) a

/-- S6, R134: substitution moves. DESIGN CHOICE (log 145): in increasing column order, which decides the code that stays where two
moves of a D2 line reach one substitute. -/
def substDrops (a : Screened) (cols : List Col) : Screened :=
  cols.foldl (fun b x => match x.k with
    | .subst _ k =>
      if x.v = 0 then b
      else if b.drop k = 0 then { b.put k x.v with substN := b.substN + 1 }
      else { b with substN := b.substN + 1, collideN := b.collideN + 1 }
    | _ => b) a

/-- Without repeats. -/
def dedup (l : List Nat) : List Nat := l.foldl (fun a x => if a.contains x then a else a ++ [x]) []

/-- R35: an access corrects the correctable words among ws and counts them. -/
def State.correct (s : State) (k : Store) (ws : List Nat) : State :=
  s.forEach (dedup (ws.filter (s.isCe k))) fun s w => { s.mend k w with eccCount := s.eccCount + 1 }

/-- R123: the entries that the line reads: those of owners, and those of the substitutes that hidden owners name; a SUBST
beyond the port's own entries names none (R131). -/
def State.lineNat (s : State) (p n : Nat) (cs : List Nat) : List Nat :=
  cs.flatMap fun c => match s.owner p n c with
    | none => []
    | some o => if natHidden (s.natA p o) && natSubstEn (s.natA p o) && decide (natSubst (s.natA p o) < 12288) then
      [o, natSubst (s.natA p o)] else [o]

/-- R360, R378: the stop-request line of port p asserts: the port is served before the command ends. -/
def State.stopPort (s : State) (p : Nat) : State := { s with kps := { s.kps with stops := insertNat p s.kps.stops } }

/-- R123: port p reads NAT entries that cannot be corrected: the cause, and a message for each that orders Port
Safe. The UL-24 profile has no screening page to show the cause. -/
def State.natErrors (s : State) (p : Nat) (bad : List Nat) : State :=
  let s := s.when (!bad.isEmpty && !s.ul24) fun s => s.raiseScr Reg.SCR_CAUSE_NAT_UE p
  (s.forEach bad fun s j => s.send 1 p kindNatUe 2 j).when (!bad.isEmpty) fun s => s.stopPort p

/-- R35, R123: screening, the port-timing island or the health unit reads entries js of port p's active NAT: correctable words
are corrected and counted, and uncorrectable entries are the NAT failure. -/
def State.readNat (s : State) (p : Nat) (js : List Nat) : State :=
  (s.correct .nat (js.map fun j => (12288 * p + j) / 2)).natErrors p (dedup (js.filter (s.natUe p)))

/-- R131: a hidden owner of the line asks for a substitute that is not usable. -/
def State.substBad (s : State) (p n : Nat) (cs : List Nat) : Bool :=
  cs.any fun c => match s.hideOf p n c with
    | .spread o => natSubstEn (s.natA p o)
    | _ => false

/-- R35: the line buffers of the columns cs of port p, and their error state, are written again: they hold no error any
more. -/
def State.rewriteLine (s : State) (p : Nat) (cs : List Nat) : State :=
  let hit (e : Store × Nat) : Bool := (e.1 == .lineBuf || e.1 == .errState) && cs.any fun c => e.2 == 1536 * p + c / 8
  { s with ue := s.ue.filter fun e => !hit e, ce := s.ce.filter fun e => !hit e }

/-- R124: screening of page line n of port p from its row: the S6 decisions and the state after. DESIGN CHOICE (log 145):
the detail of DATA_UE is the mask address of the first column whose word is bad, for a line-buffer or error-state word too. -/
def State.screenLine (s : State) (p n format : Nat) (row : List Byte) : State × Sparse Nat :=
  let g := p / 12; let m := p % 12
  let x := s.port p
  let c8 := decide (format ≤ 1)
  let vals := unpack format row
  let ids := List.range vals.length
  let cols0 := (ids.zip vals).map fun e => (⟨e.1, e.2, s.hideOf p n e.1⟩ : Col)
  let a0 : Screened := ⟨[], x.carry, x.toggle, 0, 0, 0, 0⟩
  let (cols1, a1) := if c8 && !s.ul24 then spreadC8 (s.aget Reg.SCR_PCFG_SPREAD g m) a0 cols0 else (cols0, a0)
  let cols2 := if c8 then s.thresholdCols p n cols1 else cols1
  let ue := !s.ul24 && ids.any fun c => s.colUe p n c c8
  let cols := if ue then cols2.map fun y => if s.colUe p n y.c c8 then { y with v := 0 } else y else cols2
  let a2 := ownDrops a1 cols
  let a3 := if c8 || s.ul24 then a2 else spreadDrops a2 cols
  let a := substDrops a3 cols
  let nats := s.lineNat p n ids
  let sb := !s.ul24 && s.substBad p n ids
  let s := s.setPort p { x with carry := a.carry, toggle := a.toggle }
  let s := (s.readNat p nats).correct .ramp [p]
  if s.ul24 then (s, a.drops)
  else
    let s := (s.colCes p n ids c8).foldl (fun s e => (s.mend e.1 e.2).fadd Reg.SCR_ECC_CE_COUNT 1 g) s
    let s := s.fadd Reg.SCR_SUBST_CNT_COUNT a.substN g m
    let s := s.fadd Reg.SCR_SPREAD_CNT_COUNT a.spreadN g m
    let s := s.fadd Reg.SCR_LOST_CNT_COUNT a.lostN g m
    let s := s.fadd Reg.SCR_COLLIDE_CNT_COUNT a.collideN g m
    let s := s.when (a.lostN != 0) fun s => s.raiseScr Reg.SCR_CAUSE_LOST p
    let s := s.when (a.collideN != 0) fun s => s.raiseScr Reg.SCR_CAUSE_COLLIDE p
    let s := s.when sb fun s => s.raiseScr Reg.SCR_CAUSE_SUBST_BAD p
    let s := s.when ue fun s =>
      ((s.raiseScr Reg.SCR_CAUSE_ECC_UE p).markDefect p).send 0 (24 + g) kindDataUe 1
        (8 * s.maskWord p n ((ids.find? fun c => s.colUe p n c c8).getD 0))
    (s.rewriteLine p ids, a.drops)

/-- R112, R214, R216: the timing line's whole-line delay of nozzle j of port p. -/
def State.nozzleK (s : State) (p j : Nat) : Int :=
  if s.ul24 then 0
  else
    let d := j / 3072
    let r := if s.dieRows p d = 2 then j % 3072 % 2 else 0
    s.rowK p d r

/-- S7 (R216): the decisions of timing line m, from the S6 decisions of the page lines it draws on. -/
def State.handOver (s : State) (p m pageLines : Nat) (decs : List (Nat × Sparse Nat)) : Sparse Nat :=
  decs.foldl
    (fun acc e =>
      if e.1 < pageLines ∧ e.1 ≤ m then
        (e.2.filter fun d => s.nozzleK p d.1 == (m : Int) - (e.1 : Int) && decide (s.nozzleK p d.1 ≤ 7)).foldl
          (fun acc d => Sparse.put (fun _ => 0) acc d.1 d.2) acc
      else acc) []

end Sys2Proof.Machine
end

