-- ==== Sys2Proof/Machine/Shadow.lean ====
section
/-! DEFINITION. Shadow transfer (R73 to R76), the trim banks of the head (R165, R166), and the tables of a recipe
(R41, R439, R441). -/

namespace Sys2Proof.Machine

/-- The entries of a map whose keys lie outside a range. -/
def Sparse.cut {α : Type} (m : Sparse α) (lo n : Nat) : Sparse α := m.filter fun e => !decide (lo ≤ e.1 ∧ e.1 < lo + n)

/-- The entries of a map whose keys lie in a range. -/
def Sparse.slice {α : Type} (m : Sparse α) (lo n : Nat) : Sparse α := m.filter fun e => decide (lo ≤ e.1 ∧ e.1 < lo + n)

/-- Replace the entries of a range by those of another map. -/
def Sparse.copyRange {α : Type} [DecidableEq α] (d : Nat → α) (dst src : Sparse α) (lo n : Nat) : Sparse α :=
  (src.slice lo n).foldr (fun e m => Sparse.put d m e.1 e.2) (dst.cut lo n)

/-- R73: the addresses of port p's shadowed registers: its own pages, and its part of its screening group's page. -/
def shadowedAddrs (p : Nat) : List Nat :=
  [Reg.PL_MOUNT_LO_MOUNT.addr p, Reg.PL_MOUNT_HI_MOUNT.addr p] ++
  (List.range 8).map (fun i => Reg.PL_ROWOFS_O.addr p i) ++
  [Reg.PL_LATE_WIN_WIN.addr p, Reg.PL_REV_REVERSE_THR.addr p, Reg.EN_CTL_HIST_EN.addr p, Reg.EN_HYST_HYST.addr p] ++
  (List.range 8).map (fun i => Reg.EN_TB_EVEN.addr p i) ++
  [Reg.SCR_PCFG_XORG.addr (p / 12) (p % 12), Reg.SCR_SEAM_LSEAM.addr (p / 12) (p % 12)] ++
  (List.range 4).map (fun d => Reg.SCR_DIE_COL_BASE.addr (p / 12) (p % 12) d)

/-- R73: a write reaches shadowed content: the port is DIRTY. -/
def State.setDirty (s : State) (p : Nat) : State := s.modPort p fun x => { x with dirty := true }

/-- R35: the words of port p's active NAT, width and threshold tables are written whole from its shadow: they hold no
error, but for a word whose shadow cannot be corrected; the shadow words are corrected as they are read, and counted. -/
def State.rewritten (s : State) (p : Nat) : State :=
  let hit (e : Store × Nat) : Bool :=
    (e.1 == .nat && e.2 / 6144 == p) || (e.1 == .width && e.2 / 64 == p) || (e.1 == .thresh && e.2 / 4 == p)
  let dark (e : Store × Nat) : Option (Store × Nat) :=
    if e.1 = .natShadow ∧ e.2 / 6144 = p then some (.nat, e.2)
    else if e.1 = .widthShadow ∧ e.2 / 64 = p then some (.width, e.2) else none
  { s with
    ue := (s.ue.filter fun e => !hit e) ++ s.ue.filterMap dark
    ce := s.ce.filter fun e => !hit e && (dark e).isNone
    eccCount := s.eccCount + (s.ce.filter fun e => (dark e).isSome).length }

/-- R40 B4, R74: the whole shadow content of port p becomes active. Conditions that the new content ends stay latched
(R69). -/
def State.copyShadow (s : State) (p : Nat) : State :=
  let s := s.latchPort p
  let s := { s with
    natActive := Sparse.copyRange (fun _ => natDefault) s.natActive s.natShadow (12288 * p) 12288
    widthActive := Sparse.copyRange (widthDefault s.ul24) s.widthActive s.widthShadow (128 * p) 128 }
  let s := s.forEach (shadowedAddrs p) fun s a => s.setAword a (s.word a)
  (s.rewritten p).modPort p fun x => { x with dirty := false }

/-- R166: TRIM_MODE of port p. -/
def State.trimming (s : State) (p : Nat) : Bool := s.fbit Reg.LK_CFG_TRIM_MODE p

/-- R166: the device keeps the head's banks in step: TRIM_MODE is set and START has been sent. -/
def State.trimOn (s : State) (p : Nat) : Bool := s.trimming p && (s.port p).link == .run

/-- What the head's bank b holds for nozzle j, as far as the device has sent it. -/
def Port.bankGet (x : Port) (b j : Nat) : Nat := Sparse.get (fun _ => 32) x.headTrim (12288 * b + j)

/-- The device sends the WSCALE values of a block (16 nozzles from 16k) to a bank. -/
def Port.sendBlock (x : Port) (b k : Nat) (ws : List Nat) : Port :=
  { x with headTrim := Sparse.putList (fun _ => 32) x.headTrim (12288 * b + 16 * k) ws }

/-- R123: WSCALE of an active entry as the port-timing island reads it: 32 where it cannot be corrected. -/
def State.wscaleA (s : State) (p j : Nat) : Nat := if s.natUe p j then 32 else natWscale (s.natA p j)

/-- The active WSCALE values of a block. -/
def State.blockA (s : State) (p k : Nat) : List Nat := (List.range 16).map fun i => s.wscaleA p (16 * k + i)
/-- R35, R123: entry j of the shadow NAT of port p cannot be corrected. -/
def State.natUeS (s : State) (p j : Nat) : Bool := s.isUe .natShadow ((12288 * p + j) / 2)
/-- The shadow WSCALE values of a block, 32 where an entry cannot be corrected. -/
def State.blockS (s : State) (p k : Nat) : List Nat :=
  (List.range 16).map fun i => if s.natUeS p (16 * k + i) then 32 else natWscale (s.natS p (16 * k + i))

/-- The nozzles of a block. -/
def blockNozzles (k : Nat) : List Nat := (List.range 16).map (16 * k + ·)

/-- R35, R123: entries js of port p's shadow NAT are read, as its active ones are. -/
def State.readNatS (s : State) (p : Nat) (js : List Nat) : State :=
  (s.correct .natShadow (js.map fun j => (12288 * p + j) / 2)).natErrors p (js.filter (s.natUeS p))

/-- R166, rules 2 and 5: a block is marked pending for the inactive bank. -/
def State.markBlock (s : State) (p k : Nat) : State :=
  s.when (s.trimOn p) fun s => s.modPort p fun x => { x with trimPend := insertNat k x.trimPend }

/-- R166, rule 1: before START the whole active table goes to both banks, and START names bank 0; the blocks whose
shadow values differ are pending for the other bank from then on. -/
def State.initialTrims (s : State) (p : Nat) : State :=
  let s := s.modPort p fun x => { x with bank := 0, trimPend := [], trimImm := [] }
  s.when (s.trimming p) fun s =>
    let ws := (List.range 12288).map fun j => s.wscaleA p j
    let diff := (List.range 768).filter fun k => s.blockA p k != s.blockS p k
    s.modPort p fun x =>
      { x with trimPend := diff, headTrim := Sparse.putList (fun _ => 32) (Sparse.putList (fun _ => 32) x.headTrim 0 ws) 12288 ws }

/-- R166, rules 3, 4 and 7: at step B4 or a NOW transfer the named bank switches, or TRIM_LAG is set. -/
def State.switchBank (s : State) (p : Nat) : State :=
  s.when (s.trimOn p) fun s =>
    let x := s.port p
    if x.trimPend.isEmpty && x.trimImm.isEmpty then
      let diff := (List.range 768).filter fun k =>
        (List.range 16).any fun i => x.bankGet 0 (16 * k + i) != x.bankGet 1 (16 * k + i)
      s.setPort p { x with bank := 1 - x.bank, trimPend := diff }
    else s.raise Reg.LK_CAUSE_TRIM_LAG p

/-- R439: a section entry of a recipe. -/
structure Section where
  type : Nat
  index : Nat
  offset : Nat
  length : Nat
  crc : Nat
  deriving DecidableEq, Repr

/-- R440: where UPD_STAGE_BASE places a copy in the spool. -/
def State.stageBase (s : State) : Nat := 65536 * s.fget Reg.UPD_STAGE_BASE_BASE

/-- R424, R440: where the payload of the staged copy stands: behind its header. -/
def State.stagedPayload (s : State) : Nat := s.upd.stagedAt + 64

/-- Bytes of the spool. -/
def State.spoolBytes (s : State) (a n : Nat) : List Byte := memBytes 0 s.spool a n

/-- R439: the sections of a recipe payload that starts at `base` of a byte reader. -/
def sectionsOf (read : Nat → Nat → List Byte) : List Section :=
  (List.range (leNat (read 0 4))).map fun i =>
    let e := 16 + 16 * i
    ⟨leNat (read e 1), leNat (read (e + 1) 1), leNat (read (e + 4) 4), leNat (read (e + 8) 4), leNat (read (e + 12) 4)⟩

/-- The sections of the staged recipe. -/
def State.staged (s : State) : List Section := sectionsOf fun o n => s.spoolBytes (s.stagedPayload + o) n

/-- The staged data of a section. -/
def State.sectionData (s : State) (x : Section) : List Byte := s.spoolBytes (s.stagedPayload + x.offset) x.length

/-- The 32-bit words of a section. -/
def wordsOf : List Byte → List Word
  | a :: b :: c :: d :: r => BitVec.ofNat 32 (leNat [a, b, c, d]) :: wordsOf r
  | _ => []

/-- R41: a WIDTH section goes into both copies. -/
def State.loadWidth (s : State) (p : Nat) (ws : List Word) : State :=
  s.forEach (List.range (min 97 ws.length)) fun s k =>
    let w := ws.getD k 0
    let w := if k = 96 then w &&& 0xFFFF else w
    let w := if k = 96 ∧ s.ul24 then 0 else w
    (s.setWidthS p k w).setWidthA p k w

/-- R41, R166 rule 6: a NAT section goes into both copies, and every changed trim block to both banks. -/
def State.loadNat (s : State) (p : Nat) (ws : List Word) : State :=
  let n := min 12288 ws.length
  let changed := dedup (((List.range n).filter fun j =>
    natWscale (s.natA p j) != natWscale (ws.getD j 0) || natWscale (s.natS p j) != natWscale (ws.getD j 0)).map (· / 16))
  let s := s.forEach (List.range n) fun s j => (s.setNatS p j (ws.getD j 0)).setNatA p j (ws.getD j 0)
  s.when (s.trimOn p && !changed.isEmpty) fun s =>
    (s.forEach changed fun s k => s.modPort p fun x =>
      let x := (x.sendBlock 0 k (s.blockA p k)).sendBlock 1 k (s.blockA p k)
      { x with trimPend := x.trimPend.filter (· ≠ k), trimImm := x.trimImm.filter (· ≠ k) }).sendFrames p
      ((blockRuns changed.length changed).map fun ks =>
        .trim 0 true (16 * ks.headD 0) (16 * ks.length) (ks.flatMap (s.blockA p)))

/-- R41: pending shadow content of the tables that the recipe carries for port p would be discarded. -/
def State.discards (s : State) (p : Nat) (secs : List Section) : Bool :=
  (secs.any (fun x => x.type == 1 && x.index == p) &&
    s.widthShadow.slice (128 * p) 128 != s.widthActive.slice (128 * p) 128) ||
  (secs.any (fun x => x.type == 2 && x.index == p) &&
    s.natShadow.slice (12288 * p) 12288 != s.natActive.slice (12288 * p) 12288)

/-- R41, R441: port p takes its WIDTH and NAT sections from the staged copy. -/
def State.loadTables (s : State) (p : Nat) : State :=
  let s := s.latchPort p
  s.staged.foldl (fun s x =>
    if x.index ≠ p ∨ s.portCount ≤ p then s
    else match x.type with
      | 1 => s.loadWidth p (wordsOf (s.sectionData x))
      | 2 => s.loadNat p (wordsOf (s.sectionData x))
      | _ => s) s

/-- R141, R144, R153, R195, R217, R47: what a register takes from a written word in the profile. -/
def State.profileWord (s : State) (p : Page) (off : Nat) (v : Word) : Word :=
  if p == .scr && off == 0x44 then v &&& 0xFFFF3FFF
  else if !s.ul24 then v
  else match p, off with
  | .ft, 0x100 => Reg.GRP_PACE_FIXED.set v 1
  | .ft, 0x54 => Reg.FT_CTL_OVD_EN.set v 0
  | .lk, 0x40 => Reg.LK_CFG_TRIM_MODE.set v 0
  | .seq, 0x40 => v &&& 0xFFFFFF
  | .seq, 0x44 => 0
  | .seq, 0x48 => 0
  | _, _ => v

/-- R439: an entry of a PARAM section: an offset and a value. -/
def paramPairs : List Word → List (Nat × Word)
  | a :: v :: r => (a.toNat, v) :: paramPairs r
  | _ => []

/-- R174: FT_SLOT and FT_SEQ. -/
def planReg (p : Page) (off : Nat) : Bool := p == .ft && (off == 0x4C || off == 0x50)

/-- R439, R441: port p takes a PARAM section: each entry gives a config field of page 0 or 3 of the port its value, as a
write would (R146, R174): what the profile fixes keeps its value, and a width plan that would become invalid is ignored
with SLOT_REJ (R150). -/
def State.putParams (s : State) (p : Nat) (ws : List Word) : State :=
  (paramPairs ws).foldl (fun s e =>
    match locate e.1 with
    | some (pg, i, off) =>
      if (pg = .ft ∨ pg = .lk) ∧ i = p then
        let v := s.profileWord pg off e.2
        let new := ((fieldsAt pg off).filter (·.config)).foldl (fun w f => f.set w (f.get v)) (s.word e.1)
        let s' := s.setWord e.1 new
        if planReg pg off && !planOk (s'.groupA (p / 12)) (s'.slots (p / 12)) then s.raise Reg.FT_CAUSE_SLOT_REJ p else s'
      else s
    | none => s) s

/-- R441: port p takes its PARAM section from the staged copy. -/
def State.loadParams (s : State) (p : Nat) : State :=
  let s := s.latchPort p
  let s := s.staged.foldl (fun s x =>
    if x.type = 4 ∧ x.index = p ∧ p < s.portCount then s.putParams p (wordsOf (s.sectionData x)) else s) s
  (s.modPort p fun x => { x with paramPend := false })

/-- R441: the recipe carries a PARAM section for port p. -/
def State.hasParams (s : State) (p : Nat) : Bool := s.staged.any fun x => x.type == 4 && x.index == p

/-- R441: a port in OFF or SERVICE takes its PARAM section now; any other awaits it. -/
def State.paramsNow (s : State) (p : Nat) : State :=
  if !s.hasParams p then s
  else if (s.port p).st = .off ∨ (s.port p).st = .service then s.loadParams p
  else s.modPort p fun x => { x with paramPend := true }

/-- R441: a port enters SERVICE with its PARAM section still awaited. -/
def State.paramsLand (s : State) (p : Nat) : State := s.when (s.port p).paramPend fun s => s.loadParams p

/-- R441: port p leaves its page flow while an activation is pending and before its boundary into the landing page:
its load is due. -/
def State.recipeDue (s : State) (p : Nat) : State :=
  match s.upd.act with
  | some a => if !a.staging && !(s.port p).recipeDone then s.modPort p fun x => { x with recipeLoad := true } else s
  | none => s

/-- R443: BOOT_TRIES as written; 0 is taken as 1. -/
def State.bootTries (s : State) : Nat := max 1 (s.fget Reg.UPD_BOOT_TRIES_TRIES)

/-- R432: a change of the directory writes the other copy, with the generation plus 1 and BOOT_TRIES as UPD_BOOT_TRIES has it. -/
def State.changeDir (s : State) (f : Dir → Dir) : State :=
  let d := f s.upd.dir
  let n := s.bootTries
  { s with upd := s.upd.putDir { d with
      gen := (d.gen + 1) % 2 ^ 32
      mgmt := { d.mgmt with bootTries := n }
      safety := { d.safety with bootTries := n } } }

/-- R47, R441: when every port in its page flow has passed step B6 (or has loaded), ACTIVATED is set, the bank becomes
ACTIVE in the directory and no page is pending any more. -/
def State.activationCheck (s : State) : State :=
  match s.upd.act with
  | some a =>
    if a.staging || s.portList.any (fun p => (s.port p).inFlow && !(s.port p).recipeDone) then s
    else
      let s := s.changeDir fun d => { d with active := some a.bank }
      let s := { s with upd := { s.upd with act := none } }
      let s := s.forEach s.portList fun s p => s.modPort p fun x => { x with recipeDone := false }
      (s.raise Reg.SEQ_CAUSE_ACTIVATED).fput Reg.SEQ_ACT_PAGE_PAGE 0xFFFFFFFF
  | none => s

end Sys2Proof.Machine
end

