-- ==== Sys2Proof/Machine/Flow.lean ====
section
/-! DEFINITION. The page flow of a port: where its lines stand (R212 to R226), the reader's rows (R98 to R104), lost
lines (R225), entering and leaving the flow (R37, R478, R479), and the boundary (R40). -/

namespace Sys2Proof.Machine

/-- R39, R475: group g uses fixed-clock pacing. -/
def State.fixedPace (s : State) (g : Nat) : Bool := (s.groupA g).fixed

/-- The observer of group g's media reference. -/
def State.obs (s : State) (g : Nat) : Chan := s.chan (s.refChan g)

/-- R153: how many ticks of the line clock of group g have come. -/
def State.tickCount (s : State) (g : Nat) : Nat := Sparse.get (fun _ => 0) s.ticks g

/-- R153: the line clock of group g: its tick 0 and its period in 2⁻³² ns; period 0 while it is stopped. -/
def State.clock (s : State) (g : Nat) : Time × Nat := Sparse.get (fun _ => (0, 0)) s.clocks g

/-- R153: the instant of tick j. -/
def State.tickTime (s : State) (g j : Nat) : Time :=
  let c := s.clock g
  (gridPs ((c.1 : Rat) + (j : Rat) * ((c.2 : Rat) * 1000 / (2 ^ 32 : Nat)))).toNat

/-- R100, R226: the present line period of port p in ps; 0 where the media stands still. -/
def State.linePs (s : State) (p : Nat) : Rat :=
  let g := p / 12
  if s.fixedPace g then (s.groupA g).period * 1000
  else
    let v := (s.obs g).v
    if v = 0 then 0 else s.pitch g / (if v < 0 then -v else v) * 1000000

/-- R220, R226: where port p stands: the reference position, or the latest tick; none while no state is valid. -/
def State.whereNow (s : State) (p : Nat) : Option Rat :=
  let g := p / 12
  if s.fixedPace g then (if s.tickCount g = 0 then none else some ((s.tickCount g : Rat) - 1))
  else if s.refOk g then some (s.obs g).x else none

/-- R220, R226: where the row fetch of timing line m of a page with start S falls due. -/
def State.dueAt (s : State) (p : Nat) (S m : Int) : Rat :=
  let g := p / 12
  if s.fixedPace g then ((s.tickOf p S m : Int) : Rat) - 4 else s.target p S m - 4 * s.pitch g

/-- Line m of a page with start S has reached its row-fetch instant. -/
def State.due (s : State) (p : Nat) (S m : Int) : Bool :=
  match s.whereNow p with
  | some x => decide (s.dueAt p S m ≤ x)
  | none => false

/-- R99: how many lines of a page with start S have reached their row-fetch instant. -/
def State.dueCount (s : State) (p : Nat) (S : Int) : Nat :=
  let g := p / 12
  match s.whereNow p with
  | none => 0
  | some x =>
    let step := if s.fixedPace g then 1 else s.pitch g
    if step = 0 then 0 else (((x - s.dueAt p S 0) / step).floor + 1).toNat

/-- R212: S is known and not lost at port p. -/
def State.sKnown (s : State) (p : Nat) : Bool := (s.ring p).met.isSome && !(s.ring p).sLost

/-- Page `pg` is the page `e`, or comes before it. -/
def notAfter (pg e : Nat) : Bool := pg == e || laterPage e pg

/-- R98: page `pg` is among the pages that were skipped or left latest: its bands are discarded without check. -/
def Ring.gone (r : Ring) (pg : Nat) : Bool :=
  match r.discPage with
  | some (a, b) => notAfter pg b && notAfter a pg
  | none => false

/-- R98: the pages from `a` to `b` are skipped or left: their bands, and what the reader still holds of pages before them, are
discarded. -/
def Ring.discardTo (r : Ring) (a b : Nat) : Ring :=
  { r with
    discPage := some (a, b)
    pages := r.pages.filter fun i => !notAfter i.page b
    bands := r.bands.map fun x => if notAfter x.page b then { x with discard := true } else x }

/-- R102: the page of band b is behind the port: the port is in a later one, or has ended it. -/
def Ring.behind (r : Ring) (f : Flow) (b : Band) : Bool :=
  b.discard || (match r.overPage with | some e => notAfter b.page e | none => false) ||
  (match f.cur with | some c => laterPage c.page b.page | none => false)

/-- R102: how many rows of a band are over: each of their lines has been fetched or lost; a C8/600 row is fetched for both
of its lines at the deadline of the first (R100). -/
def Ring.rowsDone (r : Ring) (f : Flow) (b : Band) : Nat :=
  if r.behind f b then b.rows
  else match f.cur with
    | some c =>
      if c.page = b.page then min b.rows (if b.format = 0 then (f.fetchM - b.first + 1) / 2 else f.fetchM - b.first) else 0
    | none => 0

/-- R102: a blank page's header goes when the port has reached the page's first line. -/
def Ring.begun (r : Ring) (f : Flow) (b : Band) : Bool :=
  r.behind f b || (match f.cur with | some c => c.page == b.page | none => false)

/-- R101, R102: the read pointer of ring r0 passes the rows that are over, as far as they are committed, in whole 64-byte
steps. DESIGN CHOICE (log 145): within a discarded band whose unchecked ROW_BYTES is no multiple of 64 it stands at the step
before the row's end, and the next header follows at the first step at or after the band's end. -/
def releaseBands (r0 : Ring) (f : Flow) : List Band → Nat → Nat × List Band
  | [], r => (r, [])
  | b :: l, r =>
    if b.rows = 0 ∨ b.rowBytes = 0 then
      (if r0.begun f b then releaseBands r0 f l b.endPos else (r, b :: l))
    else
      let n := min (r0.rowsDone f b) ((r0.wpos - (b.pos + 64)) / b.rowBytes)
      if n = 0 then (r, b :: l)
      else if n = b.rows then releaseBands r0 f l b.endPos
      else (b.pos + 64 + n * b.rowBytes / 64 * 64, { b with released := n, hdrReleased := true } :: l)

/-- R91: the pacing queue's request after a change of free space. DESIGN CHOICE (log 145): the spec says nothing of an
UNCONFIGURED ring, whose free space is 0; its queue never requests here. -/
def State.pace (s : State) (p : Nat) : State :=
  let r := s.ring p
  let hi := 4096 * s.fget Reg.BND_RWM_HI 0 p
  let lo := 4096 * s.fget Reg.BND_RWM_LO 0 p
  let req := if hi ≤ lo then decide (hi ≤ r.free)
    else if hi ≤ r.free then true else if r.free < lo then false else r.requesting
  s.setRing p { r with requesting := req && r.st != .unconfigured }

/-- R69, R104: LOWFILL of port p, where it is present now, stays visible after it goes. -/
def State.noteLow (s : State) (p : Nat) : State :=
  s.when (s.lowfill p) fun s => (s.raiseBnd Reg.BND0_CAUSE_LOWFILL p).fput Reg.BND_RSTAT_LOWFILL 1 0 p

/-- R102: port p's reader releases what is over. -/
def State.releaseRows (s : State) (p : Nat) : State :=
  let r := s.ring p
  if r.st = .run then
    let (rp, bs) := releaseBands r (s.flow p) r.bands r.rpos
    ((s.setRing p { r with rpos := rp, bands := bs }).pace p).noteLow p
  else s

/-- R104: the ring and sequencer counts of a line lost with cause UNDERRUN. -/
def State.ringUnderrun (s : State) (p : Nat) : State :=
  (((s.fadd Reg.BND_RLOST_LOST 1 0 p).fput Reg.BND_RSTAT_UNDERRUN 1 0 p).raiseBnd Reg.BND0_CAUSE_UNDERRUN p).raise
    Reg.SEQ_CAUSE_UNDERRUN

/-- R225: the bit of a cause in PL_LOST_CAUSE. -/
def LostCause.bit : LostCause → Nat
  | .underrun => 0 | .boundary => 1 | .rate => 2 | .link => 3 | .passed => 4 | .stopped => 5

/-- What a cause shows beside the count of lost lines (R44, R104, R142, R160, R221). -/
def State.lostMarks (s : State) (p : Nat) (c : LostCause) : State :=
  match c with
  | .underrun | .stopped => s
  | .boundary => s.raise Reg.SEQ_CAUSE_BOUNDARY_STRETCH
  | .rate => s.raise Reg.FT_CAUSE_RATE p
  | .link => (s.raise Reg.LK_CAUSE_LINK_LATE p).fadd Reg.LK_LINK_LOST_COUNT 1 p
  | .passed => (s.raise Reg.FT_CAUSE_PASSED p).fadd Reg.PL_PASSED_CNT_COUNT 1 p

/-- R225: port p loses a line: its count and its cause. -/
def State.dropLine (s : State) (p : Nat) (c : LostCause) : State :=
  let s := (s.fadd Reg.PL_LOST_CNT_COUNT 1 p).raise Reg.FT_CAUSE_LOST p
  let s := s.fput Reg.PL_LOST_CAUSE_CAUSE (s.fget Reg.PL_LOST_CAUSE_CAUSE p ||| 2 ^ c.bit) p
  let s := s.lostMarks p c
  if c = .stopped then s else s.markDefect p

/-- R225, R188: port p loses a line, or holds it in HOT_HOLD. An underrun counts at the ring in either case. -/
def State.loseLine (s : State) (p : Nat) (c : LostCause) : State :=
  let s := if c = .underrun then s.ringUnderrun p else s
  if (s.port p).st = .hotHold then s.fadd Reg.EN_HOLD_LINES_COUNT 1 p else s.dropLine p c

/-- Lose n lines for one cause. -/
def State.loseLines (s : State) (p : Nat) (c : LostCause) : Nat → State
  | 0 => s
  | n + 1 => (s.loseLine p c).loseLines p c n

/-- R37, R225: port p abandons n lines of its page, held in HOT_HOLD or not. -/
def State.abandonLines (s : State) (p : Nat) : Nat → State
  | 0 => s
  | n + 1 => (s.dropLine p .stopped).abandonLines p n

/-- R103, R35: the bytes of a row as the reader fetches them: corrected, or none where a word cannot be corrected. Every word
of the row is read. -/
def State.readRow (s : State) (p : Nat) (pos n : Nat) : State × Option (List Byte) :=
  let r := s.ring p
  let addr (i : Nat) : Nat := 65536 * r.base + (if r.bytes = 0 then 0 else (pos + i) % r.bytes)
  let words := dedup ((List.range (n / 8)).map fun k => addr (8 * k) / 8)
  let bad := words.filter (s.isUe .band)
  let s := s.forEach (words.filter (s.isCe .band)) fun s w =>
    ((s.mend .band w).fadd Reg.BND_ECC_CE_ECC_CE 1).raiseBnd Reg.BND0_CAUSE_ECC_CE p
  let s := s.forEach bad fun s w =>
    ((s.raiseBnd Reg.BND0_CAUSE_ECC_UE p).setWord (Reg.BND_ECC_UE_ADDR_ECC_UE_ADDR.addr) (BitVec.ofNat 32 (8 * w))).send
      0 13 kindDataUe 1 (8 * w)
  (s, if bad.isEmpty then some ((List.range n).map fun i => memGet 0 s.band (addr i)) else none)

/-- R100: the row of page line m, if the band's header has been met and the row is wholly committed. -/
def State.fetchRow (s : State) (p page m : Nat) : State × Option (List Byte) :=
  let r := s.ring p
  match r.bands.find? (fun b => b.page == page && !b.discard && decide (b.first ≤ m ∧ m < b.first + b.lines)) with
  | none => (s, none)
  | some b =>
    let i := (m - b.first) / (if b.format = 0 then 2 else 1)
    let pos := b.pos + 64 + i * b.rowBytes
    if r.st = .run ∧ pos + b.rowBytes ≤ r.wpos then s.readRow p pos b.rowBytes else (s, none)

/-- A line as it leaves stage 2. -/
def Line.make (m : Nat) (lost : Option LostCause) (codes : List (Nat × Nat)) : Line :=
  { m := m, lost := lost, codes := codes, widths := [], env := [], sentAt := none, lseq := 0, t0 := none, late := false }

/-- The timing line m joins the lines in progress. -/
def State.addLine (s : State) (p m : Nat) (lost : Option LostCause) (codes : List (Nat × Nat)) : State :=
  s.modFlow p fun f => { f with lines := f.lines ++ [Line.make m lost codes], fetchM := m + 1 }

/-- R216: the drops that page line m would give to timing lines handed over already are taken back: those of the die-rows
with k_dr = l.m − m. -/
def State.takeBack (s : State) (p m : Nat) : State :=
  let keep (l : Line) : List (Nat × Nat) :=
    if l.m ≤ m then l.codes else l.codes.filter fun e => s.nozzleK p e.1 != (l.m : Int) - (m : Int)
  s.modFlow p fun f =>
    { f with lines := f.lines.map (fun l => { l with codes := keep l }), decs := f.decs.filter fun e => e.1 ≠ m }

/-- R225, R216: line m of the page is lost or held for a cause: no later timing line draws on it. -/
def State.loseAt (s : State) (p m : Nat) (c : LostCause) : State :=
  ((s.loseLine p c).modFlow p fun f =>
    { f with lines := f.lines.map fun y => if y.m = m then { y with lost := some c, t0 := none } else y }).takeBack p m

/-- R480, R216: UNDERRUN applies to timing line m: it is a page line with a row. -/
def PageInfo.hasRow (pg : PageInfo) (m : Nat) : Bool := !pg.blank && decide (m < pg.pageLines)

/-- R98: none of the lines of page `pg` that have not fired is fired any more: those on their way are lost with cause
UNDERRUN, and the others as they fall due. DEDUCED (log 166): no UNDERRUN applies to a line without a row (R480, R216), so
such a timing line still comes, with no drop. -/
def State.cutPage (s : State) (p pg : Nat) : State :=
  let s := s.modRing p fun r => { r with pages := r.pages.map fun i => if i.page = pg then { i with cut := true } else i }
  match (s.flow p).cur with
  | none => s
  | some c =>
    if c.page ≠ pg then s
    else
      let open_ := (s.flow p).lines.filter fun l => l.lost.isNone && c.hasRow l.m
      let s := s.forEach (open_.map (·.m)) fun s m => s.loseAt p m .underrun
      s.modFlow p fun f =>
        { f with cur := some { c with cut := true }, decs := [], lines := f.lines.map fun l => { l with codes := [] } }

/-- R216: page line m is screened: its S6 decisions are kept as long as a timing line can still draw on them. -/
def State.keepDecs (s : State) (p m : Nat) (d : Sparse Nat) : State :=
  s.modFlow p fun f => { f with decs := (m, d) :: f.decs.filter fun e => decide (m < e.1 + 8) }

/-- R98, R100, R101, R103, R114, R124, R216, R480: the row of the next timing line falls due: it is fetched, screened and
handed over, or the line is lost with cause UNDERRUN, and with it the second line of a C8/600 pair. -/
def State.fetchLine (s : State) (p : Nat) : State :=
  let f := s.flow p
  let m := f.fetchM
  match f.cur with
  | none => s
  | some pg =>
    if pg.blank then s.addLine p m none []
    else if pg.pageLines ≤ m then s.addLine p m none (s.handOver p m pg.pageLines f.decs)
    else
      let first := pg.format = 0 ∧ m % 2 = 0
      let (s, row) :=
        if pg.cut then (s, none)
        else if pg.format = 0 ∧ m % 2 = 1 then (s, some f.rowBuf)
        else if m < pg.lateN then (s, none)
        else s.fetchRow p pg.page m
      let s := s.modFlow p fun f => if first then { f with rowBuf := row.getD [] } else f
      match row with
      | none =>
        let s := (s.loseLine p .underrun).addLine p m (some .underrun) []
        if first ∧ m + 1 < pg.pageLines then (s.loseLine p .underrun).addLine p (m + 1) (some .underrun) [] else s
      | some bs =>
        if !s.geomOk p then (s.markDefect p).addLine p m none []
        else
          let (s, d) := s.screenLine p m pg.format bs
          let s := s.keepDecs p m d
          s.addLine p m none (s.handOver p m pg.pageLines (s.flow p).decs)

/-- R100: every line whose row fetch has fallen due is fetched; at most n of them. -/
def State.fetchDue (s : State) (p : Nat) : Nat → State
  | 0 => s
  | n + 1 =>
    let f := s.flow p
    match f.cur with
    | some pg =>
      if (s.port p).sq = .printing ∧ f.fetchM < f.total ∧ s.due p pg.start f.fetchM then (s.fetchLine p).fetchDue p n else s
    | none => s

/-- R40 B3, R479: mask slot and phases of the page that the port is to print next. -/
def State.loadPage (s : State) (p : Nat) : State :=
  match (s.ring p).pages with
  | i :: _ =>
    s.modFlow p fun f =>
      { f with slot := i.word8 % 8, phaseX := i.word8 / 256 % 256, phaseY := i.word8 / 65536 % 256 }
  | [] => s

/-- R188: the held lines count: lines already scheduled do not fire. -/
def State.holdScheduled (s : State) (p : Nat) : State :=
  let f := s.flow p
  let n := (f.lines.filter (·.t0.isSome)).length
  (s.fadd Reg.EN_HOLD_LINES_COUNT n p).modFlow p fun f => { f with lines := f.lines.filter (·.t0.isNone) }

/-- R241, R243: the scan step in progress ends at once and its primitive is discarded: the scan waits, or stops where
SCAN_STOP has been given. -/
def Health.drop (h : Health) : Health :=
  if h.st = .stepping then
    { h with st := if h.stopReq then .stopped else .waiting, stopReq := false, svc := false, sliceClose := none
             stepT0 := none, stepLine := none, nextT0 := none, stepLseq := none, stepAck := none, confirm := [], confirmsLeft := 0, pendingRec := [] }
  else { h with sliceClose := none }

/-- R156, R237: a scan step ends at instant t: its pulses are over, and no marker of it follows. Its phases count as strobe
windows. -/
def Port.endStep (x : Port) (t : Time) : Port :=
  let x := x.keepFall t
  { x with
    lastFall := max x.lastFall (match x.health.stepT0 with | some t0 => if t0 ≤ t then t else 0 | none => 0)
    flow := { x.flow with pulses := [], delayed := [] }
    health := { x.health with stepT0 := none, stepLine := none } }

/-- R233, R241, R243: the scan of a port is dropped at instant t: the strobes and markers of a step in progress end. -/
def Port.dropScan (x : Port) (t : Time) : Port :=
  let x := if x.health.stepT0.isNone then x else x.endStep t
  { x with health := x.health.drop }

/-- R240, R243: the slice or service run ends; a step in progress still completes. -/
def Health.endRun (h : Health) : Health :=
  if h.stepT0.isSome then { h with sliceClose := none, svc := false } else h.drop

/-- R173, R185, R243: the link of a port leaves RUN for DOWN (PWR_EN low) or IDLE: CONFIG, trims and START have to be
sent again, the band bits clear, and no STATUS has been seen; a scan step ends at instant t. DESIGN CHOICE (log 145): HOT,
CRITICAL and COLD stay as the latest STATUS left them. -/
def Port.unlink (x : Port) (t : Time) : Port :=
  let x := x.dropScan t
  { x with
    link := if x.pwrEn then .idle else .down, identReqAt := none, configAt := none, cfgTries := 0, statusSeen := false, rtLossNow := false
    ackMissRun := 0, ackWait := [], trimPend := [], trimImm := [], bandBits := [0, 0, 0, 0] }

/-- R176: STARTED and CFG_OK read 0 while the link is not in RUN or has no accepted CONFIG. -/
def State.unlink (s : State) (p : Nat) : State :=
  let s := (s.latch .lk p).modPort p fun x => x.unlink s.now
  (s.fput Reg.LK_STAT_STARTED 0 p).fput Reg.LK_STAT_CFG_OK 0 p

/-- The lowest bit of a mask. -/
def lowBit (w : Nat) : Nat := ((List.range 32).find? w.testBit).getD 0

/-- R188, R189, R243: port p enters HOT_HOLD. `die` stands in the detail of HEAD_HOT: DESIGN CHOICE (log 145): of several dies at
or above HOT it is the lowest. -/
def State.enterHotHold (s : State) (p die : Nat) : State :=
  let s := s.noteLow p
  let s := s.modPort p fun x =>
    { x with
      st := .hotHold, statusSinceHold := false, health := x.health.endRun
      ackWait := x.ackWait.filter fun e => x.flow.lines.all fun l => l.sentAt.isNone || l.lseq != e.1 }
  let s := ((s.holdScheduled p).raise Reg.EN_CAUSE_HOLD p).markDefect p
  s.send 1 p kindHeadHot 1 die

/-- R98: pages that have passed while the port was out of its page flow are discarded, up to position or tick x. -/
def State.discardPassed (s : State) (p : Nat) (x : Rat) : State :=
  let r := s.ring p
  match (r.pages.filter fun i => decide (s.dueAt p i.start 0 ≤ x)).getLast? with
  | some i => (s.setRing p (r.discardTo ((r.pages.head?.map (·.page)).getD i.page) i.page)).releaseRows p
  | none => s

/-- R35: steps B2 and B3 of R40 write the history words, the line buffers and the error state of port p: none holds an
error any more. -/
def State.cleanPort (s : State) (p : Nat) : State :=
  let hit (e : Store × Nat) : Bool :=
    (e.1 == .hist && e.2 / 576 == p) || ((e.1 == .lineBuf || e.1 == .errState) && e.2 / 1536 == p)
  { s with ue := s.ue.filter fun e => !hit e, ce := s.ce.filter fun e => !hit e }

/-- R224: x_hi of port p when its page flow begins: the count of its media reference. -/
def State.firstHi (s : State) (p : Nat) : Option Int :=
  if s.fixedPace (p / 12) then none else some (s.obs (p / 12)).count

/-- R37, R479, R189: port p's sequencer leaves IDLE for ARMED. `joining` is where it joins a running device. -/
def State.enterFlow (s : State) (p : Nat) (joining : Option Rat) : State :=
  let s := (s.latchPort p).cleanPort p
  let s := s.modPort p fun x =>
    { x with sq := .armed, st := .printing, hist := [], carry := [], toggle := [],
             flow := { Flow.reset with joining := joining, slot := x.flow.slot, phaseX := x.flow.phaseX,
                                       phaseY := x.flow.phaseY, xHi := s.firstHi p
                                       marked := x.flow.marked, markFor := x.flow.markFor } }
  let s := match joining with
    | some x => s.discardPassed p x
    | none => s
  let s := s.loadPage p
  if (s.port p).hotDies ≠ 0 then s.enterHotHold p (lowBit (s.port p).hotDies) else s

/-- R47: SEQ_PORT_EN of port p. -/
def State.enabledPort (s : State) (p : Nat) : Bool := (s.fget Reg.SEQ_PORT_EN_EN 0 (p / 32)).testBit (p % 32)

/-- R37, R212, R441: what keeps a READY, enabled port's sequencer from leaving IDLE. -/
def State.mayLeaveIdle (s : State) (p : Nat) : Bool :=
  let x := s.port p
  x.st == .ready && x.sq == .idle && s.enabledPort p && s.sKnown p && !x.recipeLoad

/-- R37: where port p stands when it joins: on the latest observer state, or at the latest tick. DESIGN CHOICE (log 145): a
latest observer state that is not valid is taken all the same, and before the first tick no page has been reached (the place
is before every tick). -/
def State.joinPlace (s : State) (p : Nat) : Rat :=
  let g := p / 12
  if s.fixedPace g then (if s.tickCount g = 0 then -(2 ^ 64 : Nat) else (s.tickCount g : Rat) - 1) else (s.obs g).x

/-- R37: port p joins a running device when the last of its conditions has become true. -/
def State.tryJoin (s : State) (p : Nat) : State :=
  if s.mayLeaveIdle p ∧ s.devState ≠ .idle ∧ s.stopPending = false ∧ p < s.portCount then s.enterFlow p (some (s.joinPlace p))
  else s

/-- R37: a STOP is pending until the device state becomes IDLE. -/
def State.stopOver (s : State) : State :=
  if s.devState = .idle then { s with stopPending := false } else s

/-- R37, R48: port p's sequencer returns to IDLE at a boundary, or from ARMED: the port goes READY, or SERVICE where a
deferred SVC_ENTER is pending (R456). A scan step in progress goes on. -/
def State.goIdle (s : State) (p : Nat) : State :=
  let s := (s.latchPort p).noteLow p
  let land := (s.port p).svcPend ≠ .none
  let s := s.modPort p fun x =>
    let step := x.health.stepT0.isSome
    let x := if step then x else x.keepFall s.now
    { x with sq := .idle, st := if x.inFlow then .ready else x.st,
             flow := { Flow.reset with
               slot := x.flow.slot, phaseX := x.flow.phaseX, phaseY := x.flow.phaseY, marked := x.flow.marked, markFor := x.flow.markFor
               phase := if step then x.flow.phase else 0, pulses := if step then x.flow.pulses else []
               delayed := if step then x.flow.delayed else [] } }
  let s := ((s.recipeDue p).stopOver).activationCheck
  if land then ((s.modPort p fun x => { x with st := .service, svcPend := .none }).unlink p).paramsLand p else s

/-- R37, R225: the timing lines that the page in progress has not fired and not lost or held yet. -/
def Flow.unfired (f : Flow) : Nat :=
  (f.lines.filter (·.t0.isSome)).length + (f.total - f.schedM) -
    (f.lines.filter fun l => l.lost.isSome && decide (f.schedM ≤ l.m)).length

/-- R37: port p leaves its page flow for SERVICE, SAFE or OFF: the page in progress loses its remaining lines with
cause STOPPED, its bands are discarded (R98), and the sequencer goes IDLE. The caller sets the new port state. -/
def State.leaveFlow (s : State) (p : Nat) : State :=
  let s := s.modPort p fun x => { x with svcPend := .none }
  if (s.port p).sq = .idle then s
  else
    let f := s.flow p
    let s := s.noteLow p
    let inPage := (s.port p).sq = .printing ∨ (s.port p).sq = .draining
    let s := if inPage then
        let s := (s.abandonLines p f.unfired).markDefect p
        match f.cur with
        | some c => s.setRing p ((s.ring p).discardTo c.page c.page)
        | none => s
      else s
    (s.goIdle p).releaseRows p

/-- R37, R480: an ARMED port has reached the first line of its next page. -/
def State.startPage (s : State) (p : Nat) (pg : PageInfo) : State :=
  let total := pg.pageLines + s.kmax p
  let s := s.modPort p fun x =>
    { x with sq := if total = 0 then .draining else .printing, begun := some pg.page,
             flow := { x.flow with cur := some pg, joining := none, total := total, fetchM := 0, stageM := 0, sendM := 0,
                                   schedM := 0, lines := [], decs := [], rowBuf := [],
                                   pageT0 := none, lastPeriod := none, pageForced := false } }
  let s := s.modRing p fun r => { r with pages := r.pages.filter fun i => i.page ≠ pg.page }
  let s := s.fput Reg.SEQ_PPAGE_PAGE pg.page 0 p
  let s := s.fput Reg.SEQ_DEV_PAGE_PAGE (max (s.fget Reg.SEQ_DEV_PAGE_PAGE) pg.page)
  let s := s.putWide Reg.PL_PAGE_S_LO_S Reg.PL_PAGE_S_HI_S (unsign 48 pg.start) p
  let s := s.when ((s.port p).st == .hotHold || !s.geomOk p || s.rowSpan p) fun s => s.markDefect p
  (s.releaseRows p).noteLow p

/-- R37, R220, R226: port p, if ARMED, reaches the first line of its next page. -/
def State.tryStart (s : State) (p : Nat) : State :=
  if (s.port p).sq = .armed ∧ s.sKnown p then
    match (s.ring p).pages with
    | pg :: _ => if s.due p pg.start 0 then s.startPage p pg else s
    | [] => s
  else s

/-- R216: port p's page draws on stage 2 no more than `total` lines: fuel for the loops over lines. -/
def Flow.left (f : Flow) : Nat := f.total - f.fetchM

/-- R192: S of port p, in ps. -/
def Budget.sum (b : Budget) : Nat := b.bins.foldl (· + ·) 0

/-- R193: exhaustion starts or ends. -/
def State.exhaust (s : State) (p : Nat) : State :=
  let b := (s.port p).budget
  let sum := (b.sum : Int)
  let budget := (s.fget Reg.EN_OVD_BUDGET_BUDGET p : Int)
  let rel := (s.fget Reg.EN_OVD_REL_REL p : Int)
  if b.exhFrom.isNone then
    (if 0 < sum ∧ budget * us ≤ sum then s.modPort p fun x => { x with budget := { b with exhFrom := some s.now } } else s)
  else if sum ≤ (min rel (budget - 1)) * us then
    (s.latch .en p).modPort p fun x => { x with budget := { b with exhFrom := none, forcing := false } }
  else s

/-- R192: 82,500 units. -/
abbrev ovdPeriod : Nat := 20625000

/-- R192: a line fires with this period, if its page has an earlier line. -/
def State.addPeriod (s : State) (p : Nat) (per : Option Time) : State :=
  match per with
  | none => s
  | some d =>
    if d < ovdPeriod then
      let s := s.modPort p fun x =>
        { x with budget := { x.budget with bins := match x.budget.bins with
          | [] => [d]
          | b :: r => (b + d) :: r } }
      s.exhaust p
    else s

/-- R143: strobe x (0 A, 1 B, 2 C) has a nozzle with its code in the phase that fires address a, and a width. -/
def Line.strobes (l : Line) (a : Nat) : List Nat :=
  (List.range 3).filter fun x =>
    decide (0 < l.env.getD x 0) && l.codes.any fun e => e.2 == x + 1 && e.1 % 16 == a

/-- R148: when the next pulse of the phase may rise: at the candidate t, or GAP after the earliest fall of an earlier
pulse that is high at t, as long as CRED earlier pulses are high. -/
def riseAt (cred gapPs : Nat) (ps : List Pulse) (t : Time) : Nat → Time
  | 0 => t
  | n + 1 =>
    let high := ps.filter fun q => decide (q.rise ≤ t ∧ t < q.fall)
    if cred ≤ high.length then
      match high.map (·.fall) with
      | [] => t
      | f :: r => riseAt cred gapPs ps (r.foldl min f + gapPs) n
    else t

/-- R148, R145: the plan of a phase that starts at t: each strobe's rise and fall, in the order A, B, C. -/
def phasePlan (cred gapPs : Nat) (env : List Nat) (t : Time) (xs : List Nat) : List Pulse :=
  if cred = 0 then []
  else xs.foldl (fun ps x =>
    let r := riseAt cred gapPs ps t 4
    ps ++ [⟨x, r, r + 250 * env.getD x 0⟩]) []

/-- R151: pulses that the window's end cuts. -/
def clipPulses (winEnd : Time) (ps : List Pulse) : List Pulse :=
  ps.map fun q => if winEnd < q.fall then { q with fall := max q.rise winEnd } else q

/-- R139: the start s_k of phase k of a line with t0. -/
def State.phaseStart (s : State) (p : Nat) (t0 : Time) (k : Nat) : Time :=
  t0 + 250 * (k * s.fget Reg.FT_PITCH_PITCH p + if s.fixedPace (p / 12) then s.fget Reg.FT_SLOT_OFS p else 0)

/-- R139, R143, R147 to R151: a phase of the line in progress starts. Pulses that the credit count holds back wait in
`delayed`; a pulse that would outlast the window is cut. -/
def State.beginPhaseAt (s : State) (p k : Nat) (l : Line) (t : Time) : State :=
  let xs := if s.ul24 then (l.strobes (s.ord p k)).filter (· = 0) else l.strobes (s.ord p k)
  let plan := phasePlan (s.fget Reg.FT_SEQ_CRED p) (250 * s.fget Reg.FT_SEQ_GAP p) l.env t xs
  let winEnd := t + 250 * s.fget Reg.FT_SLOT_WIN p
  let cut := (plan.filter fun q => decide (winEnd < q.fall)).length
  let s := (s.modPort p fun x => x.keepFall t).modFlow p fun f =>
    { f with phase := k, pulses := clipPulses winEnd plan,
             delayed := (plan.filter fun q => decide (t < q.rise)).map (·.strobe) }
  s.when (cut != 0) fun s => ((s.raise Reg.FT_CAUSE_CLIP p).fadd Reg.FT_CLIPS_COUNT cut p).markDefect p

/-- R139: phase k of an image line with t0 starts. -/
def State.beginPhase (s : State) (p k : Nat) (l : Line) (t0 : Time) : State :=
  s.beginPhaseAt p k l (s.phaseStart p t0 k)

/-- R335: port p is enabled to send page epochs. -/
def State.epochOn (s : State) (p : Nat) : Bool := (s.fget Reg.LNK_EPOCH_EN_EN 0 (p / 32)).testBit (p % 32)

/-- The drops of a line by class: 0 A, 1 B, 2 C. -/
def Line.drops (l : Line) (x : Nat) : Nat := (l.codes.filter fun e => e.2 == x + 1).length

/-- R232, R240: nothing else fires during a scan step: a step still in progress is abandoned. -/
def State.cutStep (s : State) (p : Nat) : State :=
  if (s.port p).health.stepT0.isNone then s
  else (s.modPort p fun x => x.dropScan s.now).raise Reg.HL_CAUSE_ABANDON p

/-- R219, R226: port p fires line l at t0: its counts, the overdrive time, the epoch, and phase 0. DESIGN CHOICE (log 145):
PL_LAST_X takes the integer part of a negative X(m_last) toward zero, and where line n - 1 did not fire the period of R192 is
measured from the line of the page that fired last. -/
def State.fireLine (s : State) (p : Nat) (l : Line) (t0 : Time) : State :=
  let f := s.flow p
  match f.cur with
  | none => s
  | some pg =>
    let g := p / 12
    let s := (s.cutStep p).fadd Reg.FT_LINES_COUNT 1 p
    let s := s.when l.late fun s => (s.fadd Reg.PL_LATE_CNT_COUNT 1 p).raise Reg.FT_CAUSE_LATE p
    let s := ((s.fadd Reg.EN_DROPS_A_COUNT (l.drops 0) p).fadd Reg.EN_DROPS_B_COUNT (l.drops 1) p).fadd
      Reg.EN_DROPS_C_COUNT (l.drops 2) p
    let x := if s.fixedPace g then ((s.tickOf p pg.start l.m : Int) : Rat) else s.target p pg.start l.m
    let s := s.putWide Reg.PL_LAST_X_LO_X Reg.PL_LAST_X_HI_X (unsign 48 (truncInt x)) p
    let s := s.modPort p fun x => { x with last15 := s.phaseStart p t0 15 }
    let per := f.pageT0.map fun t => t0 - t
    let s := s.modFlow p fun f =>
      { f with lines := f.lines.filter (fun y => y.m ≠ l.m), lastT0 := some t0, pageT0 := some t0,
               lastPeriod := if per.isSome then per else f.lastPeriod, lastX := some x, firing := some { l with t0 := some t0 }
               marked := if f.markFor = some l.lseq then f.marked else 1, markFor := some l.lseq }
    let s := s.addPeriod p per
    let s := s.when (l.m == 0 && s.epochOn p) fun s => s.sendEpoch p pg.page t0
    s.beginPhase p 0 l t0

/-- R40: lines that a page leaves behind once they are sent and scheduled. -/
def State.pruneLines (s : State) (p : Nat) : State :=
  s.modFlow p fun f =>
    { f with lines := f.lines.filter fun l => l.t0.isSome || decide (f.schedM ≤ l.m) || decide (f.sendM ≤ l.m) }

/-- R37: the last line of the page has reached stage 4: PRINTING goes DRAINING. -/
def State.drainCheck (s : State) (p : Nat) : State :=
  if (s.port p).sq = .printing ∧ (s.flow p).total ≤ (s.flow p).sendM then
    s.modPort p fun x => { x with sq := .draining }
  else s

/-- R250: the primitives of die d that have a physical nozzle. -/
def State.primitives (s : State) (p d : Nat) : List Nat :=
  (List.range 192).filterMap fun i =>
    if (List.range 16).any fun k => (s.nozzleCol p (3072 * d + 16 * i + k)).isSome then some (192 * d + i) else none

/-- R249: the conductance estimate of primitive q. -/
def Health.g (h : Health) (q : Nat) : Rat := ((Sparse.get (fun _ => 0) h.cond q : Nat) : Rat) / 65536

/-- R250: the deviation of primitive q from the mean of its die; a free value where the mean is 0 (log 20). -/
def State.devOf (s : State) (p : Nat) (qs : List Nat) (q : Nat) : Rat :=
  let h := (s.port p).health
  let mean := (qs.foldl (fun a i => a + h.g i) 0) / (qs.length : Rat)
  if mean = 0 then (signed 16 s.drawn : Rat) / 32768 else h.g q / mean - 1

/-- Absolute value. -/
def absRat (x : Rat) : Rat := if x < 0 then -x else x

/-- R250: at entry into BOUNDARY with enough measurements, the deviation of every primitive is evaluated. -/
def State.driftEvaluate (s : State) (p : Nat) : State :=
  if s.fget Reg.HL_DRIFT_N_COUNT p < 65536 then s
  else
    let devs := (s.dies p).flatMap fun d =>
      let qs := s.primitives p d
      qs.map fun q => (q, s.devOf p qs q)
    let worst := devs.foldl (fun (w : Nat × Rat) e => if absRat w.2 < absRat e.2 then e else w) (0, 0)
    let lim := (s.fget Reg.HL_DRIFT_CFG_LIM p : Rat) / 1024
    let s := s.drew
    if lim < absRat worst.2 then
      let s := s.raise Reg.HL_CAUSE_DRIFT p
      let s := s.fput Reg.HL_DRIFT_WORST_DEV (unsign 16 (satS 16 (fixInt 1 (worst.2 * 32768)))) p
      s.fput Reg.HL_DRIFT_WORST_PRIM worst.1 p
    else s

/-- R189: a HOT_HOLD port resumes at entry into BOUNDARY if the latest STATUS since shows every present die below the
effective RESUME limit. -/
def State.resumeHold (s : State) (p : Nat) : State :=
  let x := s.port p
  if x.st = .hotHold ∧ x.statusSinceHold ∧ x.cfgDies.all (fun d => x.resDies.testBit d) then
    ((s.modPort p fun x => { x with st := .printing }).raise Reg.EN_CAUSE_RESUMED p).noteLow p
  else s

/-- R40 B6, R41, R45: the recipe activation that lands at this boundary into page `next`. DESIGN CHOICE (log 135): a port that
was ARMED on the landing page when the activation became pending has no boundary into it left, and takes it at its next
boundary. -/
def State.boundaryRecipe (s : State) (p next : Nat) (discard : Bool) : State :=
  match s.upd.act with
  | some a =>
    if !a.staging && !(s.port p).recipeDone && (next == a.page || laterPage next a.page) then
      let s := (s.loadTables p).modPort p fun x => { x with recipeDone := true }
      let s := s.when discard fun s => s.raise Reg.SEQ_CAUSE_SHADOW_DISCARD
      (s.paramsNow p).activationCheck
    else s
  | none => s

/-- R40: entry into BOUNDARY and steps B1 to B6 at port p. -/
def State.enterBoundary (s : State) (p : Nat) : State :=
  let f := s.flow p
  let next := match f.cur with | some c => (c.page + 1) % 2 ^ 32 | none => 0
  let s := (s.driftEvaluate p).resumeHold p
  let s := match f.cur with
    | some c => s.modRing p fun r => { r with overPage := some c.page }
    | none => s
  let s := ((s.cleanPort p).modPort p fun x => x.keepFall s.now).modPort p fun x =>
    { x with sq := .boundary, hist := [], carry := [], toggle := [], b4Until := s.now + 1500 * ns,
             flow := { x.flow with cur := none, seqDone := false, boundaryFrom := s.now, boundaryEnd := none, firing := none, pulses := [],
                                   delayed := [], lines := [], decs := [] } }
  let s := (s.releaseRows p).loadPage p
  let discard := s.discards p s.staged
  let s := if (s.port p).hold then s else (s.copyShadow p).switchBank p
  s.boundaryRecipe p next discard

/-- R37, R100, R226: the line clock has already reached the first line of the page that port p arms on: it starts at once,
and the rows that are due are fetched. Under media-position pacing the next observer state tells. -/
def State.startReached (s : State) (p : Nat) : State :=
  if s.fixedPace (p / 12) then
    let s := s.tryStart p
    (s.fetchDue p (s.flow p).left).releaseRows p
  else s

/-- R37, R99: what port p does once its boundary sequence is complete: IDLE, ARMED, or it waits for a header. -/
def State.exitBoundary (s : State) (p : Nat) : State :=
  if s.stopPending || !s.enabledPort p then s.goIdle p
  else if !(s.ring p).pages.isEmpty && s.sKnown p then
    ((s.loadPage p).modPort p fun x => { x with sq := .armed, flow := { x.flow with seqDone := false } }).startReached p
  else s.modFlow p fun f => { f with seqDone := true }

/-- R99: a header of the next page has passed at a port that waits for it: in BOUNDARY, or ARMED. -/
def State.headerCame (s : State) (p : Nat) : State :=
  let s := match (s.flow p).joining with
    | some x => if (s.port p).sq = SeqState.armed then s.discardPassed p x else s
    | none => s
  match (s.port p).sq with
  | SeqState.armed => (s.loadPage p).startReached p
  | .boundary => if (s.flow p).seqDone then s.exitBoundary p else s
  | .idle => s.tryJoin p
  | _ => s

end Sys2Proof.Machine
end

