-- ==== Sys2Proof/Machine/React.lean ====
section
/-! DEFINITION. Kingpost's reactions (R368 to R377, R382) and what they do to ports, axes and calibration runs. -/

namespace Sys2Proof.Machine

/-- R272, R273: the bridges of axis a are switched off and it goes to state `dest`: the last address is held; a disable
while v is not 0 clears HOMED and REMAIN_V. What it was doing ends. -/
def Axis.disable (x : Axis) (dest : AxState) : Axis :=
  let moving := x.v != 0
  { x with
    st := dest, heldAddr := x.addr, homed := x.homed && !moving, remainV := x.remainV && !moving
    v := 0, pPrev := x.p, q := x.p, ownTarget := false, stop := .none, moveStop := false, homePhase := .none
    chatter := 0, qHist := [], stillTicks := 0, moved := false, stallRun := 0, ferrRun := 0, vsat := false
    lambdaV := false, dutyA := 0, dutyB := 0, pulses := [], enTill := 0, pvt := none, inSet := none }

/-- R283: set k brakes at its effective QDEC. -/
def State.brakeSet (s : State) (k : Nat) : State :=
  s.modMset (k / 2) (k % 2) fun m => if m.active then { m with stop := .qdec } else m

/-- R256, R273, R283: an enabled axis goes to FAULT; a set that it moves in brakes and goes on without it. `sev2` says
that CLR_FAULT and SVC_ENTER need Kingpost's acknowledgement. -/
def State.axisFault (s : State) (a : Nat) (sev2 : Bool) : State :=
  let x := s.axis a
  if !x.enabled then (if x.st = .fault ∧ sev2 then s.setAxis a { x with faultSev2 := true } else s)
  else
    let s := (s.latch .ax0 a).setAxis a { x.disable .fault with faultSev2 := sev2 }
    match x.inSet with
    | some k =>
      let s := (s.brakeSet k).modMset (k / 2) (k % 2) fun m => { m with members := m.members.filter fun e => e.2.1 ≠ a }
      s.raise Reg.MGP_CAUSE_SET_ABORT (k / 2)
    | none => s

/-- R263, R368: every enabled axis of motion group g goes to FAULT. -/
def State.groupFault (s : State) (g : Nat) (sev2 : Bool) : State :=
  s.forEach ((members g).filter fun a => (s.axis a).enabled) fun s a => s.axisFault a sev2

/-- R411: the port or group of calibration channel c: its group, and its number k in the group. -/
def calGroup (c : Nat) : Nat := c / 32
/-- R411: the number of channel c in its group. -/
def calK (c : Nat) : Nat := c % 32

/-- R411: the member channel's port; a spare's channel names none. -/
def calPort (c : Nat) : Option Nat :=
  let k := calK c
  if k < 12 then some (12 * calGroup c + k)
  else if 13 ≤ k ∧ k < 25 then some (12 * calGroup c + (k - 13))
  else none

/-- The channel is in phase P1, P2 or P3 of a run (R414). -/
def CalChan.running (x : CalChan) : Bool := x.phase == .p1 || x.phase == .p2 || x.phase == .p3

/-- R419: a run in P1 to P3 ends without commit: LAST ABORTED, the member takes its function back, and the channel is
pending, or idle. -/
def State.calAbort (s : State) (c : Nat) (pending : Bool) : State :=
  if (s.cal c).running then
    (s.latch .cal 0).modCal c fun x =>
      { x with phase := if pending then .pending else .idle, forced := false, standIn := false, accepted := false
               newRes := [], last := 5 }
  else s

/-- R411: the calibration channels of port p. -/
def calOf (p : Nat) : List Nat := [32 * (p / 12) + p % 12, 32 * (p / 12) + 13 + p % 12]

/-- R48, R154, R163, R243: port p leaves for SAFE or OFF: PWR_EN goes low and the fire link goes down. -/
def State.portDark (s : State) (p : Nat) (dest : PortState) : State :=
  let s := s.leaveFlow p
  (s.modPort p fun x => { x with st := dest, pwrEn := false, svcPend := .none }).unlink p

/-- R374: Port Safe of port p: its latch is set, and a port that is not in OFF enters SAFE. -/
def State.portSafe (s : State) (p : Nat) : State :=
  if s.portCount ≤ p then s
  else
    let s := { s with kps := { s.kps with portClear := s.kps.portClear.filter (· ≠ p) } }
    let s := s.raise Reg.KPS0_CAUSE_PSAFE
    let s := s.forEach (calOf p) fun s c => s.calAbort c true
    if (s.port p).st = .off ∨ (s.port p).st = .safe then s else s.portDark p .safe

/-- R368: a group stop is Port Safe of each of the group's ports. -/
def State.groupStop (s : State) (g : Nat) : State := s.forEach (members g) State.portSafe

/-- R375, R376: Device Safe, begun by message `w`: every latch is set, every port not in OFF is SAFE, every enabled axis
is FAULT. Kingpost goes to LATCHED, or to HOLD from RUN. -/
def State.deviceSafe (s : State) (w : Word) (latched : Bool) : State :=
  let k := s.kps
  let s := { s with kps := { k with
    dsafe := true, dsafeMsg := if k.dsafe then k.dsafeMsg else w, deviceLatch := true, portClear := [], motionClear := []
    st := if latched then KpsState.latched else if k.st = KpsState.run then KpsState.hold else k.st } }
  let s := s.forEach (List.range 256) fun s c => s.calAbort c true
  let s := s.forEach (s.portList.filter fun p => (s.port p).st != .off && (s.port p).st != .safe) fun s p =>
    s.portDark p .safe
  s.forEach ((List.range 96).filter fun a => (s.axis a).enabled) fun s a => s.axisFault a true

/-- R360, R378: every port whose stop-request line has asserted is in Port Safe. -/
def State.serveStops (s : State) : State :=
  let ps := s.kps.stops
  State.forEach { s with kps := { s.kps with stops := [] } } ps State.portSafe

/-- R368: the ports that a severity-2 message from a source stops. -/
def State.scopePorts (s : State) (src : Nat) : List Nat :=
  let cls := src / 128
  let inst := src % 128
  let groupsOf (f : Nat → Bool) : List Nat := ((List.range 8).filter f).flatMap members
  (match cls with
    | 1 => [inst]
    | 2 => groupsOf fun g => !s.fixedPace g && s.refChan g == inst
    | 3 | 4 => []
    | 0 => if 24 ≤ inst ∧ inst < 32 then members (inst - 24) else List.range 96
    | 5 => if 1 ≤ inst ∧ inst < 9 then members (inst - 1) else if 9 ≤ inst ∧ inst < 17 then members (inst - 9)
           else List.range 96
    | _ => List.range 96).filter (· < s.portCount)

/-- R368: the axes that a severity-2 message from a source takes to FAULT. -/
def scopeAxes (src : Nat) : List Nat :=
  match src / 128 with
  | 3 => [src % 128]
  | 4 => members (src % 128)
  | _ => []

/-- R368: the reaction that Kingpost orders at an effective severity. -/
def State.react (s : State) (w : Word) (eff : Nat) : State :=
  if eff = 3 then s.deviceSafe w false
  else if eff = 2 then
    let s := s.forEach (s.scopePorts (msgSource w)) State.portSafe
    s.forEach (scopeAxes (msgSource w)) fun s a => s.axisFault a true
  else s

/-- R369: slot i of the unacknowledged table. -/
def Kps.slot (k : Kps) (i : Nat) : Slot := Sparse.get (fun _ => Slot.reset) k.slots i
/-- Set slot i. -/
def Kps.setSlot (k : Kps) (i : Nat) (x : Slot) : Kps := { k with slots := Sparse.put (fun _ => Slot.reset) k.slots i x }
/-- R369: the valid slot that holds a class. -/
def Kps.findSlot (k : Kps) (src kind : Nat) : Option Nat :=
  (List.range 64).find? fun i => let x := k.slot i; x.valid && x.source == src && x.kind == kind
/-- R369: the lowest free slot. -/
def Kps.freeSlot (k : Kps) : Option Nat := (List.range 64).find? fun i => !(k.slot i).valid

/-- R369, R370: how a message is handled against the table: the table, its effective severity, ESC and NOSLOT. -/
def Kps.judge (k : Kps) (src kind sev : Nat) : Kps × Nat × Bool × Bool :=
  if sev = 0 then (k, 0, false, false)
  else match k.findSlot src kind with
    | some i =>
      let x := k.slot i
      let eff := min 3 (max sev (x.sev + 1))
      (k.setSlot i { x with sev := eff, count := min (x.count + 1) 255 }, eff, decide (sev < eff), false)
    | none =>
      match k.freeSlot with
      | some i => (k.setSlot i { valid := true, source := src, kind := kind, sev := sev, count := 1 }, sev, false, false)
      | none => ({ k with fullPend := true }, min 3 (sev + 1), false, true)

/-- R369 to R373: a message is recorded; answers its effective severity too. -/
def State.record (s : State) (w : Word) : State × Nat :=
  let (k, eff, esc, noslot) := s.kps.judge (msgSource w) (msgKind w) (msgSev w)
  let e : HistEntry :=
    { msg := w, seqNo := k.nextSeq, eff := eff, esc := esc, noslot := noslot, stamp := s.shortStamp }
  let s := { s with kps := { k with
    hist := Sparse.put (fun _ => HistEntry.reset) k.hist (k.nextSeq % 32) e, nextSeq := (k.nextSeq + 1) % 65536 } }
  let s := s.fadd Reg.KPS_MSG_CNT_COUNT 1
  let s := s.when (decide (1 ≤ eff)) fun s => s.raise Reg.KPS0_CAUSE_FAULT
  let s := s.when esc fun s => (s.raise Reg.KPS0_CAUSE_ESCALATED).fadd Reg.KPS_ESC_CNT_COUNT 1
  let s := s.when noslot fun s => s.raise Reg.KPS0_CAUSE_UNACK_FULL
  let s := s.when (msgKind w == kindMsgLost) fun s => s.raise Reg.KPS0_CAUSE_MSG_LOST
  (s, eff)

/-- R476: a message that arises in Kingpost or Sill is recorded without an island path, and reacted to. -/
def State.recordNow (s : State) (w : Word) : State :=
  let (s, eff) := s.record w
  s.react w eff

/-- R382: no slot of effective severity 3, FULL_PEND 0, and Device Safe not held. -/
def State.ackBase (s : State) : Bool :=
  !s.kps.fullPend && !s.kps.dsafe && s.kps.slots.all fun e => !(e.2.valid && e.2.sev == 3)

/-- R382: a valid slot of effective severity 2 whose source meets a condition. -/
def State.held2 (s : State) (f : Nat → Bool) : Bool := s.kps.slots.any fun e => e.2.valid && e.2.sev == 2 && f e.2.source

/-- R382: port p counts as acknowledged. -/
def State.portAcked (s : State) (p : Nat) : Bool := s.ackBase && !s.held2 fun src => (s.scopePorts src).contains p

/-- R382: channel c counts as acknowledged. -/
def State.chanAcked (s : State) (c : Nat) : Bool := s.ackBase && !s.held2 fun src => src == 2 * 128 + c

/-- R382: axis a counts as acknowledged. -/
def State.axisAcked (s : State) (a : Nat) : Bool :=
  s.ackBase && !s.held2 fun src => src == 3 * 128 + a || src == 4 * 128 + a / 12

end Sys2Proof.Machine
end

