-- ==== Sys2Proof/Machine/Band.lean ====
section
/-! DEFINITION. Band Store, rings and spool (R81 to R110): the meanings of the ring commands, the reader's events, the
host's accesses through BAR2 and BAR4, and the LPDDR5X controller. -/

namespace Sys2Proof.Machine

/-- Something inside island i happens: it needs the island powered and out of reset (R36, R446). The stop-request lines
that it asserts are served in the same step (R360). -/
def State.onIsland (s : State) (i : Nat) (f : State → State) : State :=
  if !s.porst && s.islandOn i then (f s).serveStops else s

/-- The memory island. -/
abbrev isleMemory := 25

/-- R7: port p is present, and its port-timing island runs. -/
def State.hasPort (s : State) (p : Nat) : Bool :=
  !s.porst && decide (p < s.portCount) && s.islandOn (9 + p / 12)

/-- Something happens at port p. The stop-request lines that it asserts are served in the same step (R360). -/
def State.onPort (s : State) (p : Nat) (f : State → State) : State := if s.hasPort p then (f s).serveStops else s

/-- R20: number of bytes of the Band Store in the profile (R34, R36). -/
def State.bandBytes (s : State) : Nat := if s.ul24 then 0x4000000 else 0x10000000

/-- R55, R77: an unmapped access is counted and recorded. `space` is 0 for BAR0 and 1 for BAR2. -/
def State.unmapped (s : State) (m : Master) (space addr : Nat) (write : Bool) : State :=
  if s.porst then s
  else
    let w := BitVec.ofNat 32 (m.code * 2 ^ 30 + (if write then 2 ^ 29 else 0) + space * 2 ^ 26 + addr % 2 ^ 26)
    ((s.fadd Reg.DEV_UNMAPPED_COUNT 1).setWord (Reg.DEV_UNMAPPED_ADDR_ADDR.addr) w).raise Reg.DEV_CAUSE_UNMAPPED

/-- R90: byte address a lies in the ring. -/
def Ring.holds (r : Ring) (a : Nat) : Bool :=
  decide (r.st ≠ .unconfigured ∧ 65536 * r.base ≤ a ∧ a < 65536 * r.base + r.bytes)

/-- R90: byte address a lies in the committed region of the ring. -/
def Ring.committed (r : Ring) (a : Nat) : Bool :=
  r.holds a && decide ((a - 65536 * r.base + r.bytes - r.rpos % r.bytes) % r.bytes < r.fill)

/-- R90: which ports a write of n bytes at a would hit in their committed regions, and which in a ring fed from the
spool only. -/
def State.guards (s : State) (a n : Nat) (fromSpool : Bool) : List Nat × List Nat :=
  let bytes := (List.range n).map (a + ·)
  (s.portList.filter fun p => bytes.any (s.ring p).committed,
   if fromSpool then [] else s.portList.filter fun p => (s.ring p).spoolOnly && bytes.any (s.ring p).holds)

/-- The 64-bit words that n bytes from a touch. -/
def wordsAt (a n : Nat) : List Nat := (List.range ((n + a % 8 + 7) / 8)).map (a / 8 + ·)

/-- The word lies wholly within n bytes from a. -/
def wholeWord (a n w : Nat) : Bool := decide (a ≤ 8 * w ∧ 8 * w + 8 ≤ a + n)

/-- R35: an access of a master or of Joist corrects and counts the words it reads. -/
def State.bandCorrect (s : State) (a n : Nat) : State :=
  s.forEach ((wordsAt a n).filter (s.isCe .band)) fun s w =>
    ((s.mend .band w).fadd Reg.BND_ECC_CE_ECC_CE 1).raise Reg.BND0_CAUSE_ECC_CE

/-- R35, R108: an uncorrectable word of the Band Store on an access. -/
def State.bandUe (s : State) (w : Nat) : State :=
  (s.raise Reg.BND0_CAUSE_ECC_UE).setWord (Reg.BND_ECC_UE_ADDR_ECC_UE_ADDR.addr) (BitVec.ofNat 32 (8 * w))

/-- R105, R106, R110: the spool keeps check bits: ECC_EN as the latest TRAIN applied it. -/
def State.spoolEcc (s : State) : Bool := Reg.MEM_CFG_ECC_EN.get s.memCfg == 1

/-- A word of the Band Store or of the spool cannot be corrected; without check bits nothing tells. -/
def State.badWord (s : State) (k : Store) (w : Nat) : Bool := s.isUe k w && (k != .spool || s.spoolEcc)

/-- The words of n bytes at a that a store cannot correct. -/
def State.ueWords (s : State) (k : Store) (a n : Nat) : List Nat := (wordsAt a n).filter (s.badWord k)

/-- R106: the words of the spool that a read covers are corrected and counted. -/
def State.spoolCorrect (s : State) (a n : Nat) : State :=
  if !s.spoolEcc then s
  else s.forEach ((wordsAt a n).filter (s.isCe .spool)) fun s w =>
    ((s.mend .spool w).fadd Reg.MEM_ECC_CE_COUNT 1).raise Reg.MEM_CAUSE_ECC_CE

/-- R106: an uncorrectable word of the spool on an access. -/
def State.spoolUe (s : State) (w : Nat) : State :=
  (((s.setWord (regAddr .mem 0 0x54) (BitVec.ofNat 32 (8 * w))).setWord (regAddr .mem 0 0x58)
    (BitVec.ofNat 32 (8 * w / 2 ^ 32))).raise Reg.MEM_CAUSE_ECC_UE).send 0 8 kindDataUe 1 (8 * w)

/-- R35: one read of the Band Store: its correctable words are corrected and counted, each uncorrectable one is reported,
and with one there is no data. -/
def State.bandRead (s : State) (a n : Nat) : State × Option (List Byte) :=
  let bad := s.ueWords .band a n
  ((s.bandCorrect a n).forEach bad State.bandUe, if bad.isEmpty then some (memBytes 0 s.band a n) else none)

/-- R35, R92: bytes are stored in the Band Store. A word written whole gets new check bits; a word written in part is read,
changed and written: a correctable error is corrected and counted, an uncorrectable one is reported and stays (log 12). -/
def State.bandStore (s : State) (a : Nat) (bs : List Byte) : State :=
  let words := wordsAt a bs.length
  let part := words.filter fun w => !wholeWord a bs.length w
  let s := s.forEach part fun s w => s.bandCorrect (8 * w) 8
  let s := s.forEach (part.filter (s.badWord .band)) State.bandUe
  let s := { s with band := memPut 0 s.band a bs }
  s.forEach (words.filter (wholeWord a bs.length)) fun s w => s.clearEcc .band w

/-- R90: one write reaches the Band Store: it is stored, or dropped whole with OVERWRITE or DENY. The Boolean says
that it was dropped. -/
def State.bandWrite (s : State) (a : Nat) (bs : List Byte) (fromSpool : Bool) : State × Bool :=
  let (owners, deny) := s.guards a bs.length fromSpool
  if owners.isEmpty && deny.isEmpty then (s.bandStore a bs, false)
  else
    let s := s.forEach owners fun s p => (s.fput Reg.BND_RSTAT_OVERWRITE 1 0 p).raiseBnd Reg.BND0_CAUSE_OVERWRITE p
    (s.forEach deny fun s p => (s.fput Reg.BND_RSTAT_DENY 1 0 p).raiseBnd Reg.BND0_CAUSE_DENY p, true)

/-- R55, R90, R92: BAR2_WRITE. -/
def execBar2Write (t : Time) (off : Nat) (data : List Byte) (s : State) : Host.Outcome State Fault Refusal :=
  let s := s.at t
  done (s.by .host fun s => s.onIsland isleMemory fun s =>
    if s.bandBytes ≤ off then s.unmapped .host 1 off true
    else (s.bandWrite off (data.take (s.bandBytes - off)) false).1)

/-- R35, R55, R92, R346: BAR2_READ: the data, or a Completer Abort (none). -/
def execBar2Read (t : Time) (off len : Nat) (s : State) : Host.Outcome State Fault Refusal :=
  let s := s.at t
  done (s.by .host fun s => s.onIsland isleMemory fun s =>
    if s.bandBytes ≤ off then { s.unmapped .host 1 off false with bar2Data := some (List.replicate len 0) }
    else
      match s.bandRead off len with
      | (s, none) => { (s.aer .completerAbort s.freeHeader).drew with bar2Data := none }
      | (s, some bs) => { s with bar2Data := some bs })

/-- R105: bytes of the usable spool, as MEM_CAP reports it. -/
def State.spoolSize (s : State) : Nat := 0x4000000 * s.fget Reg.MEM_CAP_CAP

/-- R106: bytes are stored in the spool, words in part and whole as in the Band Store. -/
def State.spoolStore (s : State) (a : Nat) (bs : List Byte) : State :=
  let words := wordsAt a bs.length
  let part := words.filter fun w => !wholeWord a bs.length w
  let s := s.forEach part fun s w => s.spoolCorrect (8 * w) 8
  let s := s.forEach (part.filter (s.badWord .spool)) State.spoolUe
  let s := { s with spool := memPut 0 s.spool a bs }
  s.forEach (words.filter (wholeWord a bs.length)) fun s w => s.clearEcc .spool w

/-- R107: BAR4_ACCESS: to the spool, or completed with 0 or ignored. -/
def execBar4Access (t : Time) (off len : Nat) (write : Option (List Byte)) (s : State) :
    Host.Outcome State Fault Refusal :=
  let s := s.at t
  done (s.by .host fun s => s.onIsland isleMemory fun s =>
    let a := 0x40000000 * s.fget Reg.MEM_AP_BASE_BASE + off
    let n := match write with | some d => d.length | none => len
    let zero (s : State) : State := match write with
      | some _ => s
      | none => { s with bar2Data := some (List.replicate len 0) }
    if s.mem ≠ .ready then zero (s.raise Reg.MEM_CAUSE_NOT_READY)
    else if s.spoolSize < a + n then zero (s.raise Reg.MEM_CAUSE_AP_OOR)
    else match write with
      | some d => s.spoolStore a d
      | none => { s.spoolCorrect a len with bar2Data := some (memBytes 0 s.spool a len) })

/-- R88: a ring's WPTR does not take an advance. -/
def State.wptrErr (s : State) (p : Nat) : State :=
  (s.fput Reg.BND_RSTAT_WPTR_ERR 1 0 p).raiseBnd Reg.BND0_CAUSE_WPTR_ERR p

/-- R88: ring p's WPTR advances to the pointer `w`, if the conditions hold. -/
def State.advanceW (s : State) (p : Nat) (w : Ptr) : State :=
  let r := s.ring p
  let d := (Ptr.ofPos r.bytes r.wpos).ahead w r.bytes
  if r.st = .unconfigured ∨ r.bytes ≤ w.off ∨ w.off % 64 ≠ 0 ∨ d = 0 ∨ r.bytes < r.fill + d then s.wptrErr p
  else ((((s.noteLow p).setRing p { r with wpos := r.wpos + d }).pace p).releaseRows p).noteLow p

/-- R88: WPTR_WRITE. -/
def execWptrWrite (t : Time) (m : Master) (port : Nat) (value : Word) (s : State) : Host.Outcome State Fault Refusal :=
  let s := s.at t
  done (s.by m fun s => if s.present .bnd1 0 && decide (port < s.portCount) then
    s.advanceW port ⟨value.toNat % 2 ^ 28, value.getLsbD 31⟩ else s)

/-- R88: a completion event on ring p's commit line: WPTR goes to the end of the descriptor's destination range; an
end at the ring's top commits offset 0 with WRAP toggled. -/
def State.commitEvent (s : State) (p endAddr : Nat) : State :=
  let r := s.ring p
  let lo := 65536 * r.base
  if r.st = .unconfigured ∨ endAddr < lo ∨ lo + r.bytes < endAddr then s.wptrErr p
  else
    let off := endAddr - lo
    let cur := Ptr.ofPos r.bytes r.wpos
    let w : Ptr := if off = r.bytes then ⟨0, !cur.wrap⟩ else if off < cur.off then ⟨off, !cur.wrap⟩ else ⟨off, cur.wrap⟩
    s.advanceW p w

/-- R83: COLS of a ring is usable. -/
def colsOk (c : Nat) : Bool := c % 512 == 0 && decide (512 ≤ c) && decide (c ≤ 12288)

/-- R86, R87: the ring that BND_RCFG describes for port p can be set up. -/
def State.ringOk (s : State) (p : Nat) : Bool :=
  let base := s.fget Reg.BND_RCFG_BASE 0 p
  let size := s.fget Reg.BND_RCFG_SIZE 0 p
  decide (0 < size) && colsOk (s.fget Reg.BND_RCOLS_COLS 0 p) &&
  decide (base + size ≤ if s.ul24 then 1024 else 4096) &&
  s.portList.all fun q =>
    let r := s.ring q
    q == p || r.st == .unconfigured || decide (base + size ≤ r.base) || decide (r.base + r.size ≤ base)

/-- R87: RING_RESET of port p. -/
def State.ringReset (s : State) (p : Nat) : State :=
  let s := (s.latchPort p).noteLow p
  let r := s.ring p
  let s := s.setRing p { Ring.reset with
    st := .run, base := s.fget Reg.BND_RCFG_BASE 0 p, size := s.fget Reg.BND_RCFG_SIZE 0 p
    cols := s.fget Reg.BND_RCOLS_COLS 0 p, spoolOnly := s.fbit Reg.BND_RCFG_SPOOL 0 p, hdrCode := r.hdrCode }
  (s.fput Reg.BND_RLOST_LOST 0 0 p).pace p

/-- R108: a port index in ARG[6:0] is present. -/
def State.argPort (s : State) (arg : Nat) : Bool := decide (argField arg 6 0 < s.portCount)

/-- R87, R108: RING_RESET. -/
def specRingReset (s : State) (arg : Nat) : CmdSpec :=
  let p := argField arg 6 0
  { argOk := s.argPort arg, unlock := true, legal := (s.port p).sq == .idle, cond := s.ringOk p
    eff := fun s => s.ringReset p }

/-- R403: RING_RESET needs banks that are clock-gated. -/
def State.gatedRing (s : State) (arg : Nat) : Bool :=
  let p := argField arg 6 0
  let lo := s.fget Reg.BND_RCFG_BASE 0 p / 64
  let hi := (s.fget Reg.BND_RCFG_BASE 0 p + s.fget Reg.BND_RCFG_SIZE 0 p + 63) / 64
  (List.range (hi - lo)).any fun k => s.gatedBank (lo + k)

/-- RING_RESET. -/
def execRingReset (t : Time) (m : Master) (arg : Nat) (s : State) : Host.Outcome State Fault Refusal :=
  let s := s.at t
  done (s.command m .bnd0 0 0x01 arg (s.gatedRing arg) (some (specRingReset s arg)))

/-- R97, R104: RING_FLUSH of port p. DESIGN CHOICE (log 145): what it takes of a page whose LAST band is not wholly committed
never comes, so the band never counts as committed. -/
def State.ringFlush (s : State) (p : Nat) : State :=
  let r := s.ring p
  if r.st = .unconfigured then s
  else
    let s := s.noteLow p
    let cut := match r.curInfo with
      | some i => if s.lastCommitted p i.page then r.flushed else some i.page
      | none => r.flushed
    ((s.setRing p { r with st := .resync, rpos := r.wpos, hpos := r.wpos, bands := [], flushed := cut }).pace p).noteLow p

/-- R97, R108: RING_FLUSH. -/
def specRingFlush (s : State) (arg : Nat) : CmdSpec :=
  { argOk := s.argPort arg, eff := fun s => s.ringFlush (argField arg 6 0) }

/-- RING_FLUSH. -/
def execRingFlush (t : Time) (m : Master) (arg : Nat) (s : State) : Host.Outcome State Fault Refusal :=
  let s := s.at t
  done (s.command m .bnd0 0 0x02 arg false (some (specRingFlush s arg)))

/-- R108: CLR_ECC: the argument is ignored. -/
def specBndClrEcc : CmdSpec :=
  { eff := fun s => (s.fput Reg.BND_ECC_CE_ECC_CE 0).fput Reg.BND_ECC_UE_ADDR_ECC_UE_ADDR 0 }

/-- BND_CLR_ECC. -/
def execBndClrEcc (t : Time) (m : Master) (arg : Nat) (s : State) : Host.Outcome State Fault Refusal :=
  let s := s.at t
  done (s.command m .bnd0 0 0x03 arg false (some specBndClrEcc))

/-- R95 check 1: a word of the 64 bytes cannot be corrected; its byte address. -/
def State.ringUe (s : State) (p pos : Nat) : Option Nat :=
  let r := s.ring p
  ((List.range 8).map fun k => 65536 * r.base + (if r.bytes = 0 then 0 else (pos + 8 * k) % r.bytes)).find?
    fun a => s.isUe .band (a / 8)

/-- R84: FORMAT is accepted in the ring. -/
def State.formatOk (s : State) (p f : Nat) : Bool :=
  if s.ul24 then f == 3 else f == 0 || (f == 1 && (s.ring p).spoolOnly) || f == 2 || f == 3

/-- R81: row bytes of a format. -/
def rowBytesOf (f cols : Nat) : Nat :=
  match f with
  | 0 => cols / 2
  | 1 => cols
  | 2 => cols / 4
  | _ => cols / 8

/-- R95, checks 1 to 6: the code of the first that fails; 0 if none. -/
def State.check16 (s : State) (p : Nat) (bs : List Byte) (ue : Bool) : Nat :=
  let h := parseHdr bs
  if ue then 10
  else if hdrWord bs 0 / 65536 ≠ 0xBD5A then 1
  else if hdrWord bs 0 / 256 % 256 ≠ 1 then 2
  else if (crc32c (bs.take 60)).toNat ≠ hdrWord bs 15 then 3
  else if h.port ≠ p then 4
  else if !s.formatOk p h.format then 5
  else 0

/-- R94: a blank page's band. -/
def Hdr.blank (h : Hdr) : Bool := h.first == 0 && h.lines == 0 && h.last

/-- R95 check 10: the geometry, compared with the page's first band where `i` holds it. -/
def Hdr.geometryOk (h : Hdr) (cols : Nat) (i : Option PageInfo) : Bool :=
  h.rowBytes == rowBytesOf h.format cols && decide (1 ≤ h.gap) && decide (h.first + h.lines ≤ h.pageLines) &&
  (h.blank || (decide (1 ≤ h.lines) && (h.last == decide (h.first + h.lines = h.pageLines)))) &&
  (h.format != 0 || (h.first % 2 == 0 && h.lines % 2 == 0 && h.pageLines % 2 == 0)) &&
  (match i with
   | some i => i.format == h.format && i.pageLines == h.pageLines && i.gap == h.gap && i.word8 == h.word8
   | none => true)

/-- R95, checks 7 to 10. -/
def Ring.check710 (r : Ring) (h : Hdr) : Nat :=
  let newPage := !r.pageOpen
  if (match r.curInfo with
      | none => false
      | some i => h.page != (if r.pageOpen then i.page else (i.page + 1) % 2 ^ 32)) then 6
  else if h.first ≠ (if newPage then 0 else r.nextLine) then 7
  else if (match r.expSeq with | some q => h.seqNo != q | none => false) then 8
  else if !h.geometryOk r.cols (if newPage then none else r.curInfo) then 9
  else 0

/-- R212: S of port p is lost: POS_LOST, and everything the reader still holds is discarded. -/
def State.loseS (s : State) (p : Nat) : State :=
  let r := s.ring p
  (s.setRing p { r with sLost := true, pages := [], bands := r.bands.map fun b =>
    if (match (s.flow p).cur with | some c => c.page == b.page | none => false) then b else { b with discard := true } }).raise
    Reg.FT_CAUSE_POS_LOST p

/-- R212: the reader meets the first band of a page. `ok` says that the header passes its HCRC. DESIGN CHOICE (log 145): a
header that fails it counts as the first of a page by its own PAGE field, and a discarded page that is neither the page met
last nor the one after it ends the order of the pages, so S is lost too. -/
def State.meetPage (s : State) (p : Nat) (h : Hdr) (ok : Bool) : State :=
  let r := s.ring p
  if r.sLost then s
  else match r.met with
    | none =>
      if ok && h.page == s.aget Reg.PL_GRP_ORG_PAGE_PAGE (12 * (p / 12)) then
        s.setRing p { r with met := some ⟨h.page, 0, h.pageLines, h.gap⟩ }
      else s.loseS p
    | some q =>
      if h.page = q.page then s
      else if ok && h.page == (q.page + 1) % 2 ^ 32 then
        s.setRing p { r with met := some ⟨h.page, q.start + q.pageLines + q.gap, h.pageLines, h.gap⟩ }
      else s.loseS p

/-- R94, R97, R98: the reader takes the band at its header position: it is kept, or discarded. `own` says that the
block's own values become its page's (R97). -/
def State.takeBand (s : State) (p : Nat) (h : Hdr) (discard own : Bool) : State :=
  let r := s.ring p
  let newPage := !r.pageOpen || own
  let start := match r.met with | some q => q.start | none => 0
  let info : PageInfo :=
    { page := h.page, format := h.format, pageLines := h.pageLines, gap := h.gap, word8 := h.word8, blank := h.blank
      start := start
      lateN := if (s.port p).sq = .idle then 0 else s.dueCount p start, cut := false }
  let band : Band :=
    { page := h.page, first := h.first, lines := h.lines, last := h.last, format := h.format
      rowBytes := h.rowBytes, pos := r.hpos, released := 0, hdrReleased := false, discard := discard }
  let s := s.setRing p { r with
    curInfo := if newPage then some info else r.curInfo, pageOpen := !h.last, nextLine := h.first + h.lines
    expSeq := some ((h.seqNo + 1) % 65536), bands := r.bands ++ [band], hpos := band.endPos
    flushed := if r.flushed = some h.page then none else r.flushed
    pages := if newPage && !discard then r.pages ++ [info] else r.pages }
  let s := s.releaseRows p
  if newPage && !discard then s.headerCame p else s

/-- R98, R212: the reader discards page `pg` at port p without check. -/
def State.discards? (s : State) (p pg : Nat) : Bool :=
  let r := s.ring p
  r.gone pg || r.sLost || (r.met.isNone && pg != s.aget Reg.PL_GRP_ORG_PAGE_PAGE (12 * (p / 12)))

/-- R212: the start of page `pg` as the headers met so far tell it. -/
def Ring.startOf (r : Ring) (pg : Nat) : Option Int :=
  match r.met with
  | some q =>
    if r.sLost then none else if pg = q.page then some q.start
    else if pg = (q.page + 1) % 2 ^ 32 then some (q.start + q.pageLines + q.gap) else none
  | none => none

/-- R98, R37: page `pg` has passed while port p was out of its page flow: the port is out of it and the device is running,
or it joins the running device and the page had been reached before. -/
def State.hasPassed (s : State) (p pg : Nat) : Bool :=
  let at0 : Option Rat := match (s.port p).sq with
    | SeqState.idle => if s.devState = .idle then none else s.whereNow p
    | .armed => (s.flow p).joining
    | _ => none
  match at0, (s.ring p).startOf pg with
  | some x, some S => decide (s.dueAt p S 0 ≤ x)
  | _, _ => false

/-- R108: an uncorrectable word of a block that port p's reader reads. -/
def State.blockUe (s : State) (p a : Nat) : State :=
  (s.raiseBnd Reg.BND0_CAUSE_ECC_UE p).setWord (Reg.BND_ECC_UE_ADDR_ECC_UE_ADDR.addr) (BitVec.ofNat 32 (a / 8 * 8))

/-- R96: a header has failed: the ring halts. -/
def State.haltRing (s : State) (p code : Nat) (ue : Option Nat) : State :=
  let r := s.ring p
  let s := s.setRing p { r with st := .halted, hdrCode := code }
  let s := match ue with
    | some a => if code = 10 then s.blockUe p a else s
    | none => s
  (s.fput Reg.BND_RSTAT_HDR_ERR 1 0 p).raiseBnd Reg.BND0_CAUSE_HDR_ERR p

/-- R35, R108: the reader reads the 64-byte block at a position: its correctable words are corrected and counted. -/
def State.mendBlock (s : State) (p pos : Nat) : State :=
  let r := s.ring p
  let words := (List.range 8).map fun k => (65536 * r.base + (if r.bytes = 0 then 0 else (pos + 8 * k) % r.bytes)) / 8
  s.forEach (words.filter (s.isCe .band)) fun s w =>
    ((s.mend .band w).fadd Reg.BND_ECC_CE_ECC_CE 1).raiseBnd Reg.BND0_CAUSE_ECC_CE p

/-- R93 to R99, R212: BAND_HEADER. -/
def State.bandHeader (s : State) (p : Nat) : State :=
  let r := s.ring p
  if r.st ≠ .run ∨ r.wpos < r.hpos + 64 then s
  else
    let s := s.mendBlock p r.hpos
    let bs := s.ringBytes p r.hpos 64
    let h := parseHdr bs
    let ue := s.ringUe p r.hpos
    let passed := s.hasPassed p h.page
    let drop := passed || s.discards? p h.page
    let code := if drop then 0
      else let c := s.check16 p bs ue.isSome
        if c ≠ 0 then c else r.check710 h
    if code ≠ 0 then s.haltRing p code ue
    else
      let hcrc := ue.isNone && (crc32c (bs.take 60)).toNat == hdrWord bs 15
      let s := (s.when passed fun s => s.setRing p ((s.ring p).discardTo h.page h.page)).meetPage p h hcrc
      s.takeBand p h (drop || (s.ring p).sLost) false

/-- BAND_HEADER. -/
def execBandHeader (t : Time) (port : Nat) (s : State) : Host.Outcome State Fault Refusal :=
  let s := s.at t
  done (s.onPort port fun s => s.onIsland isleMemory fun s => s.bandHeader port)

/-- R97, R98: RESYNC_BLOCK: the reader tests the next committed 64-byte block. DESIGN CHOICE (log 145): a block that it
rejects leaves HDR_CODE as it is. Where S becomes lost, the port prints nothing further of the page that it is in either. -/
def State.resyncBlock (s : State) (p : Nat) : State :=
  let r := s.ring p
  if r.st ≠ .resync ∨ r.wpos < r.hpos + 64 then s
  else
    let s := s.mendBlock p r.hpos
    let s := match s.ringUe p r.hpos with
      | some a => s.blockUe p a
      | none => s
    let r := s.ring p
    let bs := s.ringBytes p r.hpos 64
    let h := parseHdr bs
    let same : Bool := match r.curInfo with | some i => i.page == h.page | none => false
    let within : Bool := match r.curInfo with | some i => i.page == h.page || laterPage h.page i.page | none => true
    if s.check16 p bs (s.ringUe p r.hpos).isSome = 0 ∧ within ∧ h.geometryOk r.cols (if same then r.curInfo else none) then
      let s := s.setRing p { r with st := .run }
      let s := match r.curInfo with
        | some i => if same then s else (s.when (s.port p).inFlow fun s => s.markDefect p).cutPage p i.page
        | none => s
      let s := s.meetPage p h true
      let s := match (s.flow p).cur with
        | some c => s.when (s.ring p).sLost fun s => s.cutPage p c.page
        | none => s
      s.takeBand p h (s.discards? p h.page) (!same)
    else ((s.noteLow p).setRing p { r with hpos := r.hpos + 64, rpos := r.hpos + 64 }).pace p

/-- RESYNC_BLOCK. -/
def execResyncBlock (t : Time) (port : Nat) (s : State) : Host.Outcome State Fault Refusal :=
  let s := s.at t
  done (s.onPort port fun s => s.onIsland isleMemory fun s => s.resyncBlock port)

/-- R110: the channel count that CH_EN names, if it is one of the three allowed. -/
def channelsOf (en : Nat) : Option Nat :=
  if en = 1 then some 1 else if en = 3 then some 2 else if en = 15 then some 4 else none

/-- R105, R110: usable spool in 64 MiB units, of the MEM_CFG that TRAIN has applied. -/
def State.capUnits (s : State) : Nat :=
  let n := (channelsOf (Reg.MEM_CFG_CH_EN.get s.memCfg)).getD 0
  let raw := n * 2 ^ Reg.MEM_CFG_DENSITY.get s.memCfg * 16
  if s.spoolEcc then raw * 7 / 8 else raw

/-- R110: TRAIN applies MEM_CFG. The spool's content is lost; what it reads as then is the model's choice (log 4). -/
def specTrain (s : State) : CmdSpec :=
  let d := s.fget Reg.MEM_CFG_DENSITY
  { unlock := true, legal := s.mem == .off || s.mem == .fault
    cond := (channelsOf (s.fget Reg.MEM_CFG_CH_EN)).isSome && decide (1 ≤ d) && decide (d ≤ 5)
    eff := fun s =>
      { s with mem := .training, spool := [], ue := s.ue.filter (·.1 ≠ .spool), ce := s.ce.filter (·.1 ≠ .spool)
               memCfg := s.word (regAddr .mem 0 0x40), scrubAt := 0, scrubbed := s.now } }

/-- TRAIN. -/
def execTrain (t : Time) (m : Master) (s : State) : Host.Outcome State Fault Refusal :=
  let s := s.at t
  done (s.command m .mem 0 0x01 0 false (some (specTrain s)))

/-- R110: TRAIN_COMPLETE: `pass` has a bit for each channel that passed. DESIGN CHOICE (log 145): MEM_CAP keeps its value
while the channels train, and reads 0 after a TRAIN that failed. -/
def execTrainComplete (t : Time) (pass : Nat) (s : State) : Host.Outcome State Fault Refusal :=
  let s := s.at t
  done (s.onIsland isleMemory fun s =>
    if s.mem ≠ .training then s
    else
      let en := Reg.MEM_CFG_CH_EN.get s.memCfg
      let s := s.fput Reg.MEM_TRAIN_STAT_PASS (pass &&& en)
      if pass &&& en = en then
        ({ s with mem := .ready }.fput Reg.MEM_CAP_CAP s.capUnits).raise Reg.MEM_CAUSE_TRAIN_DONE
      else ({ s with mem := .fault }.fput Reg.MEM_CAP_CAP 0).raise Reg.MEM_CAUSE_TRAIN_FAIL)

/-- R110: SR_ENTER. -/
def specSrEnter (s : State) : CmdSpec :=
  { legal := s.mem == .ready, eff := fun s => { s with mem := .selfRefresh } }

/-- SR_ENTER. -/
def execSrEnter (t : Time) (m : Master) (s : State) : Host.Outcome State Fault Refusal :=
  let s := s.at t
  done (s.command m .mem 0 0x02 0 false (some (specSrEnter s)))

/-- R110: SR_EXIT; "within 1 ms" is taken as at once (log 21). -/
def specSrExit (s : State) : CmdSpec :=
  { legal := s.mem == .selfRefresh, eff := fun s => { s with mem := .ready } }

/-- SR_EXIT. -/
def execSrExit (t : Time) (m : Master) (s : State) : Host.Outcome State Fault Refusal :=
  let s := s.at t
  done (s.command m .mem 0 0x03 0 false (some (specSrExit s)))

/-- R110: CLR_ECC. -/
def specMemClrEcc : CmdSpec :=
  { eff := fun s => ((s.fput Reg.MEM_ECC_CE_COUNT 0).setWord (regAddr .mem 0 0x54) 0).setWord (regAddr .mem 0 0x58) 0 }

/-- MEM_CLR_ECC. -/
def execMemClrEcc (t : Time) (m : Master) (s : State) : Host.Outcome State Fault Refusal :=
  let s := s.at t
  done (s.command m .mem 0 0x04 0 false (some specMemClrEcc))

/-- R106: the scrubber's next block is due: INTERVAL µs after the one before, 0 taken as 1. -/
def State.scrubDue (s : State) : Bool :=
  s.mem == .ready && Reg.MEM_CFG_SCRUB_EN.get s.memCfg == 1 && decide (0 < s.spoolSize) &&
  decide (s.scrubbed + max 1 (s.fget Reg.MEM_SCRUB_INTERVAL) * us ≤ s.now)

/-- R106: SCRUB_BLOCK: the scrubber reads and corrects the next 4 KiB block. -/
def execScrubBlock (t : Time) (s : State) : Host.Outcome State Fault Refusal :=
  let s := s.at t
  done (s.onIsland isleMemory fun s =>
    if s.scrubDue then
      let s := s.spoolCorrect s.scrubAt 4096
      { s with scrubAt := (s.scrubAt + 4096) % s.spoolSize, scrubbed := s.now }
    else s)

end Sys2Proof.Machine
end

