-- ==== Sys2Proof/Machine/Fire.lean ====
section
/-! DEFINITION. Fire timing and drop placement (R139 to R153, R177 to R197, R212 to R226): stages 2 to 6 of a line, the
line clock, the strobes, and the overdrive budget. -/

namespace Sys2Proof.Machine

/-- R32: SCREEN_DEADLINE: the line whose stage 2 is unfinished at its deadline is lost with cause UNDERRUN. -/
def State.screenDeadline (s : State) (p : Nat) : State :=
  let f := s.flow p
  match f.cur, f.lines.find? (fun l => l.m == f.stageM) with
  | some pg, some l =>
    if l.lost.isSome || pg.blank || decide (pg.pageLines ≤ l.m) || decide (l.m < f.schedM) then s
    else
      (s.loseAt p l.m .underrun).modFlow p fun f =>
        { f with lines := f.lines.map fun y => if y.m = l.m then { y with codes := [] } else y }
  | _, _ => s

/-- SCREEN_DEADLINE. -/
def execScreenDeadline (t : Time) (port : Nat) (s : State) : Host.Outcome State Fault Refusal :=
  let s := s.at t
  done (s.onPort port fun s => s.screenDeadline port)

/-- R185: the band of die d: how many of its band bits are set. -/
def Port.band (x : Port) (d : Nat) : Nat :=
  ((List.range 16).filter fun k => (x.bandBits.getD d 0).testBit k).length

/-- R180: the class code (1 A, 2 B, 3 C) of history state h in HIST_MAP; an entry of 00 acts as 01. -/
def mapClass (map h : Nat) : Nat := let e := map / 4 ^ h % 4; if e = 0 then 1 else e

/-- R179 H3: one step down. -/
def stepDown (c : Nat) : Nat := min 3 (c + 1)

/-- R177: every nozzle's history advances by its decision. -/
def advanceHist (hist : Sparse Nat) (fired : List Nat) : Sparse Nat :=
  let shifted : Sparse Nat := hist.filterMap fun e => let h := e.2 * 2 % 8; if h = 0 then none else some (e.1, h)
  fired.foldl (fun m j => Sparse.put (fun _ => 0) m j (Sparse.get (fun _ => 0) m j / 2 * 2 + 1)) shifted

/-- R193, R179 H3: this line is forced down. DESIGN CHOICE (log 145): where the lines before it did not fire, its previous line
period is the one measured last in the page. -/
def State.forces (s : State) (p : Nat) : Bool :=
  let x := s.port p
  x.budget.forcing && (match x.flow.lastPeriod with | some d => decide (d < ovdPeriod) | none => false)

/-- R196: a table, threshold or history word that stage 3 reads: its store and key, the BAR0 offset shown, and the
detail of the message; no detail is stated for a threshold word. -/
structure TableWord where
  store : Store
  key : Nat
  addr : Nat
  detail : Option Nat
  deriving DecidableEq, Repr

/-- R196: the 64-bit words that stage 3 of a line reads. -/
def State.stageWords (s : State) (p : Nat) (useMap : Bool) : List TableWord :=
  let x := s.port p
  let tab (k : Nat) : TableWord :=
    let o := k / 2 * 8
    ⟨.width, (128 * p + k) / 2, 0x2400000 + 0x200 * p + o, some o⟩
  let ws := dedup (x.cfgDies.flatMap fun d => (List.range 3).map fun c => widthWord c (x.band d) d / 2 * 2)
  ws.map tab ++ (if useMap then [tab 96] else []) ++
  (List.range 4).map (fun i => (⟨.thresh, 4 * p + i, Reg.EN_TB_EVEN.addr p (2 * i), none⟩ : TableWord)) ++
  (if s.ul24 then [] else (List.range 576).map fun w =>
    (⟨.hist, 576 * p + w, 0x1000000 + 0x10000 * p + 4 * (64 * w / 3), some (64 * w / 3)⟩ : TableWord))

/-- R196: table errors of stage 3 at port p. -/
def State.tableErrors (s : State) (p : Nat) (useMap : Bool) : State :=
  let ws := s.stageWords p useMap
  let s := (ws.filter fun w => s.isCe w.store w.key).foldl (fun s w =>
    ((s.mend w.store w.key).fadd Reg.EN_ECC_CE_COUNT 1 p).raise Reg.EN_CAUSE_ECC_CE p) s
  (ws.filter fun w => s.isUe w.store w.key).foldl (fun s w =>
    let det := w.detail.getD (s.drawn % 2 ^ 14)
    (((((if w.detail.isNone then s.drew else s).raise Reg.EN_CAUSE_ECC_UE p).fput Reg.EN_ECC_UE_ADDR_ADDR w.addr p)).send
      1 p kindTableUe 2 det).stopPort p) s

/-- R144, R179 H6, R186: the widths W_x,d of a line at index 4x + d; the present dies are those that CONFIG named. -/
def State.lineWidths (s : State) (p : Nat) : List Nat :=
  (List.range 12).map fun i =>
    let x := i / 4; let d := i % 4
    if (s.port p).cfgDies.contains d then s.widthOf p x ((s.port p).band d) d else 0

/-- R144: the envelopes of a line. -/
def State.lineEnv (s : State) (p : Nat) (widths : List Nat) : List Nat :=
  (List.range 3).map fun x =>
    s.envOf p (((List.range 4).map fun d => widths.getD (4 * x + d) 0).foldl max 0)

/-- R186, R197: EN_BAND shows the bands latched for the latest line. -/
def State.bandWord (s : State) (p : Nat) : Nat :=
  (s.port p).cfgDies.foldl (fun a d => a + (s.port p).band d * 16 ^ d) 0

/-- R179: HISTORY_STAGE: stage 3 of the next line of port p. -/
def State.historyStage (s : State) (p : Nat) : State :=
  let f := s.flow p
  match f.cur, f.lines.find? (fun l => l.m == f.stageM) with
  | some pg, some l =>
    if f.fetchM ≤ f.stageM then s
    else
      let d2 := pg.format = 2
      let hist := !s.ul24 && !decide d2 && s.abit Reg.EN_CTL_HIST_EN p
      let useMap := hist && !l.codes.isEmpty
      let force := s.forces p
      let s := (s.tableErrors p useMap).readNat p (l.codes.map (·.1))
      let x := s.port p
      let map := (s.widthA p 96).toNat
      let cls (e : Nat × Nat) : Nat × Nat :=
        let c := if d2 then e.2
          else if hist then mapClass map (Sparse.get (fun _ => 0) x.hist e.1) else 1
        (e.1, if force then stepDown c else c)
      let widths := s.lineWidths p
      let env := s.lineEnv p widths
      let hist' := if s.ul24 then x.hist else advanceHist x.hist (l.codes.map (·.1))
      let s := s.setPort p { x with
        hist := hist'
        flow := { x.flow with
          stageM := f.stageM + 1
          lines := x.flow.lines.map fun y =>
            if y.m = l.m then { y with codes := y.codes.map cls, widths := widths, env := env } else y } }
      let s := ((s.fput Reg.FT_ENV_AB_ENV_A (env.getD 0 0) p).fput Reg.FT_ENV_AB_ENV_B (env.getD 1 0) p).fput
        Reg.FT_ENV_C_ENV_C (env.getD 2 0) p
      let s := s.fput Reg.EN_BAND_BAND (s.bandWord p) p
      if force then
        let s := ((s.fadd Reg.EN_DOWN_LINES_COUNT 1 p).raise Reg.EN_CAUSE_DOWNCLASS p).markDefect p
        let s := if f.pageForced then s else s.send 1 p kindEnergy 1 0
        s.modFlow p fun f => { f with pageForced := true }
      else s
  | _, _ => s

/-- HISTORY_STAGE. -/
def execHistoryStage (t : Time) (port : Nat) (s : State) : Host.Outcome State Fault Refusal :=
  let s := s.at t
  done (s.onPort port fun s => s.historyStage port)

/-- Stage 3 of every line up to m; it always meets its deadline when stage 2 has met its own (R226). -/
def State.stageTo (s : State) (p m : Nat) : Nat → State
  | 0 => s
  | n + 1 => if (s.flow p).stageM ≤ m then (s.historyStage p).stageTo p m n else s

/-- R140: ORD. -/
def State.ordList (s : State) (p : Nat) : List Nat := (List.range 16).map (s.ord p)

/-- R159: the LINE frame of a line: W_x,d, or E_x with TRIM_MODE = 0. -/
def State.lineFrame (s : State) (p : Nat) (l : Line) : LinkFrame :=
  .line (s.port p).bank (s.port p).lseq
    ((s.port p).cfgDies.map fun d =>
      (d, (List.range 3).map fun x => if s.trimming p then l.widths.getD (4 * x + d) 0 else l.env.getD x 0))
    l.codes (s.ordList p)

/-- R162: the link has finished every frame. -/
def State.linkFree (s : State) (p : Nat) : Bool := decide ((s.port p).linkFreeAt ≤ s.now)

/-- R160, R188: a LINE frame waits for the link. -/
def State.lineReady (s : State) (p : Nat) : Bool :=
  (s.flow p).cur.isSome && decide ((s.flow p).sendM < (s.flow p).stageM) && (s.port p).st != .hotHold

/-- R122: lines that were screened with the old entry of a NAT_IMM, other fields than WSCALE of which changed, have not gone
out yet (log 165). -/
def State.immHeld (s : State) (p : Nat) : Bool :=
  match (s.port p).immHold, (s.flow p).cur with
  | some (pg, m), some c => c.page == pg && decide ((s.flow p).sendM < min m (s.flow p).fetchM)
  | _, _ => false

/-- R162: a TRIM frame for an immediate NAT write waits for the link. -/
def State.trimFirst (s : State) (p : Nat) : Bool := s.trimOn p && !(s.port p).trimImm.isEmpty && !s.immHeld p

/-- R159, R160, R162, R188: LINE_FRAME_SEND: the frame of the next line that has passed stage 3 starts, on a free link
and behind every immediate TRIM frame; none in HOT_HOLD. -/
def State.lineFrameSend (s : State) (p : Nat) : State :=
  let x := s.port p
  let f := x.flow
  if f.cur.isNone ∨ f.stageM ≤ f.sendM ∨ (x.st ≠ .hotHold ∧ (!s.linkFree p || s.trimFirst p)) then s
  else
    let s :=
      if x.st = .hotHold then s.modFlow p fun f => { f with sendM := f.sendM + 1 }
      else
        let l := (f.lines.find? fun l => l.m == f.sendM).getD (Line.make f.sendM none [])
        let s := s.sendFrames p [s.lineFrame p l]
        let e := (s.port p).linkFreeAt
        s.modPort p fun x =>
          { x with lseq := (x.lseq + 1) % 65536, ackWait := x.ackWait ++ [(x.lseq, none)],
                   health := { x.health with stepFrames := x.health.stepFrames.filter (· ≠ x.lseq) }
                   flow := { x.flow with
                     sendM := f.sendM + 1
                     lines := x.flow.lines.map fun l =>
                       if l.m = f.sendM then { l with sentAt := some e, lseq := x.lseq } else l } }
    (s.drainCheck p).pruneLines p

/-- LINE_FRAME_SEND. -/
def execLineFrameSend (t : Time) (port : Nat) (s : State) : Host.Outcome State Fault Refusal :=
  let s := s.at t
  done (s.onPort port fun s => s.lineFrameSend port)

/-- The square root of a non-negative number, from below, to 2⁻⁶⁴. -/
def sqrtRat (q : Rat) : Rat := (Nat.sqrt ((q * (2 ^ 128 : Nat)).floor.toNat) : Rat) / (2 ^ 64 : Nat)

/-- R219: the least time tau > 0 (µs) at which x + v tau + a tau² / 2 reaches X, with v > 0 counts/µs and a in
counts/µs². -/
def crossing (x v a X : Rat) : Option Rat :=
  let D := X - x
  if D ≤ 0 ∨ v ≤ 0 then none
  else if a = 0 then some (D / v)
  else
    let disc := v * v + 2 * a * D
    if disc < 0 then none else some (2 * D / (v + sqrtRat disc))

/-- R219: the error of the solution, within 10 ps. -/
def State.crossErr (s : State) : Rat := max (-10) (min 10 (Config.crossError s.free))

/-- R218: nanoseconds from the sample instant to the arrival at port p's group. DESIGN CHOICE (log 145): a group under
fixed-clock pacing has no reference channel, and its PL_AGE shows 20. -/
def State.stateAge (s : State) (p : Nat) : Nat :=
  let g := p / 12
  if s.fixedPace g then 20 else if s.refChan g / 12 = g then 20 else 26

/-- R222: LATE_WIN of port p, in lines. -/
def State.lateWin (s : State) (p : Nat) : Rat := (s.aget Reg.PL_LATE_WIN_WIN p : Rat) / 65536

/-- R223: VMIN of group g, counts/µs. -/
def State.vmin (s : State) (g : Nat) : Rat := (s.aget Reg.PL_GRP_VMIN_VMIN (12 * g) : Rat) / 65536

/-- R141: Tmin in ps. -/
def State.tminPs (s : State) (p : Nat) : Nat := 250 * s.tminUnits p

/-- R44: a line whose first phase starts at t lies within T of the end of the boundary before its page. -/
def State.inBoundary (s : State) (p : Nat) (t : Rat) : Bool :=
  match (s.flow p).boundaryEnd with
  | some e => decide (t < (e : Rat) + s.linePs p)
  | none => false

/-- R160: the line's frame has ended SETUP before t0. -/
def State.linkMet (s : State) (p : Nat) (l : Line) (t0 : Rat) : Bool :=
  match l.sentAt with
  | some e => decide ((e : Rat) + s.setupNs p * 1000 ≤ t0)
  | none => false

/-- The next line to schedule is done with. -/
def State.nextSched (s : State) (p : Nat) : State :=
  (s.modFlow p fun f => { f with schedM := f.schedM + 1 }).pruneLines p

/-- R170: the ACK of line l is due 16 phases after t0. -/
def State.ackDue (s : State) (p : Nat) (l : Line) (t0 : Time) : State :=
  let d := t0 + 250 * 16 * s.fget Reg.FT_PITCH_PITCH p
  s.modPort p fun x => { x with ackWait := x.ackWait.map fun e => if e.1 = l.lseq then (e.1, some d) else e }

/-- R44, R142, R160, R225: line l is to start at t0 (ps): it is lost for BOUNDARY, LINK or RATE, in this order, or
scheduled, perhaps delayed by R142. `conv` is LATE_WIN in ps (R222). -/
def State.schedule (s : State) (p : Nat) (l : Line) (t0 : Rat) (late : Bool) (conv : Rat) : State :=
  let lose (s : State) (c : LostCause) : State := s.loseAt p l.m c
  let put (s : State) (t : Time) (late : Bool) : State :=
    (s.modFlow p fun f =>
      { f with lines := f.lines.map fun y => if y.m = l.m then { y with t0 := some t, late := late } else y }).ackDue p l t
  let g0 := (gridPs t0).toNat
  if s.inBoundary p t0 then lose s .boundary
  else if !s.linkMet p l t0 then lose s .link
  else
    match (s.flow p).lastT0 with
    | some b =>
      let least := b + s.tminPs p
      if g0 < least then
        let s := s.fadd Reg.FT_RATE_WAIT_COUNT 1 p
        if (least : Rat) - t0 ≤ conv then put s least true else lose s .rate
      else put s g0 late
    | none => put s g0 late

/-- R142: t0(n - 1) is that of the line scheduled last, fired or not yet fired. -/
def Flow.latestT0 (f : Flow) : Option Time :=
  match (f.lines.filterMap (·.t0)).getLast? with
  | some t => some t
  | none => f.lastT0

/-- R44, R219 to R225: the placement unit tests the next unscheduled line on a state that arrives at `ta` (ps): it answers
none when that line is left for a later state. DEDUCED (log 166): a line beyond LATE_WIN whose target was reached earlier than T
after the boundary is lost with cause BOUNDARY, not PASSED. -/
def State.placeOne (s : State) (p : Nat) (ta : Nat) : Option State :=
  let g := p / 12
  let f := s.flow p
  let c := s.obs g
  match f.cur with
  | none => none
  | some pg =>
    let m := f.schedM
    if f.total ≤ m ∨ f.fetchM ≤ m then none
    else match f.lines.find? (fun l => l.m == m) with
      | none => some (s.nextSched p)
      | some l =>
        let X := s.target p pg.start m
        let hold := (s.port p).st = .hotHold
        if l.lost.isSome then some (s.nextSched p)
        else if c.st ≠ .run then
          (if X ≤ c.x then some ((s.loseAt p m .stopped).nextSched p) else none)
        else if f.revHold then none
        else
          let slow := absRat c.v < s.vmin g
          if !slow && decide (c.v ≤ 0) then none
          else
            let s := s.stageTo p m (m + 1)
            let l := ((s.flow p).lines.find? (fun l => l.m == m)).getD l
            let start := ((ta + 20 * ns : Nat) : Rat)
            let conv := if slow then 0 else s.lateWin p * s.pitch g / absRat c.v * us
            let prev := { s.flow p with lastT0 := (s.flow p).latestT0 }
            let sched (s : State) (t0 : Rat) (late : Bool) : State :=
              if hold then ((s.fadd Reg.EN_HOLD_LINES_COUNT 1 p).modFlow p fun f =>
                { f with lines := f.lines.filter fun y => y.m ≠ m }).nextSched p
              else
                let old := (s.flow p).lastT0
                let s := (s.modFlow p fun f => { f with lastT0 := prev.lastT0 }).schedule p l t0 late conv
                (s.modFlow p fun f => { f with lastT0 := old }).nextSched p
            if slow then
              (if X ≤ c.x then some (sched (s.raise Reg.FT_CAUSE_SLOW p) start false) else none)
            else
              let ahead := start - (c.tm : Rat)
              let delta := c.x + c.v * (ahead / us) - X
              let tc := (crossing c.x c.v c.acc X).map fun tau => (c.tm : Rat) + tau * us + s.crossErr
              let s := s.drew
              let passed := decide (0 ≤ delta) || (match tc with | some t => decide (t < start) | none => false)
              if passed then
                if delta ≤ s.lateWin p * s.pitch g then some (sched s start true)
                else
                  let reached := start - delta / c.v * us
                  some ((s.loseAt p m (if s.inBoundary p reached then .boundary else .passed)).nextSched p)
              else match tc with
                | some t => if t < (ta : Rat) + 120 * ns then some (sched s t false) else none
                | none => none

/-- R221: "the next line is tested on the same state"; at most n lines. -/
def State.placeLines (s : State) (p ta : Nat) : Nat → State
  | 0 => s
  | n + 1 =>
    match s.placeOne p ta with
    | some s' => s'.placeLines p ta n
    | none => s

/-- R224: the reference of port p runs backward: REVERSE, its count, a defective page, and REV_HOLD from highest count `hi`. -/
def State.startReverse (s : State) (p : Nat) (hi : Int) : State :=
  let s := ((s.raise Reg.FT_CAUSE_REVERSE p).fadd Reg.PL_REV_CNT_COUNT 1 p).markDefect p
  s.modFlow p fun f => { f with revHold := true, revFrom := hi }

/-- R224: the reference's highest count, the start and the end of a REV_HOLD. -/
def State.reverse (s : State) (p : Nat) : State :=
  let f := s.flow p
  let c := s.obs (p / 12)
  if !(s.port p).inFlow then s
  else if f.revHold then
    let past := match f.lastX with
      | some X => decide (X ≤ c.x)
      | none => decide (f.revFrom ≤ c.count)
    if past then (s.latch .ft p).modFlow p fun f => { f with revHold := false, xHi := some c.count } else s
  else
    let hi := match f.xHi with | some h => max h c.count | none => c.count
    let s := s.modFlow p fun f => { f with xHi := some hi }
    if (s.aget Reg.PL_REV_REVERSE_THR p : Int) < hi - c.count then s.startReverse p hi else s

/-- R98: pages pass while the port is out of its page flow and the device is running. -/
def State.passBy (s : State) (p : Nat) : State :=
  if (s.port p).sq = .idle ∧ s.devState ≠ .idle then
    match s.whereNow p with
    | some x => s.discardPassed p x
    | none => s
  else s

/-- R240: a page has begun at port p and none of its lines has been scheduled: its first line is still to come. -/
def Port.beforeFirst (x : Port) : Bool :=
  x.sq == .printing && x.flow.cur.isSome && x.flow.schedM == 0 && x.flow.lines.all fun l => l.t0.isNone

/-- R212, R240: the start of the page whose first line comes next at port p, as far as the reader knows it. -/
def State.nextStartS (s : State) (p : Nat) : Option Int :=
  let r := s.ring p
  if (s.port p).beforeFirst then (s.flow p).cur.map (·.start)
  else match r.pages with
  | i :: _ => some i.start
  | [] => match r.met with
    | some q => if r.sLost then none else some (q.start + q.pageLines + q.gap)
    | none => none

/-- R43, R240: when the first line of the next page starts, as the placement unit predicts it now. -/
def State.nextLineTime (s : State) (p : Nat) : Option Time :=
  let g := p / 12
  match s.nextStartS p with
  | none => none
  | some S =>
    if s.fixedPace g then
      let j := s.tickOf p S 0
      if (s.clock g).2 = 0 ∨ j < 0 then none else some (s.phaseStart p (s.tickTime g j.toNat) 0)
    else
      let c := s.obs g
      if c.st ≠ .run ∨ absRat c.v < s.vmin g then none
      else if s.target p S 0 ≤ c.x then some c.tm
      else (crossing c.x c.v c.acc (s.target p S 0)).map fun tau => ((c.tm : Rat) + tau * us).floor.toNat

/-- R43, R240: when a slice granted now must close: T before the first line of the next page. -/
def State.sliceClose (s : State) (p : Nat) : Option Time :=
  (s.nextLineTime p).map fun t => t - (s.linePs p).ceil.toNat

/-- R240: the end of the scan step in progress. -/
def State.stepEnd (s : State) (p t0 : Nat) : Time := t0 + 250 * 16 * s.fget Reg.HL_SCAN_PITCH p

/-- R240: T before the first line of the next page, as predicted now; the close at the grant where there is no
prediction. -/
def State.closeNow (s : State) (p : Nat) : Time :=
  (s.sliceClose p).getD ((s.port p).health.sliceClose.getD 0)

/-- R240: the slice is abandoned when its predicted close moves before the end of the step in progress; a slice with no step
in progress ends when it closes. -/
def State.sliceCheck (s : State) (p : Nat) : State :=
  let h := (s.port p).health
  match h.sliceClose, h.stepT0 with
  | some _, some t0 => if s.closeNow p < s.stepEnd p t0 then s.cutStep p else s
  | some _, none => if s.closeNow p ≤ s.now then s.modPort p fun x => x.dropScan s.now else s
  | none, _ => s

/-- R219 to R225: STATE_ARRIVAL: an observer state reaches the placement unit of port p. -/
def State.stateArrival (s : State) (p : Nat) : State :=
  let g := p / 12
  if s.fixedPace g then s
  else
    let ta := (s.obs g).tm + s.stateAge p * ns
    let s := s.latchPort p
    let s := ((s.reverse p).passBy p).tryStart p
    let s := s.fetchDue p (s.flow p).left
    let s := s.placeLines p ta ((s.flow p).total - (s.flow p).schedM)
    (s.releaseRows p).sliceCheck p

/-- STATE_ARRIVAL. -/
def execStateArrival (t : Time) (port : Nat) (s : State) : Host.Outcome State Fault Refusal :=
  let s := s.at t
  done (s.onPort port fun s => s.stateArrival port)

/-- R226: the lines of port p that start on the latest tick j, and those whose tick came before their stages were
complete; at most n lines. -/
def State.tickLines (s : State) (p j : Nat) : Nat → State
  | 0 => s
  | n + 1 =>
    let g := p / 12
    let f := s.flow p
    match f.cur with
    | none => s
    | some pg =>
      let m := f.schedM
      let jm := s.tickOf p pg.start m
      if f.total ≤ m ∨ (j : Int) < jm then s
      else
        match f.lines.find? (fun l => l.m == m) with
        | none => (s.nextSched p).tickLines p j n
        | some l =>
          if l.lost.isSome then (s.nextSched p).tickLines p j n
          else if (s.port p).st = .hotHold then
            let s := s.stageTo p m (m + 1)
            (((s.fadd Reg.EN_HOLD_LINES_COUNT 1 p).modFlow p fun f =>
              { f with lines := f.lines.filter fun y => y.m ≠ m }).nextSched p).tickLines p j n
          else
            let t0 := s.tickTime g jm.toNat
            let s := s.stageTo p m (m + 1)
            let l := ((s.flow p).lines.find? (fun l => l.m == m)).getD l
            let s :=
              if s.inBoundary p (s.phaseStart p t0 0 : Rat) then s.loseAt p m .boundary
              else if jm < (j : Int) && pg.hasRow m then s.loseAt p m .underrun
              else if decide (jm < (j : Int)) || !s.linkMet p l t0 then s.loseAt p m .link
              else (s.ackDue p l t0).fireLine p l t0
            (s.nextSched p).tickLines p j n

/-- R153, R226: a tick at one port of the group. -/
def State.portTick (s : State) (j p : Nat) : State :=
  let s := ((s.latchPort p).passBy p).tryStart p
  let s := s.fetchDue p (s.flow p).left
  let s := s.tickLines p j ((s.flow p).total - (s.flow p).schedM)
  (s.releaseRows p).sliceCheck p

/-- R153: LINE_CLOCK_TICK: the next tick of the group's line clock. -/
def execLineClockTick (t : Time) (g : Nat) (s : State) : Host.Outcome State Fault Refusal :=
  let s := s.at t
  done (s.onIsland (9 + g) fun s =>
    if s.fixedPace g ∧ (s.clock g).2 ≠ 0 then
      let j := s.tickCount g
      let s := { s with ticks := Sparse.put (fun _ => 0) s.ticks g (j + 1) }
      s.forEach ((members g).filter (· < s.portCount)) fun s p => s.portTick j p
    else s)

/-- R219, R145: PLACEMENT_COMPARE: the compare fires the scheduled line: phase 0 starts at t0, 4.0 ns later. -/
def execPlacementCompare (t : Time) (port : Nat) (s : State) : Host.Outcome State Fault Refusal :=
  let s := s.at t
  done (s.onPort port fun s =>
    match (s.flow port).lines.find? (·.t0.isSome) with
    | some l => match l.t0 with
      | some t0 => if (s.port port).st = .printing then s.fireLine port l t0 else s
      | none => s
    | none => s)

/-- R153, R233: the first group grid instant plus OFS at or after x. -/
def State.gridAfter (s : State) (p x : Nat) : Time :=
  let g := p / 12
  let ofs := 250 * s.fget Reg.FT_SLOT_OFS p
  let per := ((s.clock g).2 : Rat) * 1000 / (2 ^ 32 : Nat)
  if per = 0 then x
  else
    let j := (((x : Rat) - ofs - (s.clock g).1) / per).floor.toNat - 1
    let cand := (List.range 4).flatMap fun i => (List.range 16).map fun k =>
      s.tickTime g (j + i) + 250 * k * (s.groupA g).grid + ofs
    match cand.filter (x ≤ ·) with
    | [] => x
    | a :: r => r.foldl min a

/-- R233: the start of phase k of a scan step with t0. -/
def State.stepPhase (s : State) (p t0 k : Nat) : Time :=
  let x := t0 + 250 * k * s.fget Reg.HL_SCAN_PITCH p
  if s.fixedPace (p / 12) then s.gridAfter p x else x

/-- R139, R143, R233: PHASE_START: the next phase of the scan step or of the line in progress. -/
def execPhaseStart (t : Time) (port k : Nat) (s : State) : Host.Outcome State Fault Refusal :=
  let s := s.at t
  done (s.onPort port fun s =>
    let f := s.flow port
    let h := (s.port port).health
    match h.stepT0, h.stepLine with
    | some t0, some l => if k < 16 then s.beginPhaseAt port k l (s.stepPhase port t0 k) else s
    | _, _ =>
    match f.firing with
    | some l => match l.t0 with
      | some t0 => if f.phase + 1 = k ∧ k < 16 then s.beginPhase port k l t0 else s
      | none => s
    | none => s)

/-- R148: STROBE_DELAYED_RISE: the next pulse held back by the credit count rises. -/
def execStrobeDelayedRise (t : Time) (port : Nat) (s : State) : Host.Outcome State Fault Refusal :=
  let s := s.at t
  done (s.onPort port fun s => s.modFlow port fun f => { f with delayed := f.delayed.tail })

/-- R143, R145, R374: the functional logic drives strobe x of port p high now: a pulse that has risen has not fallen, and no
latch holds it. -/
def State.strobeHigh (s : State) (p x : Nat) : Bool :=
  s.kps.portClear.contains p && !s.porst &&
  (s.flow p).pulses.any fun q =>
    q.strobe == x && !(s.flow p).delayed.contains x && decide (q.rise ≤ s.now ∧ s.now < q.fall)

/-- R156: the D0 byte of marker k: the phase number, NEWLINE and LSEQ[2:0]. -/
def markerByte (k lseq : Nat) : Byte := BitVec.ofNat 8 (k + (if k = 0 then 16 else 0) + lseq % 8 * 32)

/-- A phase marker: its phase, LSEQ of its line or scan step, and the earliest instant of its start (R156). -/
structure Marker where
  k : Nat
  lseq : Nat
  due : Time
  deriving DecidableEq, Repr

/-- R156: the start of marker 0 behind a LINE frame that ends at e: 50 ns after the s_15 of the line or step before it. -/
def State.marker0At (s : State) (p e : Nat) : Time :=
  let x := s.port p
  let last := match x.health.stepT0 with
    | some t0 => if x.flow.markFor = x.health.stepLseq then s.stepPhase p t0 15 else x.last15
    | none => x.last15
  if last = 0 then e else max e (last + 50 * ns)

/-- R156, R160: the next line whose LINE frame is out and whose marker 0 is still to come. -/
def Flow.markNext (f : Flow) : Option Line :=
  f.lines.find? fun l => l.sentAt.isSome && l.lost.isNone && f.markFor != some l.lseq

/-- R156, R188: marker 0 of the next line of port p; none in HOT_HOLD. -/
def State.lineMarker0 (s : State) (p : Nat) : Option Marker :=
  if (s.port p).st = .hotHold then none
  else (s.flow p).markNext.bind fun l => l.sentAt.map fun e => ⟨0, l.lseq, s.marker0At p e⟩

/-- R156, R188, R243: the next marker of port p. Markers 1 to 15 of a line or a step follow its marker 0 while it is in
progress, each 50 ns after the phase before; they wait until the line fires, and those of a line that is lost or held never
come. -/
def State.nextMarker (s : State) (p : Nat) : Option Marker :=
  let x := s.port p
  let f := x.flow
  match x.health.stepT0, x.health.stepLseq with
  | some t0, some q =>
    if f.markFor ≠ some q then some ⟨0, q, s.marker0At p (t0 - (s.setupNs p * 1000).ceil.toNat)⟩
    else if f.marked = 0 then s.lineMarker0 p
    else some ⟨f.marked, q, s.stepPhase p t0 (f.marked - 1) + 50 * ns⟩
  | _, _ =>
    match f.markFor, f.firing with
    | some q, some l =>
      if f.marked ≠ 0 ∧ l.lseq = q then
        l.t0.map fun t0 => ⟨f.marked, q, s.phaseStart p t0 (f.marked - 1) + 50 * ns⟩
      else if f.marked ≠ 0 ∧ f.lines.any (fun y => y.sentAt.isSome && y.lost.isNone && y.lseq == q) then none
      else s.lineMarker0 p
    | some q, none =>
      if f.marked ≠ 0 ∧ f.lines.any (fun y => y.sentAt.isSome && y.lost.isNone && y.lseq == q) then none
      else s.lineMarker0 p
    | none, _ => s.lineMarker0 p

/-- R156, R162, R188: PHASE_MARKER: a marker that is due takes two symbol times of the link, inside a frame or not. -/
def execPhaseMarker (t : Time) (port : Nat) (s : State) : Host.Outcome State Fault Refusal :=
  let s := s.at t
  done (s.onPort port fun s =>
    let x := s.port port
    match s.nextMarker port with
    | some m =>
      if !x.pwrEn || decide (s.now < m.due) then s
      else
        let e := x.linkFreeAt
        let e' := x.cutEnd s.now (max s.now e + s.symPs port 2)
        let b := markerByte m.k m.lseq
        s.modPort port fun x =>
          { x.coded ((s.now - e) / max 1 (s.symPs port 1)) [.phs, .data b] [.phs, .data (b ^^^ 0xFF)] with
                   linkFreeAt := e', marker := b
                   flow := { x.flow with
                     marked := (m.k + 1) % 16, markFor := some m.lseq
                     lines := x.flow.lines.map fun l =>
                       if l.sentAt = some e ∧ s.now < e then { l with sentAt := some e' } else l } }
    | none => s)

/-- R192: the length of a bin. -/
def State.binLen (s : State) (p : Nat) : Nat := max 64 (s.fget Reg.EN_OVD_WIN_WIN p) * 10 * ms / 64

/-- R192: OVD_BIN_BOUNDARY: one bin length after the boundary or the clearing before. -/
def execOvdBinBoundary (t : Time) (port : Nat) (s : State) : Host.Outcome State Fault Refusal :=
  let s := s.at t
  done (s.onPort port fun s =>
    let next := (s.port port).budget.binFrom + s.binLen port
    if s.now < next then s
    else
      (s.modPort port fun x =>
        { x with budget := { x.budget with bins := 0 :: x.budget.bins.take 63, binFrom := next } }).exhaust port)

/-- R193: GRACE_EXPIRY: GRACE has passed since the start of exhaustion. -/
def execGraceExpiry (t : Time) (port : Nat) (s : State) : Host.Outcome State Fault Refusal :=
  let s := s.at t
  done (s.onPort port fun s =>
    match (s.port port).budget.exhFrom with
    | some f =>
      if f + s.fget Reg.EN_GRACE_GRACE port * ms ≤ s.now then
        s.modPort port fun x => { x with budget := { x.budget with forcing := true } }
      else s
    | none => s)

/-- R197: CLR_CNT of the energy page. -/
def specEnClrCnt (p : Nat) : CmdSpec :=
  { eff := fun s =>
      ((((((s.fput Reg.EN_DROPS_A_COUNT 0 p).fput Reg.EN_DROPS_B_COUNT 0 p).fput Reg.EN_DROPS_C_COUNT 0 p).fput
        Reg.EN_DOWN_LINES_COUNT 0 p).fput Reg.EN_HOLD_LINES_COUNT 0 p).fput Reg.EN_ECC_CE_COUNT 0 p) }

/-- EN_CLR_CNT. -/
def execEnClrCnt (t : Time) (m : Master) (port : Nat) (s : State) : Host.Outcome State Fault Refusal :=
  let s := s.at t
  done (s.command m .en port 0x01 0 false (some (specEnClrCnt port)))

/-- R192: every bin is set to 0 and the bin timing restarts. -/
def State.clearBins (s : State) (p : Nat) : State :=
  s.modPort p fun x => { x with budget := { x.budget with bins := [], binFrom := s.now } }

/-- R197: BUDGET_RESET. -/
def specBudgetReset (s : State) (p : Nat) : CmdSpec :=
  { unlock := true, legal := (s.port p).st == .off || (s.port p).st == .service
    eff := fun s =>
      ((s.latch .en p).clearBins p).modPort p fun x =>
        { x with budget := { x.budget with exhFrom := none, forcing := false } } }

/-- BUDGET_RESET. -/
def execBudgetReset (t : Time) (m : Master) (port : Nat) (s : State) : Host.Outcome State Fault Refusal :=
  let s := s.at t
  done (s.command m .en port 0x02 0 false (some (specBudgetReset s port)))

end Sys2Proof.Machine
end

