-- ==== Sys2Proof/Machine/Seq.lean ====
section
/-! DEFINITION. The page sequencers and the port states (R37 to R48, R454 to R456): ARM, STOP, ABORT, the boundary
events, SERVICE, and the group plan's GRP_APPLY (R150). -/

namespace Sys2Proof.Machine

/-- R47: a port that ARM may arm. -/
def State.armable (s : State) (p : Nat) : Bool := (s.port p).st == .ready && s.enabledPort p

/-- R47, R438: ARM. -/
def specArm (s : State) : CmdSpec :=
  { legal := s.devState == .idle && s.portList.any s.armable && s.devOp != .limited
    eff := fun s =>
      let s := s.forEach s.portList fun s p => s.modPort p fun x => { x with begun := none }
      s.forEach (s.portList.filter s.mayLeaveIdle) fun s p => (s.enterFlow p none).startReached p }

/-- R402, R403: ARM needs the screening islands of the ports it arms. -/
def State.gatedArm (s : State) : Bool := !s.ul24 && s.portList.any fun p => s.armable p && s.gatedScreen (p / 12)

/-- ARM. A row that it fetches can stop its port (R123, R360). -/
def execArm (t : Time) (m : Master) (s : State) : Host.Outcome State Fault Refusal :=
  let s := s.at t
  done (s.command m .seq 0 0x01 0 s.gatedArm (some (specArm s))).serveStops

/-- R37: a STOP becomes pending: ARMED ports, and ports that wait at the end of their boundary, go IDLE at once. -/
def State.stopNow (s : State) : State :=
  let s := { s with stopPending := true }
  s.forEach (s.portList.filter fun p =>
    (s.port p).sq == .armed || ((s.port p).sq == .boundary && (s.flow p).seqDone)) fun s p => s.goIdle p

/-- R47: STOP. -/
def specStop (s : State) : CmdSpec := { legal := s.devState != .idle, eff := State.stopNow }

/-- STOP. -/
def execStop (t : Time) (m : Master) (s : State) : Host.Outcome State Fault Refusal :=
  let s := s.at t
  done (s.command m .seq 0 0x02 0 false (some (specStop s)))

/-- The end of the line or the scan step in progress at port p: the end of its last window (R139, R149, R233). -/
def State.lineEnd (s : State) (p : Nat) : Time :=
  let line := match (s.flow p).lastT0 with
    | some t0 => s.phaseStart p t0 15 + 250 * s.fget Reg.FT_SLOT_WIN p
    | none => 0
  match (s.port p).health.stepT0 with
  | some t0 => max line (s.stepEnd p t0)
  | none => line

/-- R163: a port leaves its page flow in mid-line: a frame in progress when that line completes, at e, ends with ABT. -/
def Port.cutFrom (x : Port) (e : Time) (sym : Nat) : Port :=
  let gone (k : Nat) : List LinkSym :=
    let l := laneOf x.sent k
    if e < x.linkFreeAt then l.drop (l.length - (x.linkFreeAt - e) / max 1 sym) ++ [.abt] else []
  { x.coded 0 (gone 0) (gone 1) with
    cutAt := e, linkFreeAt := min x.linkFreeAt e, abt := x.abt || decide (e < x.linkFreeAt) }

/-- R37, R98, R163, R225: ABORT at a PRINTING port: the lines not yet at stage 4 are skipped, lost with cause STOPPED, and
the page is defective. -/
def State.abortPort (s : State) (p : Nat) : State :=
  let s := if (s.flow p).firing.isSome && decide (s.now < s.lineEnd p) then s.modPort p fun x => x.cutFrom (s.lineEnd p) (s.symPs p 1) else s
  let f := s.flow p
  let gone := (f.total - f.sendM) - (f.lines.filter fun l => l.lost.isSome && decide (f.sendM ≤ l.m)).length
  let s := (s.loseLines p .stopped gone).markDefect p
  let s := s.modPort p fun x =>
    { x with sq := .draining, flow := { x.flow with
      total := f.sendM, fetchM := f.sendM, stageM := f.sendM, lines := x.flow.lines.filter fun l => decide (l.m < f.sendM) } }
  let s := match f.cur with
    | some c => s.setRing p ((s.ring p).discardTo c.page c.page)
    | none => s
  s.releaseRows p

/-- R47: ABORT. -/
def specAbort (s : State) : CmdSpec :=
  { legal := s.devState != .idle
    eff := fun s =>
      (s.forEach (s.portList.filter fun p => (s.port p).sq == .printing) State.abortPort).stopNow }

/-- ABORT. -/
def execAbort (t : Time) (m : Master) (s : State) : Host.Outcome State Fault Refusal :=
  let s := s.at t
  done (s.command m .seq 0 0x03 0 false (some (specAbort s)))

/-- Every line of the page has been fired, lost or held (R37: the end of the last line's period can come). -/
def Flow.ended (f : Flow) : Bool := decide (f.total ≤ f.schedM) && f.lines.all fun l => l.t0.isNone

/-- R40: BOUNDARY_ENTRY: the last line's period ends. -/
def execBoundaryEntry (t : Time) (port : Nat) (s : State) : Host.Outcome State Fault Refusal :=
  let s := s.at t
  done (s.onPort port fun s =>
    if (s.port port).sq = .draining ∧ (s.flow port).ended then s.enterBoundary port else s)

/-- R48, R162, R163, R173, R441, R456: port p enters SERVICE: the link goes to IDLE, and a PARAM section that waits is taken.
A frame in progress ends with ABT where the port leaves its page flow in mid-line. -/
def State.serviceLand (s : State) (p : Nat) (midLine : Bool) : State :=
  let s := s.leaveFlow p
  let s := s.when midLine fun s => s.modPort p fun x => x.cutFrom s.now (s.symPs p 1)
  ((s.modPort p fun x => { x with st := .service }).unlink p).paramsLand p

/-- R47: SEQ_BND_LAST. -/
def State.noteBoundary (s : State) (p : Nat) : State :=
  (s.fput Reg.SEQ_BND_LAST_PORT p).fput Reg.SEQ_BND_LAST_DUR (min ((s.now - (s.flow p).boundaryFrom) / 100000) 65535)

/-- R40 B7, R43, R240: management firmware grants a health-scan slice to a WAITING, PRINTING port with GAP_EN. None is
granted while the management cluster reboots (R453). -/
def State.grantSlice (s : State) (p : Nat) : State :=
  let x := s.port p
  if x.st = .printing ∧ x.health.st = .waiting ∧ s.fbit Reg.HL_CTL_GAP_EN p ∧ s.devOp ≠ .boot then
    match s.sliceClose p with
    | some c =>
      if s.now < c then s.setPort p { x with health := { x.health with
        st := .stepping, sliceClose := some c, sliceSteps := 0 } }
      else s
    | none => s
  else s

/-- R37, R99: BOUNDARY_COMPLETE: steps B1 to B6 have ended. -/
def State.boundaryComplete (s : State) (p : Nat) : State :=
  if (s.port p).sq = .boundary ∧ (s.flow p).boundaryEnd.isNone then
    let s := (s.noteBoundary p).modFlow p fun f => { f with boundaryEnd := some s.now }
    if (s.port p).svcPend = .boundary then s.serviceLand p false else (s.exitBoundary p).grantSlice p
  else s

/-- BOUNDARY_COMPLETE. -/
def execBoundaryComplete (t : Time) (port : Nat) (s : State) : Host.Outcome State Fault Refusal :=
  let s := s.at t
  done (s.onPort port fun s => s.boundaryComplete port)

/-- R374, R383: port p's latch clears, and the port enters SERVICE with PWR_EN low. -/
def State.serviceFromLatch (s : State) (p : Nat) : State :=
  let s := { s with kps := { s.kps with portClear := insertNat p s.kps.portClear } }
  ((s.modPort p fun x => { x with st := .service, svcPend := .none }).unlink p).paramsLand p

/-- R48, R376, R456: the effect of SVC_ENTER in each port state; a port that leaves OFF under Device Safe enters SAFE. -/
def State.svcEnter (s : State) (p : Nat) (now : Bool) : State :=
  match (s.port p).st with
  | .off => if s.kps.dsafe then s.modPort p fun x => { x with st := .safe } else s.serviceFromLatch p
  | .safe => s.serviceFromLatch p
  | .standby | .ready | .hotHold => s.serviceLand p false
  | .printing =>
    if now then s.modPort p fun x => { x with svcPend := .afterLine }
    else if (s.port p).svcPend = .none then s.modPort p fun x => { x with svcPend := .boundary } else s
  | .service => s

/-- R48, R374, R382, R441: SVC_ENTER. -/
def specSvcEnter (s : State) (p arg : Nat) : CmdSpec :=
  { legal := match (s.port p).st with
      | .off => s.kps.portClear.contains p || s.portAcked p
      | .safe => s.portAcked p && !(s.port p).recipeLoad
      | .service => false
      | .standby | .ready | .printing | .hotHold => true
    eff := fun s => s.svcEnter p (arg.testBit 0) }

/-- PORT_SVC_ENTER. -/
def execPortSvcEnter (t : Time) (m : Master) (port arg : Nat) (s : State) : Host.Outcome State Fault Refusal :=
  let s := s.at t
  done (s.command m .ft port 0x10 arg (s.gatedFire (port / 12)) (some (specSvcEnter s port arg)))

/-- R456: SERVICE_ENTRY_LAND: the deferred SVC_ENTER lands, at the boundary or once the current line is complete. -/
def execServiceEntryLand (t : Time) (port : Nat) (s : State) : Host.Outcome State Fault Refusal :=
  let s := s.at t
  done (s.onPort port fun s =>
    let x := s.port port
    let due := match x.svcPend with
      | .none => false
      | .boundary => x.sq == .boundary
      | .afterLine => decide (s.lineEnd port ≤ s.now)
    if x.inFlow && due then s.serviceLand port (x.svcPend == .afterLine) else s)

/-- R48, R154, R173, R176: SVC_POWER. -/
def specSvcPower (s : State) (p arg : Nat) : CmdSpec :=
  { legal := (s.port p).st == .service
    eff := fun s =>
      if arg.testBit 0 then
        if (s.port p).pwrEn then s
        else
          ((s.modPort p fun x => { x with pwrEn := true, link := .idle, linkFreeAt := s.now, disp := (false, false) }).fput
            Reg.LK_STAT_IDENT_OK 0 p)
      else (s.modPort p fun x => { x with pwrEn := false }).unlink p }

/-- SVC_POWER. -/
def execSvcPower (t : Time) (m : Master) (port arg : Nat) (s : State) : Host.Outcome State Fault Refusal :=
  let s := s.at t
  done (s.command m .ft port 0x14 arg (s.gatedFire (port / 12)) (some (specSvcPower s port arg)))

/-- R164: the CONFIG frame of port p. -/
def State.configFrame (s : State) (p : Nat) : LinkFrame :=
  .config (bitOf (s.trimming p) + 2 * bitOf s.ul24) (s.fget Reg.FT_PITCH_PITCH p) (s.fget Reg.FT_PITCH_GUARD p / 2) (s.dies p)
    (s.ordList p)

/-- R157, R164, R173, R186: the device sends CONFIG: its CFG_ACK is awaited from the frame's end on (log 146), and the present
dies are those that it names. -/
def State.sendConfig (s : State) (p : Nat) : State :=
  (s.sendFrames p [s.configFrame p]).modPort p fun x =>
    { x with link := .config, configAt := some x.linkFreeAt, cfgDies := s.dies p }

/-- R48, R152, R173, R438, R441: SVC_LEAVE. -/
def specPortSvcLeave (s : State) (p : Nat) : CmdSpec :=
  { legal := (s.port p).st == .service && s.devOp != .limited && !(s.port p).recipeLoad
    cond := s.fbit Reg.LK_STAT_IDENT_OK p && (s.port p).link != .down && s.fits p
    eff := fun s => ((s.modPort p fun x => { x with st := .standby }).unlink p).sendConfig p }

/-- PORT_SVC_LEAVE. -/
def execPortSvcLeave (t : Time) (m : Master) (port : Nat) (s : State) : Host.Outcome State Fault Refusal :=
  let s := s.at t
  done (s.command m .ft port 0x11 0 (s.gatedFire (port / 12)) (some (specPortSvcLeave s port)))

/-- R48: port p enters OFF: PWR_EN low, the link idle, the scan STOPPED. -/
def State.portOff (s : State) (p : Nat) : State :=
  (s.portDark p .off).modPort p fun x =>
    { x with health := { x.health with st := .stopped, svc := false, stopReq := false } }

/-- R48: OFF. -/
def specPortOff (s : State) (p : Nat) : CmdSpec :=
  { legal := (s.port p).st == .service || (s.port p).st == .standby || (s.port p).st == .ready
    eff := fun s => s.portOff p }

/-- PORT_OFF. -/
def execPortOff (t : Time) (m : Master) (port : Nat) (s : State) : Host.Outcome State Fault Refusal :=
  let s := s.at t
  done (s.command m .ft port 0x13 0 (s.gatedFire (port / 12)) (some (specPortOff s port)))

/-- R48, R173, R187: READY. -/
def specReady (s : State) (p : Nat) : CmdSpec :=
  { legal := (s.port p).st == .standby && (s.port p).statusSeen && (s.port p).hotDies == 0
    eff := fun s => (s.modPort p fun x => { x with st := .ready }).tryJoin p }

/-- READY. -/
def execReady (t : Time) (m : Master) (port : Nat) (s : State) : Host.Outcome State Fault Refusal :=
  let s := s.at t
  done (s.command m .ft port 0x12 0 (s.gatedFire (port / 12)) (some (specReady s port)))

/-- R175, R230: the page offsets of the group registers that are written through a pending copy. -/
def groupOffsets : List Nat :=
  [0x100, 0x104, 0x108, 0x10C, 0x110, 0x2C0, 0x2C4, 0x2C8, 0x2CC, 0x2D0, 0x2D4, 0x2D8]

/-- R147, R153, R230: the pending group values are usable. -/
def State.groupUsable (s : State) (g : Nat) : Bool :=
  let c := s.groupP g
  (!c.fixed || c.int != 0) && decide (1 ≤ c.maxActive) && decide (c.maxActive ≤ 36) &&
  decide (s.fget Reg.PL_GRP_REF_REF (12 * g) ≤ 95) &&
  s.wide Reg.PL_GRP_PITCH_LO_PITCH Reg.PL_GRP_PITCH_HI_PITCH (12 * g) != 0

/-- R150: the pending plan is valid, and every member in STANDBY, READY or HOT_HOLD still fits its slot. -/
def State.planFits (s : State) (g : Nat) : Bool :=
  planOk (s.groupP g) (s.slots g) &&
  ((members g).filter (· < s.portCount)).all fun p =>
    !((s.port p).st == .standby || (s.port p).st == .ready || (s.port p).st == .hotHold) || s.fitBits p (s.groupP g) == 0

/-- R212: S of port p becomes unknown; a lost S stays lost. What the reader holds belongs to pages passed. -/
def State.forgetS (s : State) (p : Nat) : State :=
  let r := s.ring p
  if r.met.isNone then s
  else (s.setRing p { r with met := none, pages := [], bands := r.bands.map fun b => { b with discard := true } }).releaseRows p

/-- R150, R153, R175, R212: GRP_APPLY takes effect in group g. -/
def State.groupApply (s : State) (g : Nat) : State :=
  let s := s.forEach ((members g).filter (· < s.portCount)) fun s p => s.latch .ft p
  let same (off : Nat) : Bool := s.word (regAddr .ft (12 * g) off) == s.aword (regAddr .ft (12 * g) off)
  let moved := !(same 0x2CC && same 0x2D0 && same 0x2D8)
  let s := s.forEach groupOffsets fun s off =>
    s.setAword (regAddr .ft (12 * g) off) (s.word (regAddr .ft (12 * g) off))
  let c := s.groupA g
  let clk : Time × Nat := if c.fixed then (s.now + us, c.int * 2 ^ 32 + c.frac) else (0, 0)
  let s := { s with clocks := Sparse.put (fun _ => (0, 0)) s.clocks g clk, ticks := Sparse.put (fun _ => 0) s.ticks g 0 }
  s.when moved fun s => s.forEach ((members g).filter (· < s.portCount)) fun s p => s.forgetS p

/-- R150, R175: GRP_APPLY. -/
def specGrpApply (s : State) (p : Nat) : CmdSpec :=
  { argOk := p % 12 == 0
    legal := (members (p / 12)).all fun q => (s.port q).sq == .idle
    cond := s.groupUsable (p / 12) && s.planFits (p / 12)
    eff := fun s => s.groupApply (p / 12) }

/-- GRP_APPLY. -/
def execGrpApply (t : Time) (m : Master) (port : Nat) (s : State) : Host.Outcome State Fault Refusal :=
  let s := s.at t
  done (s.command m .ft port 0x20 0 (s.gatedFire (port / 12)) (some (specGrpApply s port)))

end Sys2Proof.Machine
end

