-- ==== Sys2Proof/Machine/Link.lean ====
section
/-! DEFINITION. The fire link and the return lane (R154 to R173, R176, R185 to R190): bring-up, trims, ACK, STATUS. -/

namespace Sys2Proof.Machine

/-- R165, R166: TRIM_FRAME_SEND: an immediate block goes to both banks, with the active values; else the lowest run of
pending blocks, at most 64, goes to the inactive bank, with the shadow values. R162: on a free link, a background frame
behind every LINE frame. R123: entries that cannot be corrected go as 32, and act as the NAT failure they are.
R122: an immediate block waits behind lines that were screened with the old entry. -/
def State.trimFrameSend (s : State) (p : Nat) : State :=
  if !s.trimOn p || !s.linkFree p then s
  else
    let x := s.port p
    match x.trimImm with
    | k :: rest =>
      if s.immHeld p then s
      else
      let s := s.modPort p fun x =>
        { (x.sendBlock 0 k (s.blockA p k)).sendBlock 1 k (s.blockA p k) with trimImm := rest }
      (s.sendFrames p [.trim 0 true (16 * k) 16 (s.blockA p k)]).readNat p (blockNozzles k)
    | [] =>
      if s.lineReady p then s
      else match runOf 64 x.trimPend with
      | [] => s
      | ks =>
        let s := s.forEach ks fun s k => s.modPort p fun x => x.sendBlock (1 - x.bank) k (s.blockS p k)
        ((s.modPort p fun x => { x with trimPend := x.trimPend.drop ks.length }).sendFrames p
          [.trim (1 - x.bank) false (16 * ks.headD 0) (16 * ks.length) (ks.flatMap (s.blockS p))]).readNatS p
          (ks.flatMap blockNozzles)

/-- TRIM_FRAME_SEND. -/
def execTrimFrameSend (t : Time) (port : Nat) (s : State) : Host.Outcome State Fault Refusal :=
  let s := s.at t
  done (s.onPort port fun s => s.trimFrameSend port)

/-- R173, R176: ID_REQ: the frame takes 8 symbol times. -/
def specIdReq (s : State) (p : Nat) : CmdSpec :=
  { legal := (s.port p).link == .idle || (s.port p).link == .ident
    eff := fun s => (s.sendFrames p [.idReq]).modPort p fun x => { x with identReqAt := some x.linkFreeAt } }

/-- ID_REQ. -/
def execIdReq (t : Time) (m : Master) (port : Nat) (s : State) : Host.Outcome State Fault Refusal :=
  let s := s.at t
  done (s.command m .lk port 0x01 0 (s.gatedFire (port / 12)) (some (specIdReq s port)))

/-- R176: CLR_CNT. -/
def specLkClrCnt (p : Nat) : CmdSpec :=
  { eff := fun s =>
      (((s.fput Reg.LK_NACK_COUNT 0 p).fput Reg.LK_ACK_MISS_COUNT 0 p).fput Reg.LK_RT_ERR_COUNT 0 p).fput
        Reg.LK_LINK_LOST_COUNT 0 p }

/-- LK_CLR_CNT. -/
def execLkClrCnt (t : Time) (m : Master) (port : Nat) (s : State) : Host.Outcome State Fault Refusal :=
  let s := s.at t
  done (s.command m .lk port 0x02 0 false (some (specLkClrCnt port)))

/-- R168: something arrives on the return lane of a port whose head is powered. -/
def State.onLane (s : State) (p : Nat) (f : State → State) : State :=
  s.onPort p fun s => if (s.port p).pwrEn then f s else s

/-- R235: the ACK of the scan step in progress, OK or not; what has come first stands. -/
def State.stepAnswer (s : State) (p : Nat) (ok : Bool) : State :=
  s.modPort p fun x => { x with health := { x.health with stepAck := some (x.health.stepAck.getD true && ok) } }

/-- R232: the die of the primitive that the present step fires. -/
def State.stepDie (s : State) (p : Nat) : Nat := (s.port p).health.cursor / 192

/-- R169, R170, R235: ACK_FRAME. `result` is the frame's RESULT byte: a step is affected where the block of its own die
failed. -/
def State.ackFrame (s : State) (p lseq result : Nat) : State :=
  let x := s.port p
  let s := s.when (x.health.stepLseq == some lseq) fun s => s.stepAnswer p (!result.testBit (4 + s.stepDie p))
  let x := s.port p
  let s := if x.ackWait.any fun e => e.1 == lseq then
      s.setPort p { x with ackWait := x.ackWait.filter (fun e => e.1 ≠ lseq), ackMissRun := 0 }
    else s
  if result / 16 % 16 = 0 then s
  else
    let s := (s.fadd Reg.LK_NACK_COUNT 1 p).raise Reg.LK_CAUSE_NACK p
    if x.health.stepFrames.contains lseq then s else s.markDefect p

/-- ACK_FRAME. -/
def execAckFrame (t : Time) (port lseq result : Nat) (s : State) : Host.Outcome State Fault Refusal :=
  let s := s.at t
  done (s.pins fun s => s.onLane port fun s => s.ackFrame port lseq result)

/-- R170: ACK_MISS_MAX, 0 taken as 1. -/
def State.ackMissMax (s : State) (p : Nat) : Nat := max 1 (s.fget Reg.LK_RT_ACK_MISS_MAX p)

/-- R170: an ACK is missing: the counts, the cause, and at the end of each run of ACK_MISS_MAX the message. -/
def State.ackMissing (s : State) (p : Nat) : State :=
  let run := (s.port p).ackMissRun + 1
  let full := decide (s.ackMissMax p ≤ run)
  let s := s.modPort p fun x => { x with ackMissRun := if full then 0 else run }
  let s := (s.fadd Reg.LK_ACK_MISS_COUNT 1 p).raise Reg.LK_CAUSE_ACK_MISS p
  if full then s.send 1 p kindLink 2 0 else s

/-- R170: ACK_DEADLINE: the oldest ACK whose deadline has come is missing. -/
def State.ackDeadline (s : State) (p : Nat) : State :=
  let x := s.port p
  match x.ackWait.find? (fun e => match e.2 with | some d => decide (d ≤ s.now) | none => false) with
  | none => s
  | some e =>
    let s := s.setPort p { x with ackWait := x.ackWait.filter (fun y => y.1 ≠ e.1) }
    (s.when (x.health.stepLseq == some e.1) fun s => s.stepAnswer p false).ackMissing p

/-- ACK_DEADLINE. -/
def execAckDeadline (t : Time) (port : Nat) (s : State) : Host.Outcome State Fault Refusal :=
  let s := s.at t
  done (s.onPort port fun s => s.ackDeadline port)

/-- R172: the severity of each HFLAGS bit. -/
def flagSev (b : Nat) : Nat := if b = 0 then 1 else if b = 1 ∨ b = 2 ∨ b = 3 ∨ b = 5 then 2 else 0

/-- R172: HFLAGS bits that rise. -/
def State.headFlags (s : State) (p old new : Nat) : State :=
  s.forEach ((List.range 16).filter fun b => new.testBit b && !old.testBit b) fun s b =>
    (s.raise Reg.LK_CAUSE_HEAD_FAULT p).send 1 p kindHeadFlag (flagSev b) b

/-- R185: TB_k of port p, active. -/
def State.tb (s : State) (p k : Nat) : Int :=
  signed 16 (if k % 2 = 0 then s.aget Reg.EN_TB_EVEN p (k / 2) else s.aget Reg.EN_TB_ODD p (k / 2))

/-- R185: the band bits of one die at temperature T. -/
def State.bandBits (s : State) (p old : Nat) (T : Int) : Nat :=
  let hyst : Int := s.aget Reg.EN_HYST_HYST p
  maskOf ((List.range 16).filter fun k =>
    decide (0 < k) && (decide (s.tb p k ≤ T) || (old.testBit k && !decide (T < s.tb p k - hyst))))

/-- R187: the effective HOT limit. -/
def State.hotLimit (s : State) (p : Nat) : Int :=
  min (signed 16 (s.fget Reg.EN_HOT_HOT p)) (signed 16 (s.fget Reg.EN_CRIT_CRIT p))

/-- R187: the effective RESUME limit. -/
def State.resumeLimit (s : State) (p : Nat) : Int := min (signed 16 (s.fget Reg.EN_HOT_RESUME p)) (s.hotLimit p - 1)

/-- R185 to R187: the temperatures of a valid STATUS, of the dies that CONFIG named. -/
def State.statusTemps (s : State) (p : Nat) (ts : List Int) : State :=
  let ds := (s.port p).cfgDies
  let which (f : Int → Bool) : Nat := maskOf (ds.filter fun d => f (ts.getD d 0))
  s.modPort p fun x =>
    { x with
      bandBits := (List.range 4).map fun d =>
        if ds.contains d then s.bandBits p (x.bandBits.getD d 0) (ts.getD d 0) else x.bandBits.getD d 0
      hotDies := which fun T => decide (s.hotLimit p ≤ T)
      critDies := which fun T => decide (signed 16 (s.fget Reg.EN_CRIT_CRIT p) ≤ T)
      resDies := which fun T => decide (T < s.resumeLimit p)
      coldDies := which fun T => decide (T < s.tb p 0) }

/-- R171, R172, R185 to R190: STATUS_FRAME. DESIGN CHOICE (log 145): of several dies at or above CRIT the detail of HEAD_CRIT
holds the lowest. -/
def State.statusFrame (s : State) (p sseq hflags : Nat) (ts : List Int) : State :=
  let wasHot := (s.port p).hotDies != 0
  let wasCrit := (s.port p).critDies != 0
  let s := (s.latch .en p).latch .lk p
  let half (T : Int) : Nat := unsign 16 T
  let s := (s.fput Reg.LK_TEMP01_TEMP0 (half (ts.getD 0 0)) p).fput Reg.LK_TEMP01_TEMP1 (half (ts.getD 1 0)) p
  let s := (s.fput Reg.LK_TEMP23_TEMP2 (half (ts.getD 2 0)) p).fput Reg.LK_TEMP23_TEMP3 (half (ts.getD 3 0)) p
  let old := s.fget Reg.LK_HFLAGS_HFLAGS p
  let s := (s.fput Reg.LK_HFLAGS_HFLAGS hflags p).fput Reg.LK_HFLAGS_SSEQ sseq p
  let s := s.headFlags p old hflags
  let s := s.modPort p fun x =>
    { x with statusAt := s.now, statusLast := some s.now, statusSeen := x.statusSeen || x.link == .run
             statusSinceHold := true, rtLossNow := false }
  let s := s.statusTemps p ts
  let x := s.port p
  if x.critDies != 0 && !wasCrit && x.st != .off then
    ((s.latch .en p).send 1 p kindHeadCrit 2 (lowBit x.critDies)).stopPort p
  else if x.hotDies != 0 && !wasHot && x.st == .printing then s.enterHotHold p (lowBit x.hotDies)
  else s

/-- STATUS_FRAME. -/
def execStatusFrame (t : Time) (port sseq hflags : Nat) (t0 t1 t2 t3 : Int) (s : State) :
    Host.Outcome State Fault Refusal :=
  let s := s.at t
  done (s.pins fun s => s.onLane port fun s => s.statusFrame port sseq hflags [t0, t1, t2, t3])

/-- R173: IDENT_FRAME: an IDENT that answers an ID_REQ within 1 ms. -/
def State.identFrame (s : State) (p : Nat) (id : Ident) : State :=
  let x := s.port p
  let asked := match x.identReqAt with | some r => decide (s.now ≤ r + ms) | none => false
  if !asked || !(x.link == .idle || x.link == .ident) then s
  else
    let who := (id.vendor, id.cls, id.serial)
    let s := s.latchPort p
    let s := s.when (x.identSeen.isSome && x.identSeen != some who) fun s => s.raise Reg.LK_CAUSE_ID_CHANGE p
    let s := s.setPort p { x with link := .ident, identSeen := some who, identReqAt := none }
    let s := s.fput Reg.LK_STAT_IDENT_OK 1 p
    let s := ((s.fput Reg.LK_ID0_CLASS id.cls p).fput Reg.LK_ID0_VENDOR id.vendor p).fput Reg.LK_ID1_SERIAL id.serial p
    let s := ((s.fput Reg.LK_ID2_NOZZLES id.nozzles p).fput Reg.LK_ID2_DIES id.dies p).fput Reg.LK_ID2_VER id.ver p
    let s := (s.fput Reg.LK_ID3_PPMIN id.ppmin p).fput Reg.LK_ID3_WMAX id.wmax p
    (s.fput Reg.LK_ID4_RATEMAX id.rateMax p).fput Reg.LK_ID4_SETUP id.setup p

/-- IDENT_FRAME. -/
def execIdentFrame (t : Time) (port : Nat) (id : Ident) (s : State) : Host.Outcome State Fault Refusal :=
  let s := s.at t
  done (s.pins fun s => s.onLane port fun s => s.identFrame port id)

/-- R123, R166, R173 step 4: the initial trims (12 frames) and START go out, and the link goes to RUN. -/
def State.sendStart (s : State) (p : Nat) : State :=
  let s := s.initialTrims p
  let trims : List LinkFrame := if s.trimming p then
      (List.range 12).map fun i => .trim 0 true (1024 * i) 1024 ((List.range 64).flatMap fun k => s.blockA p (64 * i + k))
    else []
  let s := s.sendFrames p (trims ++ [.start 0])
  let s := s.modPort p fun x => { x with link := .run, statusAt := x.linkFreeAt }
  let s := s.when (s.trimming p) fun s => s.readNat p (List.range 12288)
  s.fput Reg.LK_STAT_STARTED 1 p

/-- R173 step 4: CFG_ACK_FRAME. -/
def State.cfgAckFrame (s : State) (p result : Nat) : State :=
  let x := { s.port p with configAt := none }
  if x.link ≠ .config ∨ s.fbit Reg.LK_STAT_CFG_OK p then s
  else if result = 0 then
    ((s.setPort p { x with cfgTries := 0 }).fput Reg.LK_STAT_CFG_OK 1 p).sendStart p
  else (s.setPort p x).raise Reg.LK_CAUSE_CFG_REJ p

/-- CFG_ACK_FRAME. -/
def execCfgAckFrame (t : Time) (port result : Nat) (s : State) : Host.Outcome State Fault Refusal :=
  let s := s.at t
  done (s.pins fun s => s.onLane port fun s => s.cfgAckFrame port result)

/-- R173 step 4: a CFG_ACK is awaited, and 1 ms has passed since CONFIG. -/
def State.cfgLate (s : State) (p : Nat) : Bool :=
  match (s.port p).configAt with
  | some c => decide ((s.port p).link = .config ∧ c + ms ≤ s.now)
  | none => false

/-- R173 step 4: CFG_ACK_TIMEOUT: CONFIG is resent up to three times, then CFG_REJ is set. -/
def State.cfgAckTimeout (s : State) (p : Nat) : State :=
  let x := s.port p
  if !s.cfgLate p then s
  else if x.cfgTries < 3 then (s.setPort p { x with cfgTries := x.cfgTries + 1 }).sendConfig p
  else (s.setPort p { x with configAt := none }).raise Reg.LK_CAUSE_CFG_REJ p

/-- CFG_ACK_TIMEOUT. -/
def execCfgAckTimeout (t : Time) (port : Nat) (s : State) : Host.Outcome State Fault Refusal :=
  let s := s.at t
  done (s.onPort port fun s => s.cfgAckTimeout port)

/-- R168: RT_FRAME_ERROR. -/
def execRtFrameError (t : Time) (port : Nat) (s : State) : Host.Outcome State Fault Refusal :=
  let s := s.at t
  done (s.pins fun s => s.onLane port fun s => (s.fadd Reg.LK_RT_ERR_COUNT 1 port).raise Reg.LK_CAUSE_RT_ERR port)

/-- R171: LK_RT.TIMEOUT in microseconds, held in the range 50 to 750. -/
def State.rtTimeout (s : State) (p : Nat) : Nat := min 750 (max 50 (s.fget Reg.LK_RT_TIMEOUT p))

/-- R171, R378: RT_LOSS: no valid STATUS within TIMEOUT, in STANDBY, READY, PRINTING or HOT_HOLD once START is sent. -/
def State.rtLoss (s : State) (p : Nat) : State :=
  let x := s.port p
  let checked := x.st == .standby || x.st == .ready || x.inFlow
  if x.link = .run ∧ checked ∧ x.statusAt + s.rtTimeout p * us ≤ s.now ∧ x.rtLossNow = false then
    (((s.setPort p { x with rtLossNow := true }).latch .lk p).send 1 p kindRtLoss 2 0).stopPort p
  else s

/-- RT_LOSS. -/
def execRtLoss (t : Time) (port : Nat) (s : State) : Host.Outcome State Fault Refusal :=
  let s := s.at t
  done (s.onPort port fun s => s.rtLoss port)

end Sys2Proof.Machine
end

