-- ==== Sys2Proof/Machine/Tables.lean ====
section
/-! DEFINITION. The tables of the data regions (R120, R126, R183, R262, R277) and a port's shadow transfer on request
(R73 to R75, R122): writes, the NOW request, accesses that wait for a transfer, and the SCR commands. -/

namespace Sys2Proof.Machine

/-- R75: BUSY of port p. -/
def State.busy (s : State) (p : Nat) : Bool := (s.port p).busyNow || decide (s.now < (s.port p).b4Until)

/-- R120, R166 rule 2: a shadow NAT write. -/
def State.putNat (s : State) (p j : Nat) (v : Word) : State :=
  let s := s.when (natWscale (s.natS p j) != natWscale v) fun s => s.markBlock p (j / 16)
  (s.setNatS p j v).setDirty p

/-- R183, R195: a shadow width or HIST_MAP write; reserved words and bits ignore it. -/
def State.putWidth (s : State) (p k : Nat) (v : Word) : State :=
  if 97 ≤ k then s
  else if k = 96 then (if s.ul24 then s else (s.setWidthS p k (v &&& 0xFFFF)).setDirty p)
  else (s.setWidthS p k v).setDirty p

/-- The port whose shadowed content a page offset holds (R73). -/
def shadowOwner (pg : Page) (inst off : Nat) : Nat :=
  if pg = .scr then 12 * inst + (off - 0x100) / 0x40 else inst

/-- R195: what a shadowed register takes from a written word in the profile. -/
def State.shadowWord (s : State) (a : Nat) (p : Nat) (v : Word) : Word :=
  if s.ul24 ∧ a = Reg.EN_CTL_HIST_EN.addr p then Reg.EN_CTL_HIST_EN.set v 0 else v

/-- R58, R73: a shadowed register takes a written word: its port is DIRTY. The upper half of MOUNT takes a held lower
half with it; the access has waited until now where R75 stalls it. -/
def State.putShadowReg (s : State) (m : Master) (a : Nat) (v : Word) : State :=
  match locate a with
  | none => s
  | some (pg, inst, off) =>
    let p := shadowOwner pg inst off
    let lo := Reg.PL_MOUNT_LO_MOUNT.addr p
    let s := if a = Reg.PL_MOUNT_HI_MOUNT.addr p then
        match s.heldAt m lo with
        | some w => (s.setWord lo w).unhold m lo
        | none => s
      else s
    (s.writeReg pg inst off (s.shadowWord a p v) true none).setDirty p

/-- R122: lines of the page in progress that have been screened but not sent used another value of the entry, in other fields
than WSCALE: the new WSCALE waits behind them. -/
def State.holdImm (s : State) (p : Nat) (old new : Word) : State :=
  match (s.flow p).cur with
  | some c => s.when (old &&& 0xF03F3FFF != new &&& 0xF03F3FFF && decide ((s.flow p).sendM < (s.flow p).fetchM)) fun s =>
      s.modPort p fun x => { x with immHold := some (c.page, x.flow.fetchM) }
  | none => s

/-- R42, R122, R166 rule 5: NAT_IMM takes effect on entry j of port p. -/
def State.putImm (s : State) (p j : Nat) (v : Word) : State :=
  let old := s.natA p j
  let changes := natWscale (s.natA p j) != natWscale v || natWscale (s.natS p j) != natWscale v
  let s := (s.setNatS p j v).setNatA p j v
  s.when (changes && s.trimOn p) fun s =>
    let k := j / 16
    let s := (s.holdImm p old v).modPort p fun x => { x with trimImm := insertNat k x.trimImm }
    s.when (s.blockS p k != s.blockA p k) fun s => s.markBlock p k

/-- R119: an entry with another HEALTH. -/
def natSetHealth (w : Word) (h : Nat) : Word := (w &&& 0x3FFFFFFF) ||| BitVec.ofNat 32 (h % 4 * 2 ^ 30)

/-- R247, R248: an automatic change of HEALTH: in both copies, each keeping its other fields, or in the shadow copy only. An
entry that cannot be read is the NAT failure of R123, and stays as it is. -/
def State.putHealth (s : State) (p j h : Nat) (imm : Bool) : State :=
  let bad := s.natUeS p j || (imm && s.natUe p j)
  let s := (s.readNatS p [j]).when imm fun s => s.readNat p [j]
  if bad then s
  else
    let s := s.setNatS p j (natSetHealth (s.natS p j) h)
    if imm then s.setNatA p j (natSetHealth (s.natA p j) h) else s.setDirty p

/-- R75: accesses to port p's shadowed content wait: BUSY is 1, or earlier ones have not completed yet. -/
def State.waits (s : State) (p : Nat) : Bool := s.busy p || !(s.port p).stalled.isEmpty

/-- R75: a command or an automatic change that has waited is made. -/
def State.finishOwn (s : State) (p : Nat) (w : Stalled) : State :=
  match w with
  | .natImm j v => (s.putImm p j v).setExec .scr (p / 12) false
  | .health j h imm => s.putHealth p j h imm
  | _ => s

/-- R57, R75: a command or an automatic change that reaches port p's shadowed content is made, or waits. -/
def State.shadowAccess (s : State) (p : Nat) (w : Stalled) : State :=
  if s.waits p then s.stall p w else s.finishOwn p w

/-- R74: a NOW request: carried out while the sequencer is IDLE, refused otherwise. -/
def State.shadowNow (s : State) (p : Nat) : State :=
  if (s.port p).sq = .idle then s.modPort p fun x => { x with busyNow := true }
  else (s.modPort p fun x => { x with nowRej := true }).raise Reg.FT_CAUSE_CMD_REJECT p

/-- SHADOW_NOW: a write of NOW that keeps the other bits of SHADOW_CTL. -/
def execShadowNow (t : Time) (m : Master) (port : Nat) (s : State) : Host.Outcome State Fault Refusal :=
  let s := s.at t
  let v : Word := 1 ||| (if (s.port port).hold then 2 else 0) ||| (if (s.port port).rdActive then 4 else 0)
  done (s.by m fun s => s.onPort port fun s => s.ordered m .ft port 0x28 v fun s => s.shadowNow port)

/-- R74, R166: a NOW transfer ends: the content is copied, DIRTY and BUSY clear, the trim banks may switch. -/
def State.nowDone (s : State) (p : Nat) : State :=
  if (s.port p).busyNow then (((s.copyShadow p).modPort p fun x => { x with busyNow := false }).switchBank p)
  else s

/-- NOW_TRANSFER_DONE. -/
def execNowTransferDone (t : Time) (port : Nat) (s : State) : Host.Outcome State Fault Refusal :=
  let s := s.at t
  done (s.onPort port fun s => s.nowDone port)

/-- R53, R56, R120: a write to a NAT window. The rest of a window is unmapped; a window of an absent port ignores
writes. -/
def State.natWrite (s : State) (m : Master) (p j : Nat) (v : Word) : State :=
  if 96 ≤ p then s
  else if s.portCount ≤ p then s
  else if 12288 ≤ j then s.unmapped m 0 (0x1000000 + 0x10000 * p + 4 * (j % 16384)) true
  else s.onPort p fun s => s.putNat p j v

/-- R183: a write to word k of a port's width block. -/
def State.widthWrite (s : State) (p k : Nat) (v : Word) : State :=
  if 128 ≤ k then s else s.onPort p fun s => s.putWidth p k v

/-- R126: the mask slots that ports of group g use. -/
def State.slotUse (s : State) (g : Nat) : Nat :=
  maskOf (((members g).filter fun p => (s.port p).sq != .idle).map fun p => (s.flow p).slot)

/-- R126: a write to a 32-bit word of a mask slot. -/
def State.maskWrite (s : State) (g slot k : Nat) (v : Word) : State :=
  if 8 ≤ slot ∨ 16384 ≤ k ∨ !s.present .scr g then s
  else if (s.slotUse g).testBit slot then s.raise Reg.SCR_CAUSE_SLOT_BUSY g
  else { s with masks := memPut 0 s.masks (0x80000 * g + 0x10000 * slot + 4 * k) (leBytes 4 v.toNat) }.clearEcc .mask
    ((0x80000 * g + 0x10000 * slot + 4 * k) / 8)

/-- MASK_SLOT_WRITE. -/
def execMaskSlotWrite (t : Time) (m : Master) (g slot word : Nat) (value : Word) (s : State) :
    Host.Outcome State Fault Refusal :=
  let s := s.at t
  done (s.by m fun s => s.maskWrite g slot word value)

/-- Σ of the sine series in 60 fraction bits: the term, the square of the angle, the next index, the terms left. -/
def sineSeries (x2 : Nat) : Nat → Nat → Int → Nat → Int
  | 0, _, _, _ => 0
  | n + 1, k, sign, term =>
    sign * term + sineSeries x2 n (k + 2) (-sign) (term * x2 / 2 ^ 60 / ((k + 1) * (k + 2)))

/-- R262: round(32,767 × sin(2π a / 1,024)) for a in the first quadrant; π in 61 fraction bits. -/
def sineQuarter (a : Nat) : Int :=
  let x := a * 7244019458077122842 / 1024
  (32767 * sineSeries (x * x / 2 ^ 60) 14 1 1 x + 2 ^ 59) / 2 ^ 60

/-- R262: the reset content of sine entry a. -/
def sineEntry (a : Nat) : Int :=
  let b := a % 256
  match a / 256 % 4 with
  | 0 => sineQuarter b
  | 1 => sineQuarter (256 - b)
  | 2 => -sineQuarter b
  | _ => -sineQuarter (256 - b)

/-- R262: the reset content of a word of a sine table: entries 2j and 2j + 1. -/
def sineDefault (k : Nat) : Word :=
  let j := k % 512
  BitVec.ofNat 32 (unsign 16 (sineEntry (2 * j)) + 65536 * unsign 16 (sineEntry (2 * j + 1)))

/-- R262: entry a of the sine table of motion group g. -/
def State.sineOf (s : State) (g a : Nat) : Int :=
  signed 16 ((Sparse.get sineDefault s.sine (512 * g + a % 1024 / 2)).toNat / 2 ^ (16 * (a % 2)))

/-- R272: some axis of motion group g is enabled. -/
def State.groupEnabled (s : State) (g : Nat) : Bool := (members g).any fun a => (s.axis a).enabled

/-- R262: a write to word j of a sine table. -/
def State.sineWrite (s : State) (g j : Nat) (v : Word) : State :=
  if 512 ≤ j ∨ !s.present .mgp g then s
  else if s.groupEnabled g then s.raise Reg.MGP_CAUSE_TBL_BUSY g
  else { s with sine := Sparse.put sineDefault s.sine (512 * g + j) v }

/-- SINE_TABLE_WRITE. -/
def execSineTableWrite (t : Time) (m : Master) (g word : Nat) (value : Word) (s : State) :
    Host.Outcome State Fault Refusal :=
  let s := s.at t
  done (s.by m fun s => s.sineWrite g word value)

/-- R277: the bits of word k of a segment that are not reserved. -/
def pvtMask (k : Nat) : Word :=
  match k % 4 with
  | 0 => 0x1FFFF
  | 3 => 0
  | _ => 0xFFFFFFFF

/-- R277: word k of the PVT table of motion group g; what nothing has written reads 0 (log 5), and a word that cannot be
corrected (R35) as a free value (log 147). -/
def State.pvtWord (s : State) (g k : Nat) : Word :=
  if s.isUe .pvt ((1024 * g + k) / 2) then BitVec.ofNat 32 (Config.freeValue (s.free + k))
  else Sparse.get (fun _ => 0) s.pvtTab (1024 * g + k)

/-- R280: a write to word k of a PVT table: ignored for the running segment. The next one is in progress as soon as it
has been checked (R279). -/
def State.pvtWrite (s : State) (g k : Nat) (v : Word) : State :=
  if 1024 ≤ k ∨ !s.present .mgp g then s
  else
    let x := s.axis (12 * g)
    let held := match x.pvt with
      | some r => r.seg == k / 4
      | none => false
    if held then s.raise Reg.AX0_CAUSE_PVT_WR (12 * g)
    else { s with pvtTab := Sparse.put (fun _ => 0) s.pvtTab (1024 * g + k) (v &&& pvtMask k) }.clearEcc .pvt ((1024 * g + k) / 2)

/-- PVT_SEGMENT_WRITE. -/
def execPvtSegmentWrite (t : Time) (m : Master) (g word : Nat) (value : Word) (s : State) :
    Host.Outcome State Fault Refusal :=
  let s := s.at t
  done (s.by m fun s => s.pvtWrite g word value)

/-- R174: config fields of a port's fire-timing and link pages take writes in OFF and SERVICE. -/
def State.portCfg (s : State) (p : Nat) : Bool := (s.port p).st == .off || (s.port p).st == .service

/-- The page offset of a plan register (R174). -/
def planOff : PlanReg → Nat
  | .slot => 0x4C
  | .seq => 0x50

/-- R150, R475: a write to FT_SLOT or FT_SEQ: ignored with SLOT_REJ where the active plan would become invalid. -/
def State.planWrite (s : State) (p : Nat) (r : PlanReg) (v : Word) : State :=
  let s' := (s.latchPort p).writeReg .ft p (planOff r) v (s.portCfg p) (some (Reg.FT_CAUSE_CFG_WR, p))
  if planOk (s.groupA (p / 12)) (s'.slots (p / 12)) then s' else s.raise Reg.FT_CAUSE_SLOT_REJ p

/-- PLAN_WRITE. -/
def execPlanWrite (t : Time) (m : Master) (port : Nat) (reg : PlanReg) (value : Word) (s : State) :
    Host.Outcome State Fault Refusal :=
  let s := s.at t
  done (s.by m fun s => s.onPort port fun s => s.ordered m .ft port (planOff reg) value fun s => s.planWrite port reg value)

/-- The page offset of a budget register (R197). -/
def budgetOff : BudgetReg → Nat
  | .win => 0x74
  | .budget => 0x78

/-- R192: a write to EN_OVD_WIN or EN_OVD_BUDGET; one that the lock ignores clears nothing. -/
def State.budgetWrite (s : State) (p : Nat) (r : BudgetReg) (v : Word) : State :=
  let s1 := s.writeReg .en p (budgetOff r) v true none
  if s.unlocked .en p then (s1.clearBins p).exhaust p else s1

/-- BUDGET_CFG_WRITE. -/
def execBudgetCfgWrite (t : Time) (m : Master) (port : Nat) (reg : BudgetReg) (value : Word) (s : State) :
    Host.Outcome State Fault Refusal :=
  let s := s.at t
  done (s.by m fun s => s.onPort port fun s => s.ordered m .en port (budgetOff reg) value fun s =>
    s.budgetWrite port reg value)

/-- R136: the hiding counters of member k of group g are set to 0. -/
def State.clrScr (s : State) (g k : Nat) : State :=
  (((s.fput Reg.SCR_SUBST_CNT_COUNT 0 g k).fput Reg.SCR_SPREAD_CNT_COUNT 0 g k).fput Reg.SCR_LOST_CNT_COUNT 0 g k).fput
    Reg.SCR_COLLIDE_CNT_COUNT 0 g k

/-- R136: CLR_CNT of the SCR page. -/
def specScrClrCnt (g arg : Nat) : CmdSpec :=
  let k := argField arg 3 0
  { argOk := decide (k < 12) || k == 15
    eff := fun s => if k = 15 then s.forEach (List.range 12) fun s k => s.clrScr g k else s.clrScr g k }

/-- SCR_CLR_CNT. -/
def execScrClrCnt (t : Time) (m : Master) (g arg : Nat) (s : State) : Host.Outcome State Fault Refusal :=
  let s := s.at t
  done (s.command m .scr g 0x01 arg (s.gatedScreen g) (some (specScrClrCnt g arg)))

/-- R122, R136: NAT_IMM; EXEC stays 1 while a transfer stalls it. -/
def specNatImm (g arg : Nat) : CmdSpec :=
  let k := argField arg 3 0
  let j := argField arg 17 4
  let p := 12 * g + k
  { argOk := decide (k < 12) && decide (j < 12288)
    eff := fun s =>
      (s.when (s.waits p) fun s => s.setExec .scr g true).shadowAccess p
        (.natImm j (s.word (Reg.SCR_IMM_DATA_DATA.addr g))) }

/-- NAT_IMM. -/
def execNatImm (t : Time) (m : Master) (g arg : Nat) (s : State) : Host.Outcome State Fault Refusal :=
  let s := s.at t
  done (s.command m .scr g 0x02 arg (s.gatedScreen g) (some (specNatImm g arg)))

end Sys2Proof.Machine
end

