-- ==== Sys2Proof/Machine/Feedback.lean ====
section
/-! DEFINITION. Feedback channels (R198 to R210): counting, double transitions, the index, the observer, loss of
counting, and the channel commands. -/

namespace Sys2Proof.Machine

/-- R211: the groups whose media reference is channel c. -/
def State.refGroups (s : State) (c : Nat) : List Nat :=
  (List.range 8).filter fun g => !s.fixedPace g && s.refChan g == c && decide (12 * g < s.portCount)

/-- R50: a port that uses channel c as its media reference has a sequencer that is not IDLE. -/
def State.chanBound (s : State) (c : Nat) : Bool :=
  (s.refGroups c).any fun g => (members g).any fun p => (s.port p).sq != .idle

/-- Something happens at feedback channel c, whose island must run. -/
def State.onChan (s : State) (c : Nat) (f : State → State) : State :=
  if s.present .fbk c then f (s.latch .fbk c) else s

/-- R202: SOFT_MIN of channel c. -/
def State.softMin (s : State) (c : Nat) : Int :=
  signed 48 (s.wide Reg.FBK_SOFT_MIN_LO_MIN Reg.FBK_SOFT_MIN_HI_MIN c)
/-- R202: SOFT_MAX of channel c. -/
def State.softMax (s : State) (c : Nat) : Int :=
  signed 48 (s.wide Reg.FBK_SOFT_MAX_LO_MAX Reg.FBK_SOFT_MAX_HI_MAX c)

/-- R199: the place of (A, B) in the order 00, 01, 11, 10. -/
def quadPhase (a b : Bool) : Nat := if a then (if b then 2 else 3) else (if b then 1 else 0)

/-- R199, R202, R204: channel c counts one up or down, unless a soft limit discards it. The ports that follow it see the new
count at once (R224). -/
def State.countOne (s : State) (c : Nat) (up : Bool) : State :=
  let x := s.chan c
  let n := if up then x.count + 1 else x.count - 1
  if (if up then s.softMax c < n else n < s.softMin c) then s
  else
    let s := s.setChan c { x with count := n, prevCount := x.lastCount, lastCount := some s.now, lastUp := up }
    s.forEach (((s.refGroups c).flatMap members).filter fun p => decide (p < s.portCount) && (s.port p).inFlow) State.reverse

/-- R198: the filtered level of an input of channel c, from the samples up to now, oldest first: the level of more than half of
the last FILT_N; exactly half keeps the level before. Samples that are not given held that level. -/
def State.filtered (s : State) (c : Nat) (was : Bool) (samples : List Bool) : Bool :=
  let n := max 1 (s.fget Reg.FBK_CFG_FILT_N c)
  let l := samples.reverse.take n
  let high := (l.filter id).length + (if was then n - l.length else 0)
  if n < 2 * high then true else if 2 * high < n then false else was

/-- R198, R199: COUNT_TRANSITION: the samples of A and B change filtered A or B alone. -/
def execCountTransition (t : Time) (ch : Nat) (sa sb : List Bool) (s : State) : Host.Outcome State Fault Refusal :=
  let s := s.at t
  done (s.pins fun s => s.onChan ch fun s =>
    let x := s.chan ch
    let a := s.filtered ch x.a sa
    let b := s.filtered ch x.b sb
    if (a == x.a) == (b == x.b) then s
    else
      let up := decide ((quadPhase x.a x.b + 1) % 4 = quadPhase a b)
      let s := s.setChan ch { x with a := a, b := b }
      if x.st = .off then s else s.countOne ch (up != s.fbit Reg.FBK_CFG_DIR ch))

/-- R209, R378: channel c in RUN has lost its count: LOSS, FAULT, the message, and a group stop of every group that
follows it. -/
def State.chanLoss (s : State) (c : Nat) : State :=
  if (s.chan c).st = .run then
    let ref := !(s.refGroups c).isEmpty
    let s := (s.raise Reg.FBK_CAUSE_LOSS c).modChan c fun x => { x with st := .fault, faultSev2 := ref }
    if ref then s.forEach (s.refGroups c) State.groupStop |>.send 2 c kindEncLoss 2 c else s.send 2 c kindFbkFault 1 c
  else s

/-- R198, R200, R201: DOUBLE_TRANSITION: filtered A and B change in the same sample. -/
def execDoubleTransition (t : Time) (ch : Nat) (sa sb : List Bool) (s : State) : Host.Outcome State Fault Refusal :=
  let s := s.at t
  done (s.pins fun s => s.onChan ch fun s =>
    let x := s.chan ch
    let a := s.filtered ch x.a sa
    let b := s.filtered ch x.b sb
    if a == x.a || b == x.b then s
    else if x.st = .off then s.setChan ch { x with a := a, b := b }
    else
      let recent := x.doubles.filter (fun u => decide (s.now < u + 1024 * 2 * ns)) ++ [s.now]
      let s := s.setChan ch { x with a := a, b := b, coast := true, doubles := recent }
      let s := (s.fadd Reg.FBK_ERR_DOUBLE_COUNT 1 ch).raise Reg.FBK_CAUSE_DOUBLE ch
      if s.fget Reg.FBK_DBL_CFG_DOUBLE_MAX ch < recent.length then
        (s.raise Reg.FBK_CAUSE_DOUBLE_EXCESS ch).chanLoss ch
      else s)

/-- R203: an INDEX_GATE or INDEX_MISMATCH sends its message; a channel in SERVICE sends none (R205). -/
def State.indexMsg (s : State) (c detail : Nat) : State :=
  if (s.chan c).st = .service then s
  else s.send 2 c kindIndex (if (s.refGroups c).isEmpty then 0 else 1) detail

/-- R203: an index event of channel c is not valid. -/
def State.indexGate (s : State) (c : Nat) : State :=
  ((s.raise Reg.FBK_CAUSE_INDEX_GATE c).fadd Reg.FBK_IDX_ERR_GATE 1 c).indexMsg c 0

/-- R203: the index period of channel c does not match LINES. -/
def State.indexMismatch (s : State) (c : Nat) : State :=
  ((s.raise Reg.FBK_CAUSE_INDEX_MISMATCH c).fadd Reg.FBK_IDX_ERR_MISMATCH 1 c).indexMsg c 1

/-- R274: a valid index of channel c ends phase H3 of the axes that home on it. -/
def State.homeIndex (s : State) (c : Nat) : State :=
  let hit (a : Nat) : Bool :=
    (s.axis a).st == .homing && (s.axis a).homePhase == .index && s.fget Reg.AX_ENC_ENC_CH a == c
  s.forEach ((List.range 96).filter hit) fun s a => s.modAxis a fun x => { x with homeEdge := x.q, homePhase := .settle }

/-- R203: a valid index latches the counter and checks the index period. A difference that its field cannot hold has no
stated value. -/
def State.validIndex (s : State) (c : Nat) : State :=
  let x := s.chan c
  let old := signed 48 (s.wide Reg.FBK_IDX_POS_LO_POS Reg.FBK_IDX_POS_HI_POS c)
  let delta := x.count - old
  let lines := s.fget Reg.FBK_LINES_LINES c
  let s := s.putWide Reg.FBK_IDX_POS_LO_POS Reg.FBK_IDX_POS_HI_POS (unsign 48 x.count) c
  let s := (s.setChan c { x with idxSeen := true, i := true }).homeIndex c
  if !x.idxSeen then s
  else
    let fits := decide (-(2 ^ 31 : Int) ≤ delta ∧ delta < 2 ^ 31)
    let s := if fits then s.fput Reg.FBK_IDX_DELTA_DELTA (unsign 32 delta) c
             else s.drew.fput Reg.FBK_IDX_DELTA_DELTA s.drawn c
    let off := ((delta.natAbs : Int) - 4 * lines).natAbs
    if lines ≠ 0 ∧ s.fget Reg.FBK_INDEX_TOL_TOL c < off then s.indexMismatch c else s

/-- R198, R203: INDEX_EVENT: the samples of I: a rising edge of filtered I is an index event, a falling one only ends it. -/
def execIndexEvent (t : Time) (x : IndexSamples) (s : State) : Host.Outcome State Fault Refusal :=
  let s := s.at t
  let ch := x.ch
  let si := x.samples
  done (s.pins fun s => s.onChan ch fun s =>
    let x := s.chan ch
    let i := s.filtered ch x.i si
    if x.i || !i then s.setChan ch { x with i := i }
    else if x.st = .off ∨ !s.fbit Reg.FBK_CFG_IDX_EN ch then s.setChan ch { x with i := true }
    else if x.a == s.fbit Reg.FBK_CFG_GATE_A ch && x.b == s.fbit Reg.FBK_CFG_GATE_B ch then s.validIndex ch
    else (s.setChan ch { x with i := true }).indexGate ch)

/-- R206: din of channel c, in µs. -/
def State.filterDelay (s : State) (c : Nat) : Rat :=
  ((5 + 2 * (max 1 (s.fget Reg.FBK_CFG_FILT_N c) / 2) : Nat) : Rat) / 1000

/-- R207: ω of channel c, in 1/µs. -/
def State.omega (s : State) (c : Nat) : Rat :=
  2 * pi * (max 100 (min 20000 (s.fget Reg.FBK_OBS_CFG_BW c)) : Nat) / 1000000

/-- R206 to R208: one tick of the observer, at its sample instant. -/
def State.observe (s : State) (c : Nat) : State :=
  let x := s.chan c
  let w := s.omega c
  let coast := x.coast || x.st == .off
  let e := if coast then 0 else (x.count : Rat) + x.v * s.filterDelay c - x.x
  let ts : Rat := 1 / 10
  s.setChan c
    { x with
      x := x.x + ts * (x.v + 3 * w * e), v := x.v + ts * (x.acc + 3 * w * w * e), acc := x.acc + ts * (w * w * w) * e
      innov := if coast then x.innov else e
      tm := s.now, tick := (x.tick + 1) % 2 ^ 32, coast := false }

/-- R209: |e| of a tick that does not coast, or |a|, is beyond its limit. -/
def State.lossNow (s : State) (c : Nat) (coasted : Bool) : Bool :=
  let x := s.chan c
  (!coasted && decide ((max 1 (s.fget Reg.FBK_LOSS_LOSS_ERR c) : Nat) < absRat x.innov)) ||
  decide ((max 1 (s.fget Reg.FBK_LOSS_AMAX c) : Nat) < absRat x.acc * 1000000)

/-- R207, R209: OBSERVER_TICK. -/
def execObserverTick (t : Time) (ch : Nat) (s : State) : Host.Outcome State Fault Refusal :=
  let s := s.at t
  done (s.onChan ch fun s =>
    let coasted := (s.chan ch).coast || (s.chan ch).st == .off
    let s := s.observe ch
    if s.lossNow ch coasted then s.chanLoss ch else s)

/-- R50, R205, R382: SVC_ENTER of a channel. -/
def specFbkSvcEnter (s : State) (c : Nat) : CmdSpec :=
  { legal := match (s.chan c).st with
      | .off => !s.chanBound c
      | .service => false
      | .run => !s.chanBound c
      | .fault => !s.chanBound c && (!(s.chan c).faultSev2 || s.chanAcked c)
    eff := fun s => s.modChan c fun x => { x with st := .service, faultSev2 := false } }

/-- FBK_SVC_ENTER. -/
def execFbkSvcEnter (t : Time) (m : Master) (ch : Nat) (s : State) : Host.Outcome State Fault Refusal :=
  let s := s.at t
  done ((s.onChan ch id).command m .fbk ch 0x10 0 false (some (specFbkSvcEnter s ch)))

/-- R205: OFF of a channel. -/
def specFbkOff (s : State) (c : Nat) : CmdSpec :=
  { legal := (s.chan c).st == .service, eff := fun s => s.modChan c fun x => { x with st := .off } }

/-- FBK_OFF. -/
def execFbkOff (t : Time) (m : Master) (ch : Nat) (s : State) : Host.Outcome State Fault Refusal :=
  let s := s.at t
  done ((s.onChan ch id).command m .fbk ch 0x13 0 false (some (specFbkOff s ch)))

/-- R205: LOAD_POS. -/
def specLoadPos (s : State) (c : Nat) : CmdSpec :=
  { legal := (s.chan c).st == .service
    eff := fun s =>
      let n := signed 48 (s.wide Reg.FBK_SETPOS_LO_POS Reg.FBK_SETPOS_HI_POS c)
      s.modChan c fun x => { x with count := n, x := (n : Rat), v := 0, acc := 0 } }

/-- LOAD_POS. -/
def execLoadPos (t : Time) (m : Master) (ch : Nat) (s : State) : Host.Outcome State Fault Refusal :=
  let s := s.at t
  done ((s.onChan ch id).command m .fbk ch 0x18 0 false (some (specLoadPos s ch)))

/-- R205, R211: SVC_LEAVE of a channel: its output is valid, and REF_LOSS ends at the ports that follow it. -/
def specFbkSvcLeave (s : State) (c : Nat) : CmdSpec :=
  { legal := (s.chan c).st == .service
    eff := fun s =>
      let s := s.forEach ((s.refGroups c).flatMap members) fun s p => s.latch .ft p
      s.modChan c fun x => { x with st := .run } }

/-- FBK_SVC_LEAVE. -/
def execFbkSvcLeave (t : Time) (m : Master) (ch : Nat) (s : State) : Host.Outcome State Fault Refusal :=
  let s := s.at t
  done ((s.onChan ch id).command m .fbk ch 0x11 0 false (some (specFbkSvcLeave s ch)))

/-- R205: CLR_CNT of a channel. -/
def specFbkClrCnt (c : Nat) : CmdSpec :=
  { eff := fun s => ((s.fput Reg.FBK_ERR_DOUBLE_COUNT 0 c).fput Reg.FBK_IDX_ERR_MISMATCH 0 c).fput Reg.FBK_IDX_ERR_GATE 0 c }

/-- FBK_CLR_CNT. -/
def execFbkClrCnt (t : Time) (m : Master) (ch : Nat) (s : State) : Host.Outcome State Fault Refusal :=
  let s := s.at t
  done (s.command m .fbk ch 0x02 0 false (some (specFbkClrCnt ch)))

end Sys2Proof.Machine
end

