-- ==== Sys2Proof/Machine/Health.lean ====
section
/-! DEFINITION. Nozzle health (R231 to R251): scan steps, classification, the learn pass, result records, automatic NAT
changes, and in-print drift monitoring. -/

namespace Sys2Proof.Machine

/-- Change the health unit of port p. -/
def State.modHealth (s : State) (p : Nat) (f : Health → Health) : State :=
  s.modPort p fun x => { x with health := f x.health }

/-- R239: nothing has been learnt yet. -/
def Health.forget (h : Health) : Health :=
  { h with learnN := List.replicate 4 0, learnSum := List.replicate 4 (List.replicate 128 0) }

/-- R236: the stored scan settings can be used. -/
def State.scanOk (s : State) (p : Nat) : Bool :=
  let pitch := s.fget Reg.HL_SCAN_PITCH p
  let n := s.fget Reg.HL_RANGE_COUNT p
  let code := s.fget Reg.HL_SCAN_CODE p
  decide (s.fget Reg.FT_PITCH_PITCH p ≤ pitch) &&
  decide (ns * (5440 + s.fget Reg.HL_SCAN_SDLY p) ≤ 250 * pitch) &&
  decide (s.fget Reg.HL_RANGE_FIRST p + n ≤ 768) && decide (1 ≤ n) && code != 0 && (!s.ul24 || code == 1)

/-- R236, R239, R251: SCAN_START. -/
def specScanStart (s : State) (p arg : Nat) : CmdSpec :=
  { legal := (s.port p).health.st == .stopped && (s.port p).st != .off
    cond := s.scanOk p
    eff := fun s => s.modHealth p fun h =>
      { h.forget with
        st := .waiting, learn := arg.testBit 0, svc := false, stopReq := false, cursor := s.fget Reg.HL_RANGE_FIRST p } }

/-- SCAN_START. -/
def execScanStart (t : Time) (m : Master) (port arg : Nat) (s : State) : Host.Outcome State Fault Refusal :=
  let s := s.at t
  done (s.command m .hl port 0x01 arg (s.gatedFire (port / 12)) (some (specScanStart s port arg)))

/-- R243, R251: SCAN_STOP: a step in progress still completes. -/
def specScanStop (s : State) (p : Nat) : CmdSpec :=
  { legal := (s.port p).health.st != .stopped
    eff := fun s => s.modHealth p fun h =>
      if h.stepT0.isSome then { h with stopReq := true } else { h.drop with st := .stopped, stopReq := false } }

/-- SCAN_STOP. -/
def execScanStop (t : Time) (m : Master) (port : Nat) (s : State) : Host.Outcome State Fault Refusal :=
  let s := s.at t
  done (s.command m .hl port 0x02 0 false (some (specScanStop s port)))

/-- R242, R251: SCAN_SVC: where the link is not in RUN, CONFIG goes first. -/
def specScanSvc (s : State) (p : Nat) : CmdSpec :=
  { legal := (s.port p).health.st == .waiting && (s.port p).st == .service
    cond := s.fbit Reg.LK_STAT_IDENT_OK p && (s.port p).link != .down && s.fits p
    eff := fun s =>
      let s := s.modHealth p fun h => { h with st := .stepping, svc := true, sliceClose := none, sliceSteps := 0 }
      if (s.port p).link = .run then s else (s.modPort p fun x => { x with cfgTries := 0 }).sendConfig p }

/-- SCAN_SVC. -/
def execScanSvc (t : Time) (m : Master) (port : Nat) (s : State) : Host.Outcome State Fault Refusal :=
  let s := s.at t
  done (s.command m .hl port 0x03 0 (s.gatedFire (port / 12)) (some (specScanSvc s port)))

/-- R250: DRIFT_RESET. -/
def specDriftReset (p : Nat) : CmdSpec :=
  { eff := fun s => (s.modHealth p fun h => { h with cond := [] }).fput Reg.HL_DRIFT_N_COUNT 0 p }

/-- DRIFT_RESET. -/
def execDriftReset (t : Time) (m : Master) (port : Nat) (s : State) : Host.Outcome State Fault Refusal :=
  let s := s.at t
  done (s.command m .hl port 0x04 0 false (some (specDriftReset port)))

/-- The counters of the health page (R251). -/
def healthCounters : List Fld :=
  [Reg.HL_CNT_GOOD_COUNT, Reg.HL_CNT_WEAK_COUNT, Reg.HL_CNT_MISS_COUNT, Reg.HL_NAT_UPD_COUNT, Reg.HL_SKIP_COUNT,
   Reg.HL_STEPS_COUNT, Reg.HL_RES_LOST_COUNT]

/-- R251: CLR_CNT of the health page. -/
def specHlClrCnt (p : Nat) : CmdSpec := { eff := fun s => healthCounters.foldl (fun s f => s.fput f 0 p) s }

/-- HL_CLR_CNT. -/
def execHlClrCnt (t : Time) (m : Master) (port : Nat) (s : State) : Host.Outcome State Fault Refusal :=
  let s := s.at t
  done (s.command m .hl port 0x05 0 false (some (specHlClrCnt port)))

/-- R251: RES_RESET. -/
def specResReset (s : State) (p : Nat) : CmdSpec :=
  { legal := (s.port p).health.st == .stopped
    eff := fun s => (s.setWord (regAddr .hl p 0x88) 0).setWord (regAddr .hl p 0x8C) 0 }

/-- RES_RESET. -/
def execResReset (t : Time) (m : Master) (port : Nat) (s : State) : Host.Outcome State Fault Refusal :=
  let s := s.at t
  done (s.command m .hl port 0x06 0 false (some (specResReset s port)))

/-- R13, R112, R232: the nozzles of step q that are physical, in increasing order. -/
def State.stepNozzles (s : State) (p q : Nat) : List Nat :=
  ((List.range 16).map (16 * q + ·)).filter fun j => (s.nozzleCol p j).isSome

/-- R232: steps whose primitive has no physical nozzle are skipped: the next step at or after q, before `fin`. -/
def State.nextStep (s : State) (p q fin : Nat) : Nat :=
  ((List.range (fin - q)).find? fun i => !(s.stepNozzles p (q + i)).isEmpty).elim fin (q + ·)

/-- The step after the last of the pass. -/
def State.scanEnd (s : State) (p : Nat) : Nat := s.fget Reg.HL_RANGE_FIRST p + s.fget Reg.HL_RANGE_COUNT p

/-- The nearest integer; of two equally near ones, the one that rounding site k takes (log 11). -/
def roundNear (k : Nat) (x : Rat) : Int :=
  if x - x.floor = 1 / 2 then fixInt k x else (x + 1 / 2).floor

/-- R239: template sample i of die d. -/
def State.templ (s : State) (p d i : Nat) : Int :=
  signed 16 (if i % 2 = 0 then s.fget Reg.HL_TEMPL_EVEN p d (i / 2) else s.fget Reg.HL_TEMPL_ODD p d (i / 2))

/-- Set it. -/
def State.setTempl (s : State) (p d i : Nat) (v : Int) : State :=
  let u := unsign 16 (satS 16 v)
  if i % 2 = 0 then s.fput Reg.HL_TEMPL_EVEN u p d (i / 2) else s.fput Reg.HL_TEMPL_ODD u p d (i / 2)

/-- R239: the end of a learn pass: each die with at least 64 nozzles gets the rounded mean as its template. -/
def State.learnEnd (s : State) (p : Nat) : State :=
  let h := (s.port p).health
  s.forEach (s.dies p) fun s d =>
    let n := h.learnN.getD d 0
    if n < 64 then s.raise Reg.HL_CAUSE_LEARN_FAIL p
    else
      let sums := h.learnSum.getD d []
      let s := s.forEach (List.range 128) fun s i =>
        s.setTempl p d i (roundNear 2 ((sums.getD i 0 : Rat) / (8 * n : Nat)))
      s.fput Reg.HL_TEMPL_VALID_VALID (s.fget Reg.HL_TEMPL_VALID_VALID p ||| 2 ^ d) p

/-- The end of a pass: PASS_DONE; the scan waits at FIRST with CONT, else it is STOPPED. What follows a learn pass is no
learn pass. DESIGN CHOICE (log 145): HL_PASSES saturates, as the counters beside it do. -/
def State.passEnd (s : State) (p : Nat) : State :=
  let s := s.when (s.port p).health.learn fun s => s.learnEnd p
  let s := (s.raise Reg.HL_CAUSE_PASS_DONE p).fadd Reg.HL_PASSES_COUNT 1 p
  let cont := s.fbit Reg.HL_CTL_CONT p
  s.modHealth p fun h =>
    { h.drop with
      st := if cont && !h.stopReq then .waiting else .stopped
      stopReq := false, learn := false, cursor := s.fget Reg.HL_RANGE_FIRST p }

/-- R232, R234: the line of a step: codes, widths and envelopes; EN_BAND shows the bands used. -/
def State.stepLineOf (s : State) (p : Nat) (js : List Nat) : Line :=
  let w := s.lineWidths p
  { Line.make 0 none (js.map fun j => (j, s.fget Reg.HL_SCAN_CODE p)) with widths := w, env := s.lineEnv p w }

/-- R233: the start of the next step of a run: for the first the 1 GHz count at or after SETUP past the end of its LINE frame,
for each later one 16 × SCAN_PITCH after the one before. -/
def State.nextStepAt (s : State) (p : Nat) : Time :=
  match (s.port p).health.nextT0 with
  | some t0 => t0
  | none =>
    (max s.now (s.port p).linkFreeAt + s.symPs p (8 + 390 * (s.port p).cfgDies.length) + (s.setupNs p * 1000).ceil.toNat + 999)
      / 1000 * 1000

/-- R240: another step of the run can start: it fits before the slice closes, and MAX is not reached. A service run has
no limit (R242). -/
def State.stepFits (s : State) (p : Nat) : Bool :=
  let h := (s.port p).health
  let mx := s.fget Reg.HL_SLICE_MAX p
  h.svc || (h.sliceClose.isSome && (mx == 0 || decide (h.sliceSteps < mx)) &&
    decide (s.stepEnd p (s.nextStepAt p) ≤ s.closeNow p))

/-- R240, R242, R243: the run can go on at all: a slice before the first line of the next page of a PRINTING port that no
SVC_ENTER takes out of it, or a service run. -/
def State.runAlive (s : State) (p : Nat) : Bool :=
  let x := s.port p
  if x.health.svc then x.st == .service
  else x.st == .printing && x.svcPend != .afterLine && (x.sq == .boundary || x.sq == .armed || x.beforeFirst)

/-- R232 to R235: SCAN_STEP: the next step of the run starts: its LINE frame goes out, and its phases begin at t0. -/
def State.scanStep (s : State) (p : Nat) : State :=
  let h := (s.port p).health
  if h.st ≠ .stepping ∨ h.stepT0.isSome then s
  else if !s.runAlive p then s.modPort p fun x => x.dropScan s.now
  else if (s.port p).link ≠ .run then s
  else
    let q := if h.confirm.isEmpty then s.nextStep p h.cursor (s.scanEnd p) else h.cursor
    if s.scanEnd p ≤ q then s.passEnd p
    else if !s.stepFits p then s.modPort p fun x => x.dropScan s.now
    else
      let js := if h.confirm.isEmpty then s.stepNozzles p q else h.confirm.map (·.1)
      let l := s.stepLineOf p js
      let t0 := s.nextStepAt p
      let setup := (s.setupNs p * 1000).ceil.toNat
      let s := s.fput Reg.EN_BAND_BAND (s.bandWord p) p
      let s := s.fadd Reg.HL_STEPS_COUNT 1 p
      let due := t0 + 250 * 16 * s.fget Reg.FT_PITCH_PITCH p
      let fs := [s.lineFrame p l]
      s.modPort p fun x =>
        { x.coded ((s.now - x.linkFreeAt) / max 1 (s.symPs p 1)) (laneOf fs 0) (laneOf fs 1) with
          linkFreeAt := max x.linkFreeAt (t0 - setup), sent := fs, abt := false, lseq := (x.lseq + 1) % 65536
          ackWait := x.ackWait ++ [(x.lseq, some due)]
          health := { h with
            cursor := q, stepT0 := some t0, stepLine := some l, stepLseq := some x.lseq, stepAck := none, sliceSteps := h.sliceSteps + 1
            stepFrames := (x.lseq :: h.stepFrames).take 64
            nextT0 := some (t0 + 250 * 16 * s.fget Reg.HL_SCAN_PITCH p) } }

/-- SCAN_STEP. -/
def execScanStep (t : Time) (port : Nat) (s : State) : Host.Outcome State Fault Refusal :=
  let s := s.at t
  done (s.onPort port fun s => s.scanStep port)

/-- R237: the samples of one phase: eight of the baseline, and 128 of the window. -/
abbrev PhaseSamples := List Int × List Int

/-- R237: 8 × z[i] of a phase's samples. -/
def waveform (ys : PhaseSamples) : List Int :=
  let b := (ys.1.take 8).foldl (· + ·) 0
  (List.range 128).map fun i => 8 * ys.2.getD i 0 - b

/-- R238: reported g and r: rounded toward zero to Q4.12, held at 0 and 0xFFFF. -/
def q412 (x : Rat) : Nat := if x ≤ 0 then 0 else min 0xFFFF (x * 4096).floor.toNat

/-- A nozzle's result: its class (0 good, 1 weak, 2 missing, 3 unknown), the reason, g and r. -/
structure Verdict where
  cls : Nat
  reason : Nat
  g : Nat
  r : Nat
  deriving DecidableEq, Repr

/-- R238: the class of a waveform (8 × z) against the template of die d; none where the template is not valid. -/
def State.classify (s : State) (p d : Nat) (zs : List Int) : Option Verdict :=
  let ms := (List.range 128).map fun i => s.templ p d i
  let dot (a b : List Int) : Int := (List.zipWith (· * ·) a b).foldl (· + ·) 0
  let smm := dot ms ms
  if !(s.fget Reg.HL_TEMPL_VALID_VALID p).testBit d || smm == 0 then none
  else
    let g : Rat := (dot zs ms : Rat) / (8 * smm : Int)
    let r : Rat := (dot zs zs : Rat) / (64 * smm : Int) - g * g
    let q (f : Fld) : Rat := (s.fget f p : Rat) / 4096
    let c := if g < q Reg.HL_G_G_MIN ∨ q Reg.HL_R_R_MISS < r then 2
      else if q Reg.HL_G_G_TOL < absRat (g - 1) ∨ q Reg.HL_R_R_WEAK < r then 1 else 0
    some ⟨c, 0, q412 g, q412 r⟩

/-- R246: the HEALTH that a classification would set. -/
def healthChange (present cls : Nat) (weakEn recover : Bool) : Option Nat :=
  match present, cls with
  | 0, 1 => if weakEn then some 1 else none
  | 0, 2 => some 2
  | 1, 0 => some 0
  | 1, 2 => some 2
  | 2, 0 => if recover then some 0 else none
  | 2, 1 => if recover && weakEn then some 1 else none
  | 3, 0 => some 0
  | 3, 1 => some (if weakEn then 1 else 0)
  | 3, 2 => some 2
  | _, _ => none

/-- R246: the change that class c asks of nozzle j under the policy. -/
def State.changeFor (s : State) (p j c : Nat) : Option Nat :=
  if s.fbit Reg.HL_POLICY_AUTO p then
    healthChange (natHealth (s.natA p j)) c (s.fbit Reg.HL_POLICY_WEAK_EN p) (s.fbit Reg.HL_POLICY_RECOVER p)
  else none

/-- R244: a result record. -/
def recordBits (j c : Nat) (upd retried : Bool) (reason pass g r : Nat) : BitVec 64 :=
  BitVec.ofNat 64 (j % 2 ^ 14 + c % 4 * 2 ^ 14 + (if upd then 2 ^ 16 else 0) + (if retried then 2 ^ 17 else 0) +
    reason % 4 * 2 ^ 18 + pass % 2 ^ 12 * 2 ^ 20 + g % 2 ^ 16 * 2 ^ 32 + r % 2 ^ 16 * 2 ^ 48)

/-- R245: an address of the result area that a record cannot reach: a committed region, or no powered bank. -/
def State.resBlocked (s : State) (a : Nat) : Bool :=
  decide (s.bandBytes < a + 8) ||
  s.portList.any fun q => (List.range 8).any fun i => (s.ring q).committed (a + i)

/-- R244, R245: a record is written to the result area of port p, lost or dropped. -/
def State.putRecord (s : State) (p : Nat) (w : BitVec 64) : State :=
  let cap := 512 * s.fget Reg.HL_RES_SIZE_SIZE p
  if cap = 0 then s
  else
    let wi := s.fget Reg.HL_RES_WPTR_INDEX p
    let wp : Ptr := ⟨wi, s.fbit Reg.HL_RES_WPTR_WRAP p⟩
    let rp : Ptr := ⟨s.fget Reg.HL_RES_RPTR_INDEX p, s.fbit Reg.HL_RES_RPTR_WRAP p⟩
    if Ptr.ahead rp wp cap = cap then (s.fadd Reg.HL_RES_LOST_COUNT 1 p).raise Reg.HL_CAUSE_RES_OVF p
    else
      let a := 4096 * s.fget Reg.HL_RES_BASE_BASE p + 8 * wi
      let s := if s.resBlocked a then s.raise Reg.HL_CAUSE_RES_DROP p else s.bandStore a (leBytes 8 w.toNat)
      if cap ≤ wi + 1 then (s.fput Reg.HL_RES_WPTR_INDEX 0 p).fput Reg.HL_RES_WPTR_WRAP (if wp.wrap then 0 else 1) p
      else s.fput Reg.HL_RES_WPTR_INDEX (wi + 1) p

/-- R247: a confirmed change of HEALTH. -/
def State.autoUpdate (s : State) (p j h : Nat) : State :=
  let s := s.shadowAccess p (.health j h (s.fbit Reg.HL_POLICY_IMM p))
  let s := (s.fadd Reg.HL_NAT_UPD_COUNT 1 p).raise Reg.HL_CAUSE_NAT_UPD p
  if h = 2 then s.raise Reg.HL_CAUSE_MISSING p else if h = 1 then s.raise Reg.HL_CAUSE_WEAK p else s

/-- The counter of a class (R251). -/
def classCounter (c : Nat) : Fld :=
  match c with
  | 0 => Reg.HL_CNT_GOOD_COUNT
  | 1 => Reg.HL_CNT_WEAK_COUNT
  | 2 => Reg.HL_CNT_MISS_COUNT
  | _ => Reg.HL_SKIP_COUNT

/-- R241, R244, R247: one nozzle's result is committed. g and r of an unclassified nozzle have no stated value. -/
def State.commitOne (s : State) (p j : Nat) (v : Verdict) (change : Option Nat) (retried : Bool) : State :=
  let s := s.fadd (classCounter v.cls) 1 p
  let s := match change with
    | some h => s.autoUpdate p j h
    | none => s
  let free := s.drawn
  let g := if v.cls = 3 then free % 65536 else v.g
  let r := if v.cls = 3 then free / 65536 % 65536 else v.r
  (if v.cls = 3 then s.drew else s).putRecord p
    (recordBits j v.cls change.isSome retried v.reason (s.fget Reg.HL_PASSES_COUNT p) g r)

/-- R241: the primitive is done: the cursor goes on, and the pass may end. -/
def State.primitiveDone (s : State) (p : Nat) : State :=
  let s := s.modHealth p fun h =>
    { h with cursor := h.cursor + 1, confirm := [], confirmsLeft := 0, pendingRec := [] }
  let s := s.modHealth p fun h => { h with cursor := s.nextStep p h.cursor (s.scanEnd p) }
  if s.scanEnd p ≤ (s.port p).health.cursor then s.passEnd p else s

/-- R241: every result of the primitive is committed, in nozzle order; `ok` holds the nozzles whose change is made. -/
def State.commitAll (s : State) (p : Nat) (rs : List (Nat × Nat × Nat × Nat × Nat × Bool)) (ok : List Nat) : State :=
  let s := rs.foldl (fun s e =>
    let (j, c, reason, g, r, retried) := e
    s.commitOne p j ⟨c, reason, g, r⟩ (if ok.contains j then s.changeFor p j c else none) retried) s
  s.primitiveDone p

/-- R239: a nozzle joins the sums of the learn pass. -/
def Health.learnOne (h : Health) (d : Nat) (zs : List Int) : Health :=
  { h with
    learnN := h.learnN.set d (h.learnN.getD d 0 + 1)
    learnSum := h.learnSum.set d (List.zipWith (· + ·) (h.learnSum.getD d []) zs) }

/-- The samples of the phase that fires nozzle j. -/
def State.samplesOf (s : State) (p j : Nat) (samples : List PhaseSamples) : List Int :=
  match (List.range 16).find? fun k => s.ord p k == j % 16 with
  | some k => waveform (samples.getD k ([], []))
  | none => waveform ([], [])

/-- R235, R239: a step of a learn pass. -/
def State.learnStep (s : State) (p : Nat) (js : List Nat) (ackOk : Bool) (samples : List PhaseSamples) : State :=
  let s := if !ackOk then s
    else s.forEach (js.filter fun j => !natMask (s.natA p j) && natHealth (s.natA p j) != 2) fun s j =>
      s.modHealth p fun h => h.learnOne (j / 3072) (s.samplesOf p j samples)
  s.commitAll p (js.map fun j => (j, 3, if ackOk then 0 else 2, 0, 0, false)) []

/-- R235, R238: the verdict on nozzle j. -/
def State.verdict (s : State) (p j : Nat) (ackOk : Bool) (samples : List PhaseSamples) : Verdict :=
  if !ackOk then ⟨3, 2, 0, 0⟩ else (s.classify p (j / 3072) (s.samplesOf p j samples)).getD ⟨3, 1, 0, 0⟩

/-- R246: the first step of a primitive: changes are confirmed first, when RETRY is not 0. -/
def State.firstScan (s : State) (p : Nat) (js : List Nat) (ackOk : Bool) (samples : List PhaseSamples) : State :=
  let vs := js.map fun j => (j, s.verdict p j ackOk samples)
  let chg := vs.filter fun e => (s.changeFor p e.1 e.2.cls).isSome
  let retry := s.fget Reg.HL_POLICY_RETRY p
  let again := !chg.isEmpty && retry != 0
  let rs := vs.map fun e => (e.1, e.2.cls, e.2.reason, e.2.g, e.2.r, again && chg.any fun c => c.1 == e.1)
  if again then
    s.modHealth p fun h =>
      { h with confirm := chg.map (fun e => (e.1, e.2.cls)), confirmsLeft := retry, pendingRec := rs }
  else s.commitAll p rs (chg.map (·.1))

/-- R246: a confirmation: nozzles that give another class are no longer under confirmation. -/
def State.confirmScan (s : State) (p : Nat) (ackOk : Bool) (samples : List PhaseSamples) : State :=
  let h := (s.port p).health
  let left := h.confirm.filter fun e => (s.verdict p e.1 ackOk samples).cls == e.2
  if left.isEmpty || h.confirmsLeft ≤ 1 then s.commitAll p h.pendingRec (left.map (·.1))
  else s.modHealth p fun h => { h with confirm := left, confirmsLeft := h.confirmsLeft - 1 }

/-- R248: entries that the health unit reads at this step. -/
def State.healthNat (s : State) (p : Nat) (js : List Nat) : List Nat :=
  if (s.port p).health.learn || s.fbit Reg.HL_POLICY_AUTO p then js else []

/-- R240 to R243: after a completed step: the run goes on, ends, or the scan stops. -/
def State.afterStep (s : State) (p : Nat) : State :=
  let h := (s.port p).health
  if h.st ≠ .stepping then s
  else if h.stopReq || !s.runAlive p || !s.stepFits p then s.modPort p fun x => x.dropScan s.now else s

/-- R235 to R248: SCAN_STEP_DONE: the ADC's samples of each phase. A step whose ACK was a NACK or has not come is not
classified. -/
def State.scanStepDone (s : State) (p : Nat) (samples : List PhaseSamples) : State :=
  match (s.port p).health.stepLine with
  | none => s
  | some l =>
    let h := (s.port p).health
    let ackOk := h.stepAck == some true
    let js := l.codes.map (·.1)
    let last := s.stepPhase p (h.stepT0.getD 0) 15
    let s := s.modPort p fun x =>
      let x := x.endStep s.now
      { x with last15 := last, health := { x.health with stepLseq := none, stepAck := none } }
    let nats := s.healthNat p js
    let bad := nats.any (s.natUe p)
    let s := s.readNat p nats
    if bad then s
    else
      let s := if h.learn then s.learnStep p js ackOk samples
        else if h.confirm.isEmpty then s.firstScan p js ackOk samples else s.confirmScan p ackOk samples
      s.afterStep p

/-- SCAN_STEP_DONE. -/
def execScanStepDone (t : Time) (port : Nat) (base window : List (List Int)) (s : State) :
    Host.Outcome State Fault Refusal :=
  let s := s.at t
  done (s.onPort port fun s => s.scanStepDone port (base.zip window))

/-- R249: G saturates at 0 and 4,095.9375; it is held in 2⁻¹⁶ units. -/
def holdG (x : Rat) : Nat := (max 0 (min (4095 * 65536 + 61440) (fixInt 3 (x * 65536)))).toNat

/-- R249: the phase qualifies: STB_A is high and STB_B and STB_C are low at s + AT, and AT lies within the pulse. -/
def State.driftPhase (s : State) (p : Nat) (l : Line) (t0 k : Nat) (fs : List Nat) : Bool :=
  let a := s.fget Reg.HL_DRIFT_CFG_AT p
  let tt := s.phaseStart p t0 k + 250 * a
  let high (x : Nat) : Bool :=
    (s.flow p).pulses.any fun q => q.strobe == x && decide (q.rise ≤ tt ∧ tt < q.fall)
  let wmin := match (s.dies p).filter fun d => fs.any fun j => j / 3072 == d with
    | [] => 0
    | d :: r => r.foldl (fun m e => min m (l.widths.getD e 0)) (l.widths.getD d 0)
  high 0 && !high 1 && !high 2 &&
  (if s.trimming p then decide (a ≤ 84 * wmin / 100) else decide (a < l.env.getD 0 0))

/-- R249: DRIFT_MEASURE: the measurement y of phase k of the line in progress. -/
def State.driftMeasure (s : State) (p k : Nat) (y : Int) : State :=
  match (s.flow p).firing with
  | none => s
  | some l =>
    let fs := (l.codes.filter fun e => e.2 == 1 && e.1 % 16 == s.ord p k).map (·.1)
    let ok := (s.port p).st == .printing && s.fbit Reg.HL_CTL_DRIFT_EN p && (s.flow p).phase == k &&
      !fs.isEmpty && s.driftPhase p l (l.t0.getD 0) k fs
    if !ok then s
    else
      let h := (s.port p).health
      let qs := fs.map (· / 16)
      let eps := (y : Rat) - qs.foldl (fun a q => a + h.g q) 0
      let step := eps / (2 ^ s.fget Reg.HL_DRIFT_CFG_MU p : Nat) / (fs.length : Nat)
      let s := s.modHealth p fun h =>
        { h with cond := qs.foldl (fun m q => Sparse.put (fun _ => 0) m q (holdG (h.g q + step))) h.cond }
      s.fadd Reg.HL_DRIFT_N_COUNT 1 p

/-- DRIFT_MEASURE. -/
def execDriftMeasure (t : Time) (port k : Nat) (y : Int) (s : State) : Host.Outcome State Fault Refusal :=
  let s := s.at t
  done (s.onPort port fun s => s.driftMeasure port k y)

end Sys2Proof.Machine
end

