-- ==== Sys2Proof/Machine/Motion.lean ====
section
/-! DEFINITION. Motion (R252 to R286): the axis states and commands, the profile generator, stopping, homing, PVT runs,
interpolation sets, the current and load-angle rules, and the PWM period. Positions are held in 2⁻¹⁶ microsteps (R252),
velocities too. -/

namespace Sys2Proof.Machine

/-- R257: the tick, in seconds. -/
def tickS : Rat := 1 / 10000

/-- R255: f_pwm of motion group g, in Hz. -/
def State.fpwm (s : State) (g : Nat) : Nat :=
  let f := s.fget Reg.MGP_PWM_FREQ g
  10000 * if 2 ≤ f ∧ f ≤ 8 then f else 4

/-- R257, R260: VMAX, held to 128 × f_pwm. -/
def State.vmax (s : State) (a : Nat) : Rat := (min (s.fget Reg.AX_VMAX_VMAX a) (128 * s.fpwm (a / 12)) : Nat)
/-- R257: ACC. -/
def State.acc (s : State) (a : Nat) : Rat := (s.fget Reg.AX_ACC_ACC a : Nat)
/-- R257: DEC. -/
def State.dec (s : State) (a : Nat) : Rat := (s.fget Reg.AX_DEC_DEC a : Nat)
/-- R284: QDEC; 0 is taken as DEC. -/
def State.qdec (s : State) (a : Nat) : Rat :=
  let q := s.fget Reg.AX_QDEC_QDEC a
  if q = 0 then s.dec a else (q : Nat)

/-- A signed 32-bit register field. -/
def State.sget (s : State) (f : Fld) (a : Nat) : Int := signed 32 (s.fget f a)

/-- R257: TARGET of the move of axis a. -/
def State.targetOf (s : State) (a : Nat) : Rat :=
  let x := s.axis a
  if x.ownTarget then x.target else (s.sget Reg.AX_TARGET_TARGET a : Rat)

/-- R252: a position as it is held. One that the format cannot hold has no stated value: it is the free value (log 8). -/
def posFit (free : Nat) (x : Rat) : Rat :=
  let y := fix 4 16 x
  if -(2 ^ 31 : Int) ≤ y ∧ y < (2 ^ 31 : Int) then y else (signed 48 free : Rat) / 65536

/-- R264: the encoder channel of axis a. -/
def State.encOf (s : State) (a : Nat) : Option Nat :=
  let c := s.fget Reg.AX_ENC_ENC_CH a
  if c < 96 then some c else none

/-- R264: the encoder's channel is in RUN. -/
def State.encRun (s : State) (a : Nat) : Bool :=
  match s.encOf a with
  | some c => (s.chan c).st == .run
  | none => false

/-- R264: the count of the encoder of axis a. -/
def State.encCount (s : State) (a : Nat) : Int :=
  match s.encOf a with
  | some c => (s.chan c).count
  | none => 0

/-- R264: pe. -/
def State.pe (s : State) (a : Nat) : Rat :=
  (s.axis a).eb + ((s.encCount a - (s.axis a).er : Int) : Rat) * (s.sget Reg.AX_ENC_SCALE_SCALE a : Rat) / 65536

/-- R264: EB and ER are latched so that pe = p. -/
def State.latchEnc (s : State) (a : Nat) : State :=
  s.modAxis a fun x => { x with eb := x.p, er := s.encCount a, peLast := x.p }

/-- R271, R276: an input is active at a qualified level. -/
def State.limActive (s : State) (a : Nat) (w : LimitInput) : Bool :=
  let (lvl, bit) := match w with
    | .limn => ((s.axis a).limn, 0)
    | .limp => ((s.axis a).limp, 1)
  match lvl with
  | some l => l != (s.fget Reg.AX_CFG_LIM_POL a).testBit bit
  | none => false

/-- R271: motion in a direction runs toward an active limit. -/
def State.intoLimit (s : State) (a : Nat) (r : Rat) : Bool :=
  s.fbit Reg.AX_CFG_LIM_EN a &&
  ((s.limActive a .limp && decide (0 < r)) || (s.limActive a .limn && decide (r < 0)))

/-- R253: the table address of a position. -/
def State.addrOf (s : State) (a : Nat) (q : Rat) : Nat :=
  let n := (q + 1 / 2).floor
  (((if s.fbit Reg.AX_CFG_DIR a then -n else n) + s.fget Reg.AX_CFG_ZERO a) % 1024).toNat

/-- Something happens at axis a, whose island must run. -/
def State.onAxis (s : State) (a : Nat) (f : State → State) : State :=
  if s.present .ax0 a then f (s.latch .ax0 a) else s

/-! ### Commands -/

/-- R256, R382: a FAULT may be left. -/
def State.faultFree (s : State) (a : Nat) : Bool := !(s.axis a).faultSev2 || s.axisAcked a

/-- R281: the valid members of set k of group g: slot and axis. -/
def State.setMembers (s : State) (g k : Nat) : List (Nat × Nat) :=
  ((List.range 8).filter fun i => s.fbit Reg.SET_MEM_VALID g k i).map fun i => (i, s.fget Reg.SET_MEM_AXIS g k i)

/-- R51: an interpolation set that axis a belongs to is moving, with the axis or, after its fault, without it. -/
def State.setMoves (s : State) (a : Nat) : Bool :=
  (List.range 16).any fun j => (s.mset (j / 2) (j % 2)).active && (s.setMembers (j / 2) (j % 2)).any fun e => e.2 == a

/-- R51, R256, R270: SVC_ENTER. -/
def specAxSvcEnter (s : State) (a : Nat) : CmdSpec :=
  { legal := !s.setMoves a && match (s.axis a).st with
      | .off | .disabled | .standstill => true
      | .fault => s.faultFree a
      | _ => false
    eff := fun s => s.modAxis a fun x =>
      { (if x.enabled then x.disable .service else { x with st := .service, enTill := 0 }) with remainV := false, faultSev2 := false } }

/-- AX_SVC_ENTER. -/
def execAxSvcEnter (t : Time) (m : Master) (ax : Nat) (s : State) : Host.Outcome State Fault Refusal :=
  let s := s.at t
  done ((s.onAxis ax id).command m .ax0 ax 0x10 0 false (some (specAxSvcEnter s ax)))

/-- R256: SVC_LEAVE and its configuration checks. -/
def specAxSvcLeave (s : State) (a : Nat) : CmdSpec :=
  let c := s.fget Reg.AX_ENC_ENC_CH a
  { legal := (s.axis a).st == .service
    cond := (decide (c < 96) || c == 0x7F) && !(s.fbit Reg.AX_FERR_FERR_EN a && c == 0x7F) &&
      s.fget Reg.AX_COIL_COIL_R a != 0
    eff := fun s => s.modAxis a fun x => { x with st := .disabled } }

/-- AX_SVC_LEAVE. -/
def execAxSvcLeave (t : Time) (m : Master) (ax : Nat) (s : State) : Host.Outcome State Fault Refusal :=
  let s := s.at t
  done ((s.onAxis ax id).command m .ax0 ax 0x11 0 false (some (specAxSvcLeave s ax)))

/-- R256, R270: OFF. -/
def specAxOff (s : State) (a : Nat) : CmdSpec :=
  { legal := (s.axis a).st == .service || (s.axis a).st == .disabled
    eff := fun s => s.modAxis a fun x => { x with st := .off, remainV := false } }

/-- AX_OFF. -/
def execAxOff (t : Time) (m : Master) (ax : Nat) (s : State) : Host.Outcome State Fault Refusal :=
  let s := s.at t
  done ((s.onAxis ax id).command m .ax0 ax 0x13 0 false (some (specAxOff s ax)))

/-- R272: KEEP: the held address is driven again; with an encoder in RUN, the position is checked first. -/
def State.enableKeep (s : State) (a : Nat) : State :=
  let x := s.axis a
  let pe := s.pe a
  if s.encRun a ∧ (s.fget Reg.AX_KEEP_TOL_KEEP_TOL a : Rat) < absRat (pe - x.p) then
    let p := posFit s.drawn ((pe + 1 / 2).floor : Rat)
    (s.drew.setAxis a { x with p := p, pPrev := p, q := p, homed := false, remainV := false, addr := s.addrOf a p,
                               peLast := pe }).raise Reg.AX0_CAUSE_POS_CHK a
  else s.setAxis a { x with addr := x.heldAddr, pPrev := x.p, q := x.p, peLast := pe }

/-- R272: LOSE: the address goes to the nearest full step, and p moves with it. -/
def State.enableLose (s : State) (a : Nat) : State :=
  let x := s.axis a
  let dest := (x.heldAddr + 128) / 256 * 256
  let d : Int := (dest : Int) - x.heldAddr
  let p := posFit s.drawn (x.p + (if s.fbit Reg.AX_CFG_DIR a then -d else d))
  (s.drew.setAxis a
    { x with p := p, pPrev := p, q := p, addr := dest % 1024, homed := false, remainV := false }).latchEnc a

/-- R256, R272, R376: ENABLE; under Device Safe the axis enters FAULT instead. -/
def specEnable (s : State) (a : Nat) : CmdSpec :=
  { legal := (s.axis a).st == .disabled && !(s.mgroup (a / 12)).vbusFault
    eff := fun s =>
      if s.kps.dsafe then s.modAxis a fun x => { x with st := .fault, faultSev2 := true }
      else
        (if s.fbit Reg.AX_CFG_STBY_MODE a then s.enableLose a else s.enableKeep a).modAxis a fun x =>
          { x with st := .standstill, stillTicks := 0, moved := false, stallRun := 0, ferrRun := 0, enAt := s.now } }

/-- ENABLE. -/
def execEnable (t : Time) (m : Master) (ax : Nat) (s : State) : Host.Outcome State Fault Refusal :=
  let s := s.at t
  done ((s.onAxis ax id).command m .ax0 ax 0x20 0 (s.gatedMotion (ax / 12)) (some (specEnable s ax)))

/-- R255: the length of a PWM period of motion group g, in ps. -/
def State.tpwm (s : State) (g : Nat) : Rat := 1000000000000 / (s.fpwm g : Rat)

/-- R256, R272, R466: DISABLE: the bridge pins are low at once; AXnn_EN stays high for one PWM period more. -/
def specDisable (s : State) (a : Nat) : CmdSpec :=
  { legal := (s.axis a).st == .standstill
    eff := fun s => s.modAxis a fun x => { x.disable .disabled with enTill := s.now + (s.tpwm (a / 12)).ceil.toNat } }

/-- DISABLE. -/
def execDisable (t : Time) (m : Master) (ax : Nat) (s : State) : Host.Outcome State Fault Refusal :=
  let s := s.at t
  done ((s.onAxis ax id).command m .ax0 ax 0x21 0 false (some (specDisable s ax)))

/-- The direction of the first motion of a move to `r` from the present position. -/
def firstMotion (v r : Rat) : Rat := if v = 0 then r else v

/-- R256 to R259, R271: MOVE. -/
def specMove (s : State) (a : Nat) : CmdSpec :=
  let x := s.axis a
  let r := (s.sget Reg.AX_TARGET_TARGET a : Rat) - x.p
  { legal := (x.st == .standstill || x.st == .moving) && x.inSet.isNone && x.pvt.isNone &&
      !s.intoLimit a (firstMotion x.v r)
    cond := s.fget Reg.AX_ACC_ACC a != 0 && s.fget Reg.AX_DEC_DEC a != 0
    eff := fun s => s.modAxis a fun x => { x with st := .moving, ownTarget := false, remainV := false } }

/-- MOVE. -/
def execMove (t : Time) (m : Master) (ax : Nat) (s : State) : Host.Outcome State Fault Refusal :=
  let s := s.at t
  done ((s.onAxis ax id).command m .ax0 ax 0x22 0 false (some (specMove s ax)))

/-- R269: the axis begins a stop: of a move, which keeps REMAIN, or of homing or a PVT run, which leaves it clear. -/
def Axis.beginStop (x : Axis) (k : StopKind) : Axis :=
  { x with
    st := .stopping, stop := k, moveStop := x.st == .moving && x.pvt.isNone
    remainV := if x.st == .moving && x.pvt.isNone then x.remainV else false
    pvt := none, homePhase := .none, qHist := [] }

/-- R271: a limit trip outside homing: QSTOP and LIMIT; in a set, the set brakes at its QDEC (R283). -/
def State.limitTrip (s : State) (a : Nat) : State :=
  let x := s.axis a
  let s := s.raise Reg.AX0_CAUSE_LIMIT a
  match x.inSet with
  | some k => s.brakeSet k
  | none => if x.st = .stopping then s.setAxis a { x with stop := .qdec } else s.setAxis a (x.beginStop .qdec)

/-- R256, R269, R271, R283: STOP and QSTOP; an axis that runs toward an active limit trips at once. -/
def specStopAxis (s : State) (a : Nat) (k : StopKind) : CmdSpec :=
  let x := s.axis a
  { legal := (x.st == .moving || x.st == .homing) && x.inSet.isNone
    eff := fun s => (s.modAxis a fun x => x.beginStop k).when (s.intoLimit a x.v) fun s => s.limitTrip a }

/-- AX_STOP. -/
def execAxStop (t : Time) (m : Master) (ax : Nat) (s : State) : Host.Outcome State Fault Refusal :=
  let s := s.at t
  done ((s.onAxis ax id).command m .ax0 ax 0x23 0 false (some (specStopAxis s ax .dec)))

/-- QSTOP. -/
def execQstop (t : Time) (m : Master) (ax : Nat) (s : State) : Host.Outcome State Fault Refusal :=
  let s := s.at t
  done ((s.onAxis ax id).command m .ax0 ax 0x25 0 false (some (specStopAxis s ax .qdec)))

/-- R256, R270, R271: RESUME. -/
def specResume (s : State) (a : Nat) : CmdSpec :=
  let x := s.axis a
  { legal := x.st == .standstill && x.remainV && !s.intoLimit a x.remain
    eff := fun s => s.modAxis a fun x =>
      { x with st := .moving, ownTarget := true, target := x.p + x.remain, remainV := false } }

/-- RESUME. -/
def execResume (t : Time) (m : Master) (ax : Nat) (s : State) : Host.Outcome State Fault Refusal :=
  let s := s.at t
  done ((s.onAxis ax id).command m .ax0 ax 0x24 0 false (some (specResume s ax)))

/-- R274: the home switch of axis a. -/
def State.homeSwitch (s : State) (a : Nat) : LimitInput :=
  if s.fget Reg.AX_HOME_CFG_SRC a = 0 then .limn else .limp

/-- R256, R274: HOME. -/
def specHome (s : State) (a : Nat) : CmdSpec :=
  let mode := s.fget Reg.AX_HOME_CFG_MODE a
  let idxOk := match s.encOf a with
    | some c => s.fbit Reg.FBK_CFG_IDX_EN c
    | none => false
  { legal := (s.axis a).st == .standstill
    cond := mode != 3 && decide (s.fget Reg.AX_HOME_CFG_SRC a ≤ 1) && (mode == 0 || idxOk)
    eff := fun s =>
      let first : HomePhase := if mode = 1 then .index
        else if s.limActive a (s.homeSwitch a) then .release else .search
      s.modAxis a fun x =>
        { x with st := .homing, homePhase := first, homeTravel := 0, homeRev := false, chatter := 0, qHist := []
                 homed := false, remainV := false } }

/-- HOME. -/
def execHome (t : Time) (m : Master) (ax : Nat) (s : State) : Host.Outcome State Fault Refusal :=
  let s := s.at t
  done ((s.onAxis ax id).command m .ax0 ax 0x26 0 false (some (specHome s ax)))

/-- R277: a segment: its ticks, whether it is the last, its end position and velocity. -/
structure PvtSeg where
  dur : Nat
  last : Bool
  pos : Rat
  vel : Rat
  deriving DecidableEq, Repr

/-- R277: segment j of motion group g. -/
def State.pvtSeg (s : State) (g j : Nat) : PvtSeg :=
  let w (k : Nat) : Nat := (s.pvtWord g (4 * j + k)).toNat
  ⟨w 0 % 65536, (w 0).testBit 16, (signed 32 (w 1) : Rat), (signed 32 (w 2) : Rat)⟩

/-- R35: segment j of motion group g is read: its correctable words are corrected and counted. -/
def State.readSeg (s : State) (g j : Nat) : State := s.correct .pvt [512 * g + 2 * j, 512 * g + 2 * j + 1]

/-- R278: the curve at τ = t / T: position and velocity. -/
def PvtSeg.at (x : PvtSeg) (p0 v0 : Rat) (t : Nat) : Rat × Rat :=
  let T := (x.dur : Rat) * tickS
  let u := (t : Rat) / (x.dur : Rat)
  let u2 := u * u
  let u3 := u2 * u
  ((2 * u3 - 3 * u2 + 1) * p0 + (u3 - 2 * u2 + u) * T * v0 + (-2 * u3 + 3 * u2) * x.pos + (u3 - u2) * T * x.vel,
   (6 * u2 - 6 * u) * p0 / T + (3 * u2 - 4 * u + 1) * v0 + (-6 * u2 + 6 * u) * x.pos / T + (3 * u2 - 2 * u) * x.vel)

/-- R279: the check of segment j from (p0, v0). -/
def State.pvtOk (s : State) (a j : Nat) (p0 v0 : Rat) : Bool :=
  let x := s.pvtSeg (a / 12) j
  if x.dur = 0 then false
  else
    let T := (x.dur : Rat) * tickS
    let a0 := (6 * (x.pos - p0) - 2 * T * (2 * v0 + x.vel)) / (T * T)
    let a1 := (-6 * (x.pos - p0) + 2 * T * (v0 + 2 * x.vel)) / (T * T)
    let amax : Rat := (s.fget Reg.AX_PVT_AMAX_AMAX a : Nat)
    let vm := s.vmax a
    let u := a0 / (a0 - a1)
    let vi := v0 + a0 * u * T + (a1 - a0) * u * u * T / 2
    decide (absRat a0 ≤ amax) && decide (absRat a1 ≤ amax) && decide (absRat v0 ≤ vm) && decide (absRat x.vel ≤ vm) &&
    (!decide (a0 * a1 < 0) || decide (absRat vi ≤ vm))

/-- R256, R278, R279: PVT_START. -/
def specPvtStart (s : State) (a arg : Nat) : CmdSpec :=
  let j := argField arg 7 0
  { legal := (s.axis a).st == .standstill
    cond := a % 12 == 0 && s.pvtOk a j (s.axis a).p 0
    eff := fun s => (s.readSeg (a / 12) j).modAxis a fun x =>
      { x with st := .moving, pvt := some ⟨j, 0, x.p, 0⟩, remainV := false } }

/-- PVT_START. -/
def execPvtStart (t : Time) (m : Master) (ax arg : Nat) (s : State) : Host.Outcome State Fault Refusal :=
  let s := s.at t
  done ((s.onAxis ax id).command m .ax0 ax 0x27 arg false (some (specPvtStart s ax arg)))

/-- R256, R264: SET_POS. -/
def specSetPos (s : State) (a : Nat) : CmdSpec :=
  { legal := (s.axis a).st == .disabled || (s.axis a).st == .standstill
    eff := fun s =>
      let p : Rat := (s.sget Reg.AX_SETPOS_POS a : Rat)
      (s.modAxis a fun x => { x with p := p, pPrev := p, q := p, homed := true, remainV := false }).latchEnc a }

/-- SET_POS. -/
def execSetPos (t : Time) (m : Master) (ax : Nat) (s : State) : Host.Outcome State Fault Refusal :=
  let s := s.at t
  done ((s.onAxis ax id).command m .ax0 ax 0x28 0 false (some (specSetPos s ax)))

/-- R256: CLR_FAULT. -/
def specClrFault (s : State) (a : Nat) : CmdSpec :=
  { legal := (s.axis a).st == .fault && s.faultFree a
    eff := fun s => s.modAxis a fun x => { x with st := .disabled, faultSev2 := false } }

/-- CLR_FAULT. -/
def execClrFault (t : Time) (m : Master) (ax : Nat) (s : State) : Host.Outcome State Fault Refusal :=
  let s := s.at t
  done ((s.onAxis ax id).command m .ax0 ax 0x29 0 false (some (specClrFault s ax)))

/-! ### The profile generator -/

/-- R257: what one tick does to a point-to-point move: the way made, the new velocity, and whether it lands. -/
structure Planned where
  dp : Rat
  v : Rat
  land : Bool
  deriving DecidableEq, Repr

/-- R257: one tick of a move over the remaining way r at velocity v. -/
def planStep (r v vmax acc dec : Rat) : Planned :=
  let dir : Rat := if 0 < r then 1 else if r < 0 then -1 else if 0 < v then -1 else 1
  let s := dir * v
  let d := dec * tickS
  if s < 0 then
    let s2 := fix 5 16 (min (s + d) 0)
    ⟨dir * (s + s2) / 2 * tickS, dir * s2, false⟩
  else
    let k := absRat r - s * tickS / 2
    let smax := if k < 0 then 0 else (-d + sqrtRat (d * d + 8 * dec * k)) / 2
    let s2 := fix 5 16 (max (s - d) (min (min (s + acc * tickS) vmax) smax))
    let way := (s + s2) / 2 * tickS
    let land := decide (absRat r - way < 1 / 65536) && decide (s2 ≤ d)
    if land then ⟨r, 0, true⟩ else ⟨dir * way, dir * s2, false⟩

/-- R257, R269: one tick of braking by d per tick. -/
def brakeStep (v d : Rat) : Rat := if v < 0 then min (v + d) 0 else max (v - d) 0

/-- The axis takes a step: position and velocity of the tick. -/
def State.stepAxis (s : State) (a : Nat) (p v : Rat) : State :=
  let y := posFit s.drawn p
  s.drew.modAxis a fun x => { x with pPrev := x.p, p := y, v := v }

/-- R256: a move, run or stop has reached standstill; the drive still interpolates its last tick (R260). -/
def State.standDone (s : State) (a : Nat) : State :=
  (s.modAxis a fun x =>
    { x with st := .standstill, stop := .none, moveStop := false, ownTarget := false, pvt := none, v := 0
             inSet := none }).raise Reg.AX0_CAUSE_DONE a

/-- R269: REMAIN is kept at the end of a stop of a move. -/
def State.keepRemain (s : State) (a : Nat) : State :=
  let r := s.targetOf a - (s.axis a).p
  s.modAxis a fun x => { x with remain := r, remainV := r != 0 }

/-- R269, R271: one tick of a stop; toward an active limit it goes on at QDEC. -/
def State.stopTick (s : State) (a : Nat) : State :=
  let s := s.when (s.intoLimit a (s.axis a).v && (s.axis a).stop != .qdec) fun s => s.limitTrip a
  let x := s.axis a
  let v := brakeStep x.v ((if x.stop = .qdec then s.qdec a else s.dec a) * tickS)
  let s := s.stepAxis a (x.p + (x.v + v) / 2 * tickS) v
  if v ≠ 0 then s
  else (if x.moveStop then s.keepRemain a else s).standDone a

/-- R257: one tick of a point-to-point move. -/
def State.moveTick (s : State) (a : Nat) : State :=
  let x := s.axis a
  let r := s.targetOf a - x.p
  if s.intoLimit a x.v ∨ s.intoLimit a r then (s.limitTrip a).stopTick a
  else if r = 0 ∧ x.v = 0 then s.standDone a
  else
    let n := planStep r x.v (s.vmax a) (s.acc a) (s.dec a)
    s.stepAxis a (if n.land then s.targetOf a else x.p + n.dp) n.v

/-- R278, R279: the end of segment j of the run: the run ends, goes on with the next segment, or rejects it. -/
def State.pvtNext (s : State) (a j : Nat) (g : PvtSeg) : State :=
  let brake (s : State) : State := s.modAxis a fun x => x.beginStop .dec
  if g.last ∨ j = 255 then
    (if g.vel = 0 then s.standDone a else (brake s).raise Reg.AX0_CAUSE_PVT_VEND a)
  else
    let ok := s.pvtOk a (j + 1) g.pos g.vel
    let s := s.readSeg (a / 12) (j + 1)
    if ok then s.modAxis a fun x => { x with pvt := some ⟨j + 1, 0, g.pos, g.vel⟩ }
    else (brake (s.modAxis a fun x => { x with badSeg := j + 1 })).raise Reg.AX0_CAUSE_PVT_REJ a

/-- R271, R278: one tick of a PVT run. -/
def State.pvtTick (s : State) (a : Nat) (r : PvtRun) : State :=
  let x := s.axis a
  if s.intoLimit a x.v then (s.limitTrip a).stopTick a
  else
    let g := s.pvtSeg (a / 12) r.seg
    let t := r.tick + 1
    if g.dur ≤ t then (s.stepAxis a g.pos g.vel).pvtNext a r.seg g
    else
      let (p, v) := g.at r.p0 r.v0 t
      (s.stepAxis a p (fix 5 16 v)).modAxis a fun x => { x with pvt := some { r with tick := t } }

/-- R275: homing fails: the axis stops at QDEC with HOMED clear. -/
def State.homeFail (s : State) (a : Nat) : State :=
  (s.modAxis a fun x => { x.beginStop .qdec with homed := false }).raise Reg.AX0_CAUSE_HOME_FAIL a

/-- R274 H4: the home edge lies at HOME_POS from now on; the tick that is still to be driven (R260) shifts with it. -/
def State.homeSet (s : State) (a : Nat) : State :=
  let x := s.axis a
  let d := (s.sget Reg.AX_HOME_POS_POS a : Rat) - x.homeEdge
  let p := posFit s.drawn (x.p + d)
  ((s.drew.setAxis a
    { x with p := p, pPrev := x.pPrev + (p - x.p), q := x.q + (p - x.p), homed := true, st := .standstill
             homePhase := .none, qHist := [], v := 0 }).latchEnc a).raise Reg.AX0_CAUSE_HOMED a

/-- R274, R275: direction and speed of a homing phase. -/
def State.homePlan (s : State) (a : Nat) : Rat × Rat :=
  let x := s.axis a
  let d : Rat := if s.fbit Reg.AX_HOME_CFG_DIR a then 1 else -1
  let cap (f : Fld) : Rat := (min (s.fget f a) (128 * s.fpwm (a / 12)) : Nat)
  match x.homePhase with
  | .search => (if x.homeRev then -d else d, cap Reg.AX_HOME_V1_V1)
  | .release => (-d, cap Reg.AX_HOME_V2_V2)
  | .index => (if s.fget Reg.AX_HOME_CFG_MODE a = 1 then d else -d, cap Reg.AX_HOME_V2_V2)
  | _ => (0, 0)

/-- R274: a step toward a speed in a direction: braking first where the axis still moves against it. -/
def seekStep (v d speed acc dec brake : Rat) : Rat :=
  let s := d * v
  if s < 0 then d * min (s + brake * tickS) 0
  else if s ≤ speed then d * min (s + acc * tickS) speed
  else d * max (s - dec * tickS) speed

/-- R274, R275: one tick of a homing run: H2 begins when H1 has stopped, H4 acts when the axis has. -/
def State.homeTick (s : State) (a : Nat) : State :=
  let x := s.axis a
  let v := match x.homePhase with
    | .settle | .halt | .none => brakeStep x.v (s.dec a * tickS)
    | ph =>
      let (d, speed) := s.homePlan a
      seekStep x.v d speed (s.acc a) (s.dec a) (if ph = .search ∧ x.homeRev then s.qdec a else s.dec a)
  let way := (x.v + v) / 2 * tickS
  let s := (s.stepAxis a (x.p + way) v).modAxis a fun y => { y with homeTravel := y.homeTravel + absRat way }
  if (s.fget Reg.AX_HOME_MAX_MAX a : Rat) < (s.axis a).homeTravel then s.homeFail a
  else if v ≠ 0 then s
  else match x.homePhase with
    | .settle => s.homeSet a
    | .halt => s.modAxis a fun y => { y with homePhase := .release }
    | _ => s

/-- R268: a following error has lasted: FERR, and axis FAULT or Device Safe, as FERR_ACT selects. -/
def State.ferrTrip (s : State) (a : Nat) : State :=
  let s := s.raise Reg.AX0_CAUSE_FERR a
  if s.fbit Reg.AX_FERR_FERR_ACT a then (s.send 3 a kindMotion 3 a).deviceSafe (msgWord 3 a kindMotion 3 a) false
  else (s.send 3 a kindMotion 2 a).axisFault a true

/-- R268: the following error is evaluated at every tick of an enabled axis. -/
def State.ferrTick (s : State) (a : Nat) : State :=
  let x := s.axis a
  let pe := s.pe a
  let ve := (pe - x.peLast) / tickS
  let s := s.setAxis a { x with peLast := pe }
  if !s.fbit Reg.AX_FERR_FERR_EN a then s.setAxis a { x with peLast := pe, ferrRun := 0 }
  else
    let bad := !s.encRun a || decide ((s.fget Reg.AX_FERR_FERR_MAX a : Rat) < absRat (x.q - pe)) ||
      decide ((s.fget Reg.AX_RUN_VTOL_RUN_VTOL a : Rat) < absRat (ve - x.v))
    let run := if bad then x.ferrRun + 1 else 0
    if run < max 1 (s.fget Reg.AX_FERR_FERR_N a) then s.setAxis a { x with peLast := pe, ferrRun := run }
    else (s.setAxis a { x with peLast := pe, ferrRun := 0 }).ferrTrip a

/-- R266: I_SET at a tick; `still` says that the axis stands. -/
def State.currentTick (s : State) (a : Nat) : State :=
  let x := s.axis a
  let hold := s.fget Reg.AX_I_HOLD_I_HOLD a
  let ceil := s.fget Reg.AX_LA_CUR_CEIL a
  let step := s.fget Reg.AX_LA_CUR_I_STEP a
  let within (i : Nat) : Nat := min ceil (max hold i)
  if x.v = 0 then
    let n := min (x.stillTicks + 1) (10 * 65536)
    let i := if n < 10 * s.fget Reg.AX_STBY_T_STBY_T a then x.iSet
      else if x.iSet < hold then min hold (x.iSet + step) else max hold (x.iSet - step)
    s.setAxis a { x with stillTicks := n, moved := false, iSet := i }
  else
    let i := if !s.fbit Reg.AX_LA_CUR_LA_EN a then s.fget Reg.AX_I_RUN_I_RUN a
      else if !x.moved then within (s.fget Reg.AX_I_RUN_I_RUN a)
      else if !x.lambdaV then x.iSet
      else if (s.fget Reg.AX_LA_ANG_LA_HI a : Rat) < absRat x.lambda then within (x.iSet + step)
      else if absRat x.lambda < (s.fget Reg.AX_LA_ANG_LA_LO a : Rat) then within (x.iSet - step)
      else within x.iSet
    s.setAxis a { x with stillTicks := 0, moved := true, iSet := i }

/-- R257: the motion of one axis at a tick; a set moves its own members (R282). -/
def State.motionTick (s : State) (a : Nat) : State :=
  let x := s.axis a
  if x.inSet.isSome then s
  else match x.st, x.pvt with
    | .moving, some r => s.pvtTick a r
    | .moving, none => s.moveTick a
    | .homing, _ => s.homeTick a
    | .stopping, _ => s.stopTick a
    | _, _ => s.setAxis a { x with v := 0 }

/-- R257, R266, R268: a profile tick of axis a. -/
def State.axisTick (s : State) (a : Nat) : State :=
  if !(s.axis a).enabled then s
  else
    let s := s.ferrTick a
    if !(s.axis a).enabled then s else (s.motionTick a).currentTick a

/-! ### Interpolation sets -/

/-- R282: every member of set k of group g follows the leader's distance. A member of another group is marked as stepped. -/
def State.driveSet (s : State) (g k : Nat) : State :=
  let m := s.mset g k
  m.members.foldl (fun s e =>
    let (_, a, d) := e
    let x := s.axis a
    let s := s.stepAxis a (fix 8 16 (x.setStart + d * m.s / m.leadLen)) (fix 5 16 (d * m.v / m.leadLen))
    if a / 12 = g then s else s.modAxis a fun x => { x with setStepAt := some s.now }) s

/-- R281: the set is over: its members stand. -/
def State.endSet (s : State) (g k : Nat) (stopped : Bool) : State :=
  let m := s.mset g k
  let s := m.members.foldl (fun s e => (if stopped then s.keepRemain e.2.1 else s).standDone e.2.1) s
  let s := s.modMset g k fun m => { m with active := false, members := [], v := 0, stop := .none, startIn := 0 }
  if stopped then s else s.raise Reg.MGP_CAUSE_SET_DONE g

/-- R271, R283: a member of the set runs toward an active limit. -/
def State.setTrips (s : State) (g k : Nat) : List Nat :=
  ((s.mset g k).members.map (·.2.1)).filter fun a =>
    s.intoLimit a (s.axis a).v || s.intoLimit a (s.targetOf a - (s.axis a).p)

/-- R282: an effective limit: the least of the members' own, as the leader sees them. -/
def effLimit (lead : Rat) (l : List (Nat × Rat)) (f : Nat → Rat) : Rat :=
  minRat ((l.filter fun e => e.2 != 0).map fun e => f e.1 * lead / absRat e.2)

/-- R282: an effective limit of set k of group g, of its members' present values (R257). -/
def State.setLimit (s : State) (g k : Nat) (f : Nat → Rat) : Rat :=
  effLimit (s.mset g k).leadLen ((s.mset g k).members.map fun e => (e.2.1, e.2.2)) f

/-- R282: SET_VMAX, SET_ACC and SET_DEC show the effective limits. -/
def State.showLimits (s : State) (g k : Nat) : State :=
  ((s.fput Reg.SET_VMAX_VMAX (satU 24 (fixInt 7 (s.setLimit g k s.vmax)).toNat) g k).fput Reg.SET_ACC_ACC
    (satU 32 (fixInt 7 (s.setLimit g k s.acc)).toNat) g k).fput Reg.SET_DEC_DEC
    (satU 32 (fixInt 7 (s.setLimit g k s.dec)).toNat) g k

/-- R283: a member is left that the set moves; after faults (axisFault) there may be none, and the set has nothing to brake. -/
def MSet.moves (m : MSet) : Bool := m.members.any fun e => e.2.2 != 0

/-- R282, R283: one tick of set k of group g. Members start on the second tick after SET_MOVE. -/
def State.setTick (s : State) (g k : Nat) : State :=
  if !(s.mset g k).active then s
  else if 1 < (s.mset g k).startIn then s.modMset g k fun m => { m with startIn := m.startIn - 1 }
  else
    let s := s.showLimits g k
    let s := if (s.mset g k).stop = .qdec then s else s.forEach (s.setTrips g k) State.limitTrip
    let m := s.mset g k
    let r := m.leadLen - m.s
    if m.stop = .none ∧ r = 0 ∧ m.v = 0 then s.endSet g k false
    else if m.stop = .none then
      let n := planStep r m.v (s.setLimit g k s.vmax) (s.setLimit g k s.acc) (s.setLimit g k s.dec)
      (s.modMset g k fun m => { m with startIn := 0, s := if n.land then m.leadLen else m.s + n.dp, v := n.v }).driveSet g k
    else
      let v := if !m.moves then 0 else brakeStep m.v ((if m.stop = .qdec then s.setLimit g k s.qdec else s.setLimit g k s.dec) * tickS)
      let s := (s.modMset g k fun m => { m with startIn := 0, s := m.s + (m.v + v) / 2 * tickS, v := v }).driveSet g k
      if v = 0 then s.endSet g k true else s

/-- R255, R260: in the present profile tick a set of another group, whose tick coincides, has stepped axis a already: its
p(k−1) stands. -/
def State.steppedNow (s : State) (a : Nat) : Bool :=
  match (s.axis a).setStepAt with
  | some t => decide (s.now < t + 50 * us)
  | none => false

/-- R257, R260: PROFILE_TICK of motion group g: p(k−1) is the position so far; then its sets, then its axes. -/
def State.profileTick (s : State) (g : Nat) : State :=
  let s := s.modMgroup g fun x => { x with period := 0 }
  let s := s.forEach ((members g).filter fun a => (s.axis a).enabled && !s.steppedNow a) fun s a =>
    s.modAxis a fun x => { x with pPrev := x.p }
  let s := (s.setTick g 0).setTick g 1
  s.forEach (members g) State.axisTick

/-- PROFILE_TICK. -/
def execProfileTick (t : Time) (g : Nat) (s : State) : Host.Outcome State Fault Refusal :=
  let s := s.at t
  done (if s.present .mgp g then s.profileTick g else s)

/-- R281: every valid member stands, in no other active set. -/
def State.membersStand (s : State) (g k : Nat) : Bool :=
  !(s.mset g k).active && (s.setMembers g k).all fun e =>
    decide (96 ≤ e.2) || ((s.axis e.2).st == .standstill && (s.axis e.2).inSet.isNone)

/-- R281: the leader: the slot and |Δ| of the largest; the lowest slot wins a tie. -/
def leaderOf (l : List (Nat × Nat × Rat)) : Nat × Rat :=
  l.foldl (fun b e => if b.2 < absRat e.2.2 then (e.1, absRat e.2.2) else b) (0, 0)

/-- R281, R282: a set starts over the distances Δ of its members (slot, axis, Δ). -/
def State.startSet (s : State) (g k : Nat) (ms : List (Nat × Nat × Rat)) : State :=
  let (lead, len) := leaderOf ms
  if len = 0 then s.raise Reg.MGP_CAUSE_SET_DONE g
  else
    let s := (s.modMset g k fun _ =>
      { active := true, lead := lead, leadLen := len, s := 0, v := 0, members := ms, stop := .none, startIn := 2 }).showLimits g k
    ms.foldl (fun s e => s.modAxis e.2.1 fun x =>
      { x with st := .moving, ownTarget := true, target := x.p + e.2.2, remainV := false, inSet := some (2 * g + k)
               setStart := x.p }) s

/-- R281, R286: SET_MOVE. -/
def specSetMove (s : State) (g arg : Nat) : CmdSpec :=
  let k := arg % 2
  { legal := s.membersStand g k
    cond := (s.setMembers g k).all fun e => decide (e.2 < 96)
    eff := fun s => s.startSet g k ((s.setMembers g k).map fun e =>
      (e.1, e.2, (s.sget Reg.AX_TARGET_TARGET e.2 : Rat) - (s.axis e.2).p)) }

/-- SET_MOVE. -/
def execSetMove (t : Time) (m : Master) (g arg : Nat) (s : State) : Host.Outcome State Fault Refusal :=
  let s := s.at t
  done (s.command m .mgp g 0x01 arg (s.gatedMotion g) (some (specSetMove s g arg)))

/-- R283, R286: SET_STOP. -/
def specSetStop (s : State) (g arg : Nat) : CmdSpec :=
  let k := arg % 2
  { legal := (s.mset g k).active
    eff := fun s => s.modMset g k fun m => if m.stop = .none then { m with stop := .dec } else m }

/-- SET_STOP. -/
def execSetStop (t : Time) (m : Master) (g arg : Nat) (s : State) : Host.Outcome State Fault Refusal :=
  let s := s.at t
  done (s.command m .mgp g 0x02 arg false (some (specSetStop s g arg)))

/-- R283: every valid member of a set has REMAIN_V. -/
def State.allRemain (s : State) (g k : Nat) : Bool := (s.setMembers g k).all fun e => (s.axis e.2).remainV

/-- R286: REMAIN_V of a set: it has valid members, and each has REMAIN_V. -/
def State.setRemainV (s : State) (g k : Nat) : Bool := !(s.setMembers g k).isEmpty && s.allRemain g k

/-- R283, R286: SET_RESUME. -/
def specSetResume (s : State) (g arg : Nat) : CmdSpec :=
  let k := arg % 2
  { legal := s.membersStand g k && s.allRemain g k
    cond := (s.setMembers g k).all fun e => decide (e.2 < 96)
    eff := fun s => s.startSet g k ((s.setMembers g k).map fun e => (e.1, e.2, (s.axis e.2).remain)) }

/-- SET_RESUME. -/
def execSetResume (t : Time) (m : Master) (g arg : Nat) (s : State) : Host.Outcome State Fault Refusal :=
  let s := s.at t
  done (s.command m .mgp g 0x03 arg (s.gatedMotion g) (some (specSetResume s g arg)))

/-! ### The PWM period -/

/-- R263: the group's voltage in mV lies inside its limits. -/
def State.vbusOk (s : State) (g : Nat) : Bool :=
  let v := (s.mgroup g).vbus
  decide ((s.fget Reg.MGP_VBUS_LIM_VBUS_MIN g : Rat) ≤ v) && decide (v ≤ (s.fget Reg.MGP_VBUS_LIM_VBUS_MAX g : Rat))

/-- R263: VBUS_CLR. -/
def specVbusClr (s : State) (g : Nat) : CmdSpec :=
  { legal := (s.mgroup g).vbusFault
    cond := s.vbusOk g
    eff := fun s => s.modMgroup g fun x => { x with vbusFault := false, outRun := 0 } }

/-- VBUS_CLR. -/
def execVbusClr (t : Time) (m : Master) (g : Nat) (s : State) : Host.Outcome State Fault Refusal :=
  let s := s.at t
  done (s.command m .mgp g 0x04 0 false (some (specVbusClr s g)))

/-- R263: a sample of MGn_VBUS: the mean of the latest eight, scaled to bus mV. The top code of the 10 bits stands for
1.500 V at the pin. -/
def State.sampleVbus (s : State) (g code : Nat) : State :=
  s.modMgroup g fun x =>
    let l := (min code 1023 :: x.samples).take 8
    let mean := ((l.foldl (· + ·) 0 : Nat) : Rat) / (l.length : Nat)
    { x with samples := l, vbus := mean * 1500 / 1023 * (s.fget Reg.MGP_VBUS_SCALE_SCALE g : Nat) / 256 }

/-- R263: a VBUS_FAULT of motion group g, above or below its limits. -/
def State.vbusTrip (s : State) (g : Nat) (high : Bool) : State :=
  let s := (s.modMgroup g fun x => { x with vbusFault := true }).raise
    (if high then Reg.MGP_CAUSE_VBUS_OV else Reg.MGP_CAUSE_VBUS_UV) g
  (s.send 4 g kindVbus 1 (if high then 1 else 0)).groupFault g false

/-- R263: ten PWM periods outside the limits make a VBUS_FAULT. -/
def State.checkVbus (s : State) (g : Nat) : State :=
  let x := s.mgroup g
  if s.vbusOk g then s.modMgroup g fun x => { x with outRun := 0 }
  else
    let n := min (x.outRun + 1) 10
    let s := s.modMgroup g fun x => { x with outRun := n }
    if n < 10 ∨ x.vbusFault then s
    else s.vbusTrip g (decide ((s.fget Reg.MGP_VBUS_LIM_VBUS_MAX g : Rat) < x.vbus))

/-- R264: λ is mapped to the range −512 to 511. -/
def wrapAngle (x : Rat) : Rat := x - 1024 * (((x + 512) / 1024).floor : Rat)

/-- R264, R265: the load angle in a PWM period, and whether it is valid. -/
def State.loadAngle (s : State) (a : Nat) : State :=
  let x := s.axis a
  if s.encRun a then s.setAxis a { x with lambda := wrapAngle (x.q - s.pe a), lambdaV := true }
  else
    let ok := (s.fget Reg.AX_ENC_ENC_CH a == 0x7F) && s.fbit Reg.AX_SNS_SNS_EN a && x.snsAt.isSome &&
      decide ((s.fget Reg.AX_LA_VMIN_LA_VMIN a : Rat) ≤ absRat x.v) && decide (x.snsTurns ≤ 2048)
    s.setAxis a { x with lambdaV := ok }

/-- R261: u before it is limited to 1; the free value where both sides of the quotient are 0. -/
def State.driveRatio (s : State) (a : Nat) : Option Rat :=
  let x := s.axis a
  let w := 2 * pi * absRat (x.p - x.pPrev) / (1024 * tickS)
  let num := (x.iSet : Rat) / 1000 * ((s.fget Reg.AX_COIL_COIL_R a : Rat) / 1000) +
    (s.fget Reg.AX_KE_KE a : Rat) / 1000000 * w
  let bus := (s.mgroup (a / 12)).vbus / 1000
  if bus = 0 then (if num = 0 then some ((s.drawn % 65537 : Nat) / (65536 : Nat)) else none) else some (num / bus)

/-- R254: the pulse of a bridge with duty d in 5 ns steps, rounded to the nearest, negative where the pins are exchanged; one
shorter than MIN_PULSE is not driven. -/
def State.pulseOf (s : State) (g : Nat) (d : Rat) : Int :=
  let n := roundNear 16 (absRat d * s.tpwm g / 5000)
  if n < (s.fget Reg.MGP_PWM_MIN_PULSE g : Int) then 0 else if d < 0 then -n else n

/-- R254, R255, R466: the pulse of duty d in the PWM period that begins now, its edges on the 5 ns grid: member m's carrier
centre lies m × Tpwm / 12 after member 0's, which stands half a period after the beginning (log 148). -/
def State.pulseAt (s : State) (a : Nat) (d : Rat) : BridgePulse :=
  let g := a / 12
  let n := s.pulseOf g d
  let centre := s.tpwm g / 2 + (a % 12 : Nat) * s.tpwm g / 12
  ⟨s.now + 5000 * (roundNear 16 (centre / 5000 - (n.natAbs : Rat) / 2)).toNat, n⟩

/-- R254, R466: the axis drives the pulses of the PWM period that begins now, once AXnn_EN has been high for one period; those
of the period before may still be under way. -/
def State.drivePulses (s : State) (a : Nat) : State :=
  s.modAxis a fun x =>
    let due := decide ((x.enAt : Rat) + s.tpwm (a / 12) ≤ (s.now : Rat))
    let fresh := if due then [(s.pulseAt a x.dutyA, s.pulseAt a x.dutyB)] else []
    { x with pulses := (fresh ++ x.pulses).take 2 }

/-- R254, R466: one pin of a bridge is high now: a pulse on it is under way, and its partner's pulse fell at least 5 ns ago;
pins of a disabled axis, and of one whose motion latch is set, are low. `second` names A2 or B2. -/
def State.bridgePin (s : State) (a : Nat) (bridgeB second : Bool) : Bool :=
  let x := s.axis a
  let under (second : Bool) (more : Nat) : Bool := x.pulses.any fun e =>
    let u := if bridgeB then e.2 else e.1
    decide (u.steps ≠ 0) && decide (second = decide (u.steps < 0)) &&
    decide (u.rise ≤ s.now ∧ s.now < u.rise + 5000 * (u.steps.natAbs + more))
  x.enabled && s.kps.motionClear.contains (a / 12) && under second 0 && !under (!second) 1

/-- R254, R375, R466: AXnn_EN is high while the axis is enabled, and for a period after DISABLE, unless a latch forces it low. -/
def State.enPin (s : State) (a : Nat) : Bool :=
  ((s.axis a).enabled || decide (s.now < (s.axis a).enTill)) && s.kps.motionClear.contains (a / 12)

/-- R261: the duties of both bridges; VSAT is present while u is limited. -/
def State.duties (s : State) (a : Nat) : State :=
  let x := s.axis a
  let u := s.driveRatio a
  let sat := match u with
    | some r => decide (1 < r)
    | none => true
  let r := min 1 (u.getD 1)
  let sin (i : Nat) : Rat := (s.sineOf (a / 12) i : Rat)
  s.drew.setAxis a
    { x with vsat := sat, dutyA := r * sin x.addr / 32768, dutyB := r * sin ((x.addr + 256) % 1024) / 32768 }

/-- R267: a stall: STALL, its count, its message, and what STALL_ACT asks for. -/
def State.stallTrip (s : State) (a : Nat) : State :=
  let keep := s.fget Reg.AX_ENC_ENC_CH a != 0x7F
  let s := s.modAxis a fun x => { x with homed := x.homed && keep, remainV := x.remainV && keep }
  let s := ((s.fadd Reg.AX_STALL_CNT_COUNT 1 a).raise Reg.AX0_CAUSE_STALL a).send 3 a kindStall 1 a
  match s.fget Reg.AX_STALL_STALL_ACT a with
  | 0 => s
  | 1 =>
    match (s.axis a).inSet with
    | some k => s.brakeSet k
    | none => if (s.axis a).st = .moving ∨ (s.axis a).st = .homing then s.modAxis a fun x => x.beginStop .dec else s
  | _ => s.axisFault a false

/-- R267: a stall, counted over PWM periods. -/
def State.stallCheck (s : State) (a : Nat) : State :=
  let x := s.axis a
  let hit := x.iSet == s.fget Reg.AX_LA_CUR_CEIL a && x.lambdaV &&
    decide ((s.fget Reg.AX_STALL_STALL_ANGLE a : Rat) < absRat x.lambda)
  let n := if hit then x.stallRun + 1 else 0
  if n < max 1 (s.fget Reg.AX_STALL_STALL_N a) then s.setAxis a { x with stallRun := n }
  else (s.setAxis a { x with stallRun := 0 }).stallTrip a

/-- R253, R260, R261, R264, R267: one PWM period of an enabled axis: period i of n. -/
def State.pwmAxis (s : State) (a i n : Nat) : State :=
  if !(s.axis a).enabled then s
  else
    let s := s.latch .ax0 a
    let x := s.axis a
    let q := x.pPrev + (x.p - x.pPrev) * (i : Rat) / (n : Rat)
    let s := s.setAxis a
      { x with q := q, addr := s.addrOf a q, snsTurns := min 4096 (x.snsTurns + absRat (q - x.q))
               qHist := if x.st = .homing then ((s.now, q) :: x.qHist).take 100 else [] }
    (((s.loadAngle a).duties a).drivePulses a).stallCheck a

/-- R255, R261, R263: PWM_PERIOD of motion group g. -/
def State.pwmPeriod (s : State) (g code : Nat) : State :=
  let n := s.fpwm g / 10000
  let i := min n ((s.mgroup g).period + 1)
  let s := (s.modMgroup g fun x => { x with period := i }).sampleVbus g code
  let s := s.forEach (members g) fun s a => s.pwmAxis a i n
  s.checkVbus g

/-- PWM_PERIOD. -/
def execPwmPeriod (t : Time) (g vbusCode : Nat) (s : State) : Host.Outcome State Fault Refusal :=
  let s := s.at t
  done (if s.present .mgp g then s.pwmPeriod g vbusCode else s)

/-- R265: SNS_EDGE: with no encoder and SNS_EN, a rising edge sets λ. -/
def execSnsEdge (t : Time) (ax : Nat) (s : State) : Host.Outcome State Fault Refusal :=
  let s := s.at t
  done (s.pins fun s => s.onAxis ax fun s =>
    let x := s.axis ax
    if x.enabled && s.fget Reg.AX_ENC_ENC_CH ax == 0x7F && s.fbit Reg.AX_SNS_SNS_EN ax then
      s.setAxis ax { x with
        snsAt := some s.now, snsTurns := 0, snsAddr := x.addr
        lambda := wrapAngle ((x.addr : Rat) - (s.fget Reg.AX_SNS_SNS_REF ax : Rat)) }
    else s)

/-! ### Limits -/

/-- R274: q at the raw transition that qualifies now. -/
def State.edgeQ (s : State) (a : Nat) : Rat :=
  let x := s.axis a
  let raw := s.now - us * min 1000 (s.fget Reg.AX_HOME_CFG_DEBOUNCE a)
  match x.qHist.find? fun e => decide (e.1 ≤ raw) with
  | some e => e.2
  | none => match x.qHist.getLast? with
    | some e => e.2
    | none => x.q

/-- R274 to R276: a qualified edge during a homing run. -/
def State.homeLimit (s : State) (a : Nat) (w : LimitInput) : State :=
  let x := s.axis a
  let n := x.chatter + 1
  let act := s.limActive a w
  let s := s.setAxis a { x with chatter := n }
  if s.fget Reg.AX_HOME_CFG_CHATTER_MAX a < n then (s.raise Reg.AX0_CAUSE_HOME_CHATTER a).homeFail a
  else if w = s.homeSwitch a then
    match x.homePhase, act with
    | .search, true => s.modAxis a fun x => { x with homePhase := .halt }
    | .release, false =>
      if s.fget Reg.AX_HOME_CFG_MODE a = 0 then
        s.modAxis a fun x => { x with homeEdge := s.edgeQ a, homePhase := .settle }
      else s.modAxis a fun x => { x with homePhase := .index }
    | _, _ => s
  else
    let toward := if w = .limp then decide (0 < firstMotion x.v (s.homePlan a).1) else decide (firstMotion x.v (s.homePlan a).1 < 0)
    if !(act && toward) then s
    else if x.homePhase = .search ∧ s.fbit Reg.AX_HOME_CFG_REVERSE_ON_LIMIT a ∧ !x.homeRev then
      s.modAxis a fun x => { x with homeRev := true }
    else s.homeFail a

/-- R271, R276: LIMIT_QUALIFY: an input qualifies at a new level. -/
def State.limitQualify (s : State) (a : Nat) (w : LimitInput) (level : Bool) : State :=
  let x := s.axis a
  let old := match w with
    | .limn => x.limn
    | .limp => x.limp
  if old = some level then s
  else
    let s := match w with
      | .limn => s.setAxis a { x with limn := some level }
      | .limp => s.setAxis a { x with limp := some level }
    match x.st with
    | .homing => s.homeLimit a w
    | .moving | .stopping =>
      if s.limActive a w && s.intoLimit a x.v then s.limitTrip a else s
    | _ => s

/-- LIMIT_QUALIFY. -/
def execLimitQualify (t : Time) (ax : Nat) (which : LimitInput) (level : Bool) (s : State) :
    Host.Outcome State Fault Refusal :=
  let s := s.at t
  done (s.pins fun s => s.onAxis ax fun s => s.limitQualify ax which level)

end Sys2Proof.Machine
end

