-- ==== Sys2Proof/Machine/Dma.lean ====
section
/-! DEFINITION. The Joist engines (R287 to R312): addresses, descriptors and their checks, the funnel, the engine's
grant, and a channel's commands and events. The bytes of a descriptor move at the event that ends it
(DESCRIPTOR_COMPLETE, DESCRIPTOR_ERROR or JST_ABORT; log 23). -/

namespace Sys2Proof.Machine

/-! ### Addresses -/

/-- R287: the memory spaces. -/
inductive Space where
  | host | spool | band
  deriving DecidableEq, Repr

/-- R287: the range of n bytes at a Joist address lies in one present space: that space and the address in it. -/
def State.spaceOf (s : State) (a n : Nat) : Option (Space × Nat) :=
  if a < 2 ^ 63 then (if a + n ≤ 2 ^ 63 then some (.host, a) else none)
  else if 2 ^ 63 ≤ a ∧ a < 0x9000000000000000 then
    (if s.mem = .ready ∧ a - 2 ^ 63 + n ≤ s.spoolSize then some (.spool, a - 2 ^ 63) else none)
  else if a - 0x9000000000000000 + n ≤ s.bandBytes then some (.band, a - 0x9000000000000000)
  else none

/-- The space an address names, whatever its present limit. -/
def spaceName (a : Nat) : Space := if a < 2 ^ 63 then .host else if a < 0x9000000000000000 then .spool else .band

/-! ### Descriptors -/

/-- Fields of CTRL (R293). -/
def Desc.srcFix (d : Desc) : Bool := d.ctrl.testBit 0
/-- Fixed destination. -/
def Desc.dstFix (d : Desc) : Bool := d.ctrl.testBit 1
/-- SWAP. -/
def Desc.swap (d : Desc) : Nat := argField d.ctrl 3 2
/-- Read-back completion. -/
def Desc.rb (d : Desc) : Bool := d.ctrl.testBit 4
/-- NOSNOOP. -/
def Desc.noSnoop (d : Desc) : Bool := d.ctrl.testBit 5
/-- EV_EN. -/
def Desc.evEn (d : Desc) : Bool := d.ctrl.testBit 6
/-- EVENT. -/
def Desc.event (d : Desc) : Nat := argField d.ctrl 14 8
/-- QUEUE. -/
def Desc.queue (d : Desc) : Nat := argField d.ctrl 22 16

/-- R293: NEXT that ends a chain. -/
abbrev chainEnd : Nat := 0xFFFFFFFF

/-- R293: a descriptor from its 32 bytes. -/
def parseDesc (i : Nat) (bs : List Byte) : Desc :=
  { index := i, src := leNat (bs.take 8), dst := leNat ((bs.drop 8).take 8), len := leNat ((bs.drop 16).take 4)
    ctrl := leNat ((bs.drop 20).take 4), next := leNat ((bs.drop 28).take 4) }

/-- R297: the unit of a SWAP code. -/
def swapUnit (k : Nat) : Nat := match k with | 0 => 1 | 1 => 2 | _ => 4

/-- R294: bytes of a side's range. -/
def sideLen (fixed : Bool) (len : Nat) : Nat := if fixed then 8 else len

/-- R294: the ranges [a, a + m) and [b, b + n) intersect; an empty range intersects none. -/
def overlaps (a m b n : Nat) : Bool := decide (0 < m ∧ 0 < n ∧ a < b + n ∧ b < a + m)

/-- R294: the checks of a descriptor in their order: the code of the first that fails. -/
def State.descCheck (s : State) (e c : Nat) (d : Desc) : Option Nat :=
  let src := s.spaceOf d.src (sideLen d.srcFix d.len)
  let dst := s.spaceOf d.dst (sideLen d.dstFix d.len)
  let overlap : Bool := match src, dst with
    | some (k, a), some (k', b) =>
      k == k' && overlaps a (sideLen d.srcFix d.len) b (sideLen d.dstFix d.len)
    | _, _ => false
  if d.next ≠ chainEnd ∧ s.fget Reg.CH_SIZE_SIZE e c ≤ d.next then some 7
  else if 0x0FFFFFFF < d.len ∨ d.len % swapUnit d.swap ≠ 0 ∨ ((d.srcFix || d.dstFix) ∧ d.len % 8 ≠ 0) then some 2
  else if (d.srcFix ∧ d.src % 8 ≠ 0) ∨ (d.dstFix ∧ d.dst % 8 ≠ 0) then some 3
  else if d.queue ≠ 127 ∧ s.portCount ≤ d.queue then some 4
  else if d.evEn ∧ s.portCount ≤ d.event ∧ (d.event < 96 ∨ 112 ≤ d.event) then some 5
  else if src.isNone ∨ dst.isNone then some 6
  else if overlap then some 1
  else none

/-- R290: a descriptor is unpaced, or its pacing queue is requesting. -/
def State.mayFlow (s : State) (d : Desc) : Bool :=
  d.queue == 127 || (decide (d.queue < s.portCount) && (s.ring d.queue).requesting)

/-- R290: a prefetched descriptor makes its channel eligible. -/
def State.eligible (s : State) (e c : Nat) (d : Desc) : Bool := s.mayFlow d || (s.descCheck e c d).isSome

/-! ### The funnel (R295 to R297) -/

/-- R295: the largest naturally aligned piece of 4, 2 or 1 bytes at a that does not pass `lim`. -/
def pieceAt (a lim : Nat) : Nat :=
  if a % 4 = 0 ∧ a + 4 ≤ lim then 4 else if a % 2 = 0 ∧ a + 2 ≤ lim then 2 else 1

/-- R295: the length of the access at a, in a side that runs from `a0` to `e`. -/
def accessLen (a0 e a : Nat) : Nat :=
  let head := min e ((a0 + 7) / 8 * 8)
  let tail := e / 8 * 8
  if a < head then pieceAt a head
  else if a < tail then min (a / 256 * 256 + 256) tail - a
  else pieceAt a e

/-- R295: the accesses of a side from a on, as (address, bytes); `fuel` is at least the bytes left. -/
def accesses (a0 e : Nat) : Nat → Nat → List (Nat × Nat)
  | 0, _ => []
  | fuel + 1, a => if e ≤ a then [] else (a, accessLen a0 e a) :: accesses a0 e fuel (a + accessLen a0 e a)

/-- R295, R296: the accesses of one side of a descriptor, in stream order. -/
def sideAccesses (fixed : Bool) (a len : Nat) : List (Nat × Nat) :=
  if fixed then List.replicate (len / 8) (a, 8) else accesses a (a + len) len a

/-- R297: SWAP of a stream. -/
def swapBytes (k : Nat) : List Byte → List Byte
  | a :: b :: c :: d :: r =>
    match k with
    | 1 => b :: a :: d :: c :: swapBytes k r
    | 2 => c :: d :: a :: b :: swapBytes k r
    | 3 => d :: c :: b :: a :: swapBytes k r
    | _ => a :: b :: c :: d :: swapBytes k r
  | [a, b, c] => if k = 1 then [b, a, c] else [a, b, c]
  | [a, b] => if k = 1 then [b, a] else [a, b]
  | l => l

/-- The shortest leading part of a side's accesses that covers n bytes. -/
def coverAccesses : Nat → List (Nat × Nat) → List (Nat × Nat)
  | _, [] => []
  | n, (a, m) :: r => if n = 0 then [] else (a, m) :: coverAccesses (n - m) r

/-- The bytes of a list of accesses. -/
def accessBytes (l : List (Nat × Nat)) : Nat := (l.map (·.2)).sum

/-! ### Requests on the link -/

/-- R345: n bytes at an address, divided at each multiple of m; the device never divides below 128 B. -/
def splitAt (m : Nat) : Nat → Nat → Nat → List (Nat × Nat)
  | 0, _, _ => []
  | fuel + 1, a, n =>
    if n = 0 then []
    else
      let k := min n ((a / m + 1) * m - a)
      (a, k) :: splitAt m fuel (a + k) (n - k)

/-- R307, R345: the requests of a side in host space. -/
def sideReqs (write noSnoop : Bool) (limit : Nat) (l : List (Nat × Nat)) : List HostReq :=
  (l.flatMap fun x => splitAt (max 128 limit) 3 x.1 x.2).map fun x => ⟨write, x.1, x.2, noSnoop⟩

/-- R301: the Joist address of the aligned 8-byte word that holds a descriptor's last destination byte. -/
def Desc.lastWord (d : Desc) : Nat := if d.dstFix then d.dst else (d.dst + d.len - 1) / 8 * 8

/-- R307, R345: the host-space requests of a descriptor: its source's reads, its destination's writes, and its read-back. -/
def State.hostReqs (s : State) (d : Desc) : List HostReq :=
  (if spaceName d.src = .host then sideReqs false d.noSnoop s.pcie.mrrs (sideAccesses d.srcFix d.src d.len) else []) ++
  (if spaceName d.dst = .host then
    sideReqs true d.noSnoop s.pcie.mps (sideAccesses d.dstFix d.dst d.len) ++
    (if d.rb ∧ d.len ≠ 0 then [⟨false, d.lastWord, 8, d.noSnoop⟩] else [])
  else [])

/-- A side of the descriptor is host memory. -/
def Desc.usesHost (d : Desc) : Bool := spaceName d.src == .host || spaceName d.dst == .host

/-- R106: one read of the spool by Joist: its correctable words are corrected and counted, each uncorrectable one is
reported, and with one there is no data. -/
def State.spoolRead (s : State) (a n : Nat) : State × Option (List Byte) :=
  let bad := s.ueWords .spool a n
  ((s.spoolCorrect a n).forEach bad State.spoolUe, if bad.isEmpty then some (memBytes 0 s.spool a n) else none)

/-- One access inside the memory island: its bytes, or none where a word of it cannot be corrected. -/
def State.localRead (s : State) (k : Space) (a n : Nat) : State × Option (List Byte) :=
  match k with
  | .host => (s, none)
  | .spool => s.spoolRead a n
  | .band => s.bandRead a n

/-- The source stream through its accesses: the bytes that were read, and whether an error stopped it. -/
def State.readSide (s : State) (k : Space) : List (Nat × Nat) → State × List Byte × Bool
  | [] => (s, [], false)
  | (a, n) :: r =>
    match s.localRead k a n with
    | (s, none) => (s, [], true)
    | (s, some bs) =>
      let (s, rest, bad) := s.readSide k r
      (s, bs ++ rest, bad)

/-- R303: what a descriptor reads for the first `need` bytes of its stream, in order, and the code of the failure that
stopped it. No access is read that those bytes do not need. -/
def State.readSource (s : State) (d : Desc) (host : List Byte) (need : Nat) : State × List Byte × Option Nat :=
  match spaceName d.src with
  | .host => (s, host.take (min need d.len), if host.length < min need d.len then some 8 else none)
  | k =>
    match s.spaceOf d.src (sideLen d.srcFix d.len) with
    | none => (s, [], some 8)
    | some (_, a) =>
      let (s, bs, bad) := s.readSide k (coverAccesses need (sideAccesses d.srcFix a d.len))
      (s, bs, if bad then some 10 else none)

/-- R296, R303: the write accesses of a stream to a space inside the memory island: the bytes written, and whether the Band
Store dropped one (R90). Writes already fed are finished behind a dropped one (log 24). A stream that ends inside an access
ends it there, but a fixed side writes whole words only. -/
def State.writeSide (s : State) (k : Space) (fixed fromSpool : Bool) :
    List (Nat × Nat) → List Byte → State × Nat × Bool
  | [], _ => (s, 0, false)
  | (a, n) :: r, bs =>
    let part := bs.take n
    if part.isEmpty ∨ (fixed ∧ part.length < n) then (s, 0, false)
    else
      let (s, dropped) := if k = .band then s.bandWrite a part fromSpool else (s.spoolStore a part, false)
      let (s, m, bad) := s.writeSide k fixed fromSpool r (bs.drop n)
      (s, (if dropped then 0 else part.length) + m, dropped || bad)

/-- R303: what a descriptor writes: the bytes that reached the destination, and the failure. -/
def State.writeDest (s : State) (d : Desc) (bs : List Byte) : State × Nat × Option Nat :=
  match spaceName d.dst with
  | .host => (s, bs.length, none)
  | k =>
    match s.spaceOf d.dst (sideLen d.dstFix d.len) with
    | none => (s, 0, if bs.isEmpty then none else some 9)
    | some (_, a) =>
      let (s, n, bad) := s.writeSide k d.dstFix (spaceName d.src == .spool) (sideAccesses d.dstFix a d.len) bs
      (s, n, if bad then some 9 else none)

/-- R90: a write access of the Band Store would be dropped. -/
def State.wouldDrop (s : State) (fromSpool : Bool) (x : Nat × Nat) : Bool :=
  let (owners, deny) := s.guards x.1 x.2 fromSpool
  !(owners.isEmpty && deny.isEmpty)

/-- R303: how many bytes of the stream descriptor d feeds to the funnel: all, or, where the Band Store drops one of its
writes, those of the writes up to it and of a free number of writes that were fed behind it (log 24). -/
def State.fedBytes (s : State) (d : Desc) : Nat :=
  match spaceName d.dst, s.spaceOf d.dst (sideLen d.dstFix d.len) with
  | .band, some (_, a) =>
    let l := sideAccesses d.dstFix a d.len
    match l.findIdx? (s.wouldDrop (spaceName d.src == .spool)) with
    | some j => accessBytes (l.take (j + 1 + s.drawn % (l.length - j)))
    | none => d.len
  | _, _ => d.len

/-- R295 to R298, R303: at most `limit` bytes of channel c's running descriptor move: the bytes written, and the code of
the failure that the transfer met. A unit of SWAP is read whole before a byte of it is written. -/
def State.transfer (s : State) (e c : Nat) (d : Desc) (limit : Nat) : State × Nat × Option Nat :=
  if d.len = 0 then (s, 0, none)
  else
    let u := swapUnit d.swap
    let limit := min limit (s.fedBytes d)
    let (s, bs, rd) := s.drew.readSource d ((s.jchan e c).hostData) ((limit + u - 1) / u * u)
    let (s, n, wr) := s.writeDest d ((swapBytes d.swap (bs.take (bs.length / u * u))).take limit)
    let s := s.fput Reg.JST_BYTES_COUNT (s.fget Reg.JST_BYTES_COUNT e + n) e
    let s := s.fput Reg.CH_BYTES_COUNT (s.fget Reg.CH_BYTES_COUNT e c + n) e c
    (s, n, match wr with | some k => some k | none => rd)

/-- R301, R303: the read-back of a descriptor's last destination word: whether it fails. `hostErr` is what the link answers
where the destination is host memory. -/
def State.readBack (s : State) (d : Desc) (hostErr : Bool) : State × Bool :=
  if !d.rb || d.len == 0 then (s, false)
  else match spaceName d.dst with
    | .host => (s, hostErr)
    | k => match s.spaceOf d.lastWord 8 with
      | none => (s, true)
      | some (_, a) => match s.localRead k a 8 with
        | (s, some _) => (s, false)
        | (s, none) => (s, true)

/-! ### Channels -/

/-- Joist address of a channel's table entry i (R293). -/
def State.tableAddr (s : State) (e c i : Nat) : Nat :=
  32 * s.fget Reg.CH_BASE_LO_BASE e c + 2 ^ 32 * s.fget Reg.CH_BASE_HI_BASE e c + 32 * i

/-- R293: STATUS of table entry i is written. The host's memory is outside the device (log 25); what is sent to it stands
in `statusOut`, and while Bus Master Enable is clear nothing is sent. -/
def State.writeStatus (s : State) (e c i code residue : Nat) : State :=
  let w := code % 16 * 2 ^ 28 + residue % 2 ^ 28
  match s.spaceOf (s.tableAddr e c i + 24) 4 with
  | some (.spool, a) => s.spoolStore a (leBytes 4 w)
  | some (.band, a) => (s.bandWrite a (leBytes 4 w) false).1
  | some (.host, a) =>
    s.when s.pcie.bme fun s => s.modJchan e c fun x => { x with statusOut := some (a, BitVec.ofNat 32 w) }
  | none => s

/-- R302: CH_CONS after descriptor i has finished. -/
def State.consume (s : State) (e c i : Nat) : State :=
  (s.fput Reg.CH_CONS_INDEX i e c).fput Reg.CH_CONS_DONE (s.fget Reg.CH_CONS_DONE e c + 1) e c

/-- R292, R307: the fetch of table entry i begins; in host space it sends a request, while Bus Master Enable is set. -/
def State.fetchFrom (s : State) (e c i : Nat) : State :=
  let a := s.tableAddr e c i
  s.modJchan e c fun x => { x with
    fetching := some i, pref := none
    fetchReq :=
      if spaceName a = .host ∧ s.pcie.bme then some ⟨false, a, 32, s.fbit Reg.CH_CFG_DESC_NOSNOOP e c⟩ else none }

/-- What a channel that runs or fetches nothing any more holds. -/
def JChan.dropped (x : JChan) : JChan :=
  { x with pref := none, fetching := none, fetchReq := none, run := none, hostData := [], reqs := [], cut := none }

/-- R289: channel c starts at index i: PENDING, and descriptor i is fetched. -/
def State.startChan (s : State) (e c i : Nat) : State :=
  (s.modJchan e c fun x => { x.dropped with st := .pending, cur := i }).fetchFrom e c i

/-- R290: the engine is free. -/
def State.freeEngine (s : State) (e c : Nat) : State :=
  s.modEngine e fun x => if x.holder = some c then { holder := none, last := c } else x

/-- R291: an event on channel c's chain line. -/
def State.chainEvent (s : State) (e c : Nat) : State :=
  let x := s.jchan e c
  let i := s.fget Reg.CH_CFG_EVIDX e c
  let lost (s : State) : State := (s.fadd Reg.JST_EVLOST_COUNT 1 e).raise Reg.JST0_CAUSE_EV_LOST e
  if s.fget Reg.CH_SIZE_SIZE e c ≤ i then lost s
  else match x.st with
    | .idle => s.startChan e c i
    | .pending | .running => if x.evLatch then lost s else s.modJchan e c fun x => { x with evLatch := true }
    | .halted => lost s

/-- R289: channel c's chain ends: IDLE, and a latched event acts at once. -/
def State.endChain (s : State) (e c : Nat) : State :=
  let latched := (s.jchan e c).evLatch
  let s := s.modJchan e c fun x => { x.dropped with st := .idle, evLatch := false }
  (s.freeEngine e c).when latched fun s => s.chainEvent e c

/-- R304, R305: channel c goes to HALTED; what it held is gone. -/
def State.haltChan (s : State) (e c : Nat) : State :=
  (s.modJchan e c fun x => { x.dropped with st := .halted }).freeEngine e c

/-- R290, R300: between two descriptors of a run: it goes on, or the channel is PENDING because the next one is paced and
its queue does not request. While the next one is still being fetched the run waits. -/
def State.between (s : State) (e c : Nat) : State :=
  match (s.jchan e c).pref with
  | some d =>
    if s.mayFlow d then s else (s.modJchan e c fun x => { x with st := .pending }).freeEngine e c
  | none => s

/-- R289, R294: descriptor d has finished: the chain goes on at NEXT, or ends. -/
def State.afterDesc (s : State) (e c : Nat) (d : Desc) : State :=
  let s := s.modJchan e c fun x => { x with run := none, hostData := [], reqs := [], cut := none }
  if d.next = chainEnd ∨ s.fget Reg.CH_SIZE_SIZE e c ≤ d.next then s.endChain e c
  else (s.modJchan e c fun x => { x with cur := d.next }).between e c

/-- R303, R304: descriptor d is marked BAD with a code and a residue; the channel halts or goes on. -/
def State.markBad (s : State) (e c : Nat) (d : Desc) (code residue : Nat) : State :=
  let s := s.writeStatus e c d.index code (min residue 0x0FFFFFFF)
  let s := (s.raise Reg.JST0_CAUSE_BAD e).fput Reg.JST_BADMAP_BAD (s.fget Reg.JST_BADMAP_BAD e ||| 2 ^ c) e
  let s := (s.fadd Reg.CH_BAD_COUNT 1 e c).fput Reg.CH_BAD_LAST d.index e c
  let s := s.consume e c d.index
  if s.fbit Reg.CH_CFG_HALT_BAD e c then s.haltChan e c else s.afterDesc e c d

/-! ### Commands -/

/-- Something happens inside Joist engine e. -/
def State.onEngine (s : State) (e : Nat) (f : State → State) : State :=
  if e < 8 then (s.latch .jst0 e).onIsland isleMemory f else s

/-- R289, R311: START. -/
def specJstStart (s : State) (e arg : Nat) : CmdSpec :=
  let c := argField arg 3 0
  { legal := (s.jchan e c).st == .idle, cond := decide (argField arg 19 4 < s.fget Reg.CH_SIZE_SIZE e c)
    eff := fun s => s.startChan e c (argField arg 19 4) }

/-- JST_START. -/
def execJstStart (t : Time) (m : Master) (e arg : Nat) (s : State) : Host.Outcome State Fault Refusal :=
  let s := s.at t
  done (s.command m .jst0 e 0x01 arg false (some (specJstStart s e arg)))

/-- R306: ABORT of channel c: the descriptor's first writes, up to the end of the one in progress. Which one that is the
spec does not state: a free value. -/
def State.abortChan (s : State) (e c : Nat) : State :=
  let x := s.jchan e c
  let s := s.modJchan e c fun x => { x with evLatch := false }
  match x.st, x.run with
  | .running, some d =>
    let w := sideAccesses d.dstFix d.dst d.len
    let k := accessBytes (w.take (s.drawn % (w.length + 1)))
    let (s, n, _) := s.drew.transfer e c d (min k (x.cut.getD k))
    let s := (s.writeStatus e c d.index 15 (d.len - n)).consume e c d.index
    (s.endChain e c).raise Reg.JST0_CAUSE_ABORTED e
  | .running, none => (s.endChain e c).raise Reg.JST0_CAUSE_ABORTED e
  | _, _ => s.endChain e c

/-- R306, R311: ABORT. -/
def specJstAbort (s : State) (e arg : Nat) : CmdSpec :=
  let c := argField arg 3 0
  { legal := (s.jchan e c).st == .pending || (s.jchan e c).st == .running, eff := fun s => s.abortChan e c }

/-- JST_ABORT. -/
def execJstAbort (t : Time) (m : Master) (e arg : Nat) (s : State) : Host.Outcome State Fault Refusal :=
  let s := s.at t
  done (s.command m .jst0 e 0x02 arg false (some (specJstAbort s e arg)))

/-- R289, R311: CLEAR. -/
def specClear (s : State) (e arg : Nat) : CmdSpec :=
  let c := argField arg 3 0
  { legal := (s.jchan e c).st == .halted
    eff := fun s => (s.latch .jst0 e).modJchan e c fun x => { x with st := .idle, evLatch := false } }

/-- CLEAR. -/
def execClear (t : Time) (m : Master) (e arg : Nat) (s : State) : Host.Outcome State Fault Refusal :=
  let s := s.at t
  done (s.command m .jst0 e 0x03 arg false (some (specClear s e arg)))

/-- R311: CLR_CNT. -/
def specJstClrCnt (e arg : Nat) : CmdSpec :=
  let c := argField arg 3 0
  { eff := fun s =>
      let zero (s : State) (c : Nat) : State := (s.fput Reg.CH_BAD_COUNT 0 e c).fput Reg.CH_BAD_LAST 0 e c
      if c = 15 then (s.forEach (List.range 16) zero).fput Reg.JST_EVLOST_COUNT 0 e else zero s c }

/-- JST_CLR_CNT. -/
def execJstClrCnt (t : Time) (m : Master) (e arg : Nat) (s : State) : Host.Outcome State Fault Refusal :=
  let s := s.at t
  done (s.command m .jst0 e 0x04 arg false (some (specJstClrCnt e arg)))

/-! ### Events -/

/-- R290: the channels of engine e that are eligible, counted from the one after the last holder. -/
def State.candidates (s : State) (e : Nat) : List Nat :=
  ((List.range 16).map fun k => ((s.engine e).last + 1 + k) % 16).filter fun c =>
    let x := s.jchan e c
    x.st == .pending && (match x.pref with | some d => s.eligible e c d | none => false)

/-- R290: ENGINE_GRANT: a free engine grants the first eligible channel. -/
def execEngineGrant (t : Time) (e : Nat) (s : State) : Host.Outcome State Fault Refusal :=
  let s := s.at t
  done (s.onEngine e fun s =>
    match (s.engine e).holder, s.candidates e with
    | none, c :: _ =>
      (s.modEngine e fun x => { x with holder := some c }).modJchan e c fun x => { x with st := .running }
    | _, _ => s)

/-- R305: a descriptor fetch fails. -/
def State.fetchFail (s : State) (e c i : Nat) : State :=
  ((s.haltChan e c).modJchan e c fun x => { x with cur := i }).raise Reg.JST0_CAUSE_FETCH_ERR e

/-- R288, R292, R305: what the fetch of table entry i answers. -/
def State.fetchBytes (s : State) (e c i : Nat) (host : Option (List Byte)) : State × Option (List Byte) :=
  match s.spaceOf (s.tableAddr e c i) 32 with
  | none => (s, none)
  | some (.host, _) =>
    (s, if (s.jchan e c).fetchReq.isSome then host.filter fun bs => decide (32 ≤ bs.length) else none)
  | some (k, a) => s.localRead k a 32

/-- R292, R305: DESCRIPTOR_FETCH: the fetch under way completes. `host` is what the host link returned. -/
def execDescriptorFetch (t : Time) (e c : Nat) (host : Option (List Byte)) (s : State) :
    Host.Outcome State Fault Refusal :=
  let s := s.at t
  done (s.onEngine e fun s =>
    match (s.jchan e c).fetching with
    | none => s
    | some i =>
      match s.fetchBytes e c i host with
      | (s, none) => s.fetchFail e c i
      | (s, some bs) =>
        let s := s.modJchan e c fun x => { x with fetching := none, fetchReq := none, pref := some (parseDesc i bs) }
        let x := s.jchan e c
        if x.st = .running ∧ x.run = none then s.between e c else s)

/-- R288, R292, R294, R307: DESCRIPTOR_START: the turn of the prefetched descriptor has come. `host` is what the host link
will return for its source. -/
def execDescriptorStart (t : Time) (e c : Nat) (host : List Byte) (s : State) : Host.Outcome State Fault Refusal :=
  let s := s.at t
  done (s.onEngine e fun s =>
    let x := s.jchan e c
    match x.pref with
    | some d =>
      if x.st ≠ .running ∨ x.run ≠ none then s
      else
        let code := s.descCheck e c d
        let s := s.modJchan e c fun x => { x with pref := none, cur := d.index }
        let s := s.when (decide (d.next ≠ chainEnd ∧ d.next < s.fget Reg.CH_SIZE_SIZE e c)) fun s => s.fetchFrom e c d.next
        match code with
        | some k => s.markBad e c d k d.len
        | none =>
          if d.usesHost && !s.pcie.bme then s.markBad e c d 8 d.len
          else s.modJchan e c fun x => { x with run := some d, hostData := host, reqs := s.hostReqs d }
    | none => s)

/-- R300: the event of a descriptor that has completed. -/
def State.sendEvent (s : State) (e : Nat) (d : Desc) : State :=
  if !d.evEn then s
  else if d.event < 96 then
    s.commitEvent d.event (match s.spaceOf d.dst 0 with
      | some (.band, a) => a + sideLen d.dstFix d.len
      | _ => 2 ^ 64)
  else s.chainEvent e (d.event - 96)

/-- R288, R301, R303: the bytes of the running descriptor move and its read-back, if any, is made: the bytes written, and
the code of the failure that it met. Cut off from the link, it makes no read-back and ends RD_ERR. -/
def State.carryOut (s : State) (e c : Nat) (d : Desc) (hostErr : Bool) : State × Nat × Option Nat :=
  match (s.jchan e c).cut with
  | some k =>
    let (s, n, _) := s.transfer e c d (min d.len k)
    (s, n, some 8)
  | none =>
    match s.transfer e c d d.len with
    | (s, n, some k) => (s, n, some k)
    | (s, n, none) =>
      let (s, bad) := s.readBack d hostErr
      (s, n, if bad then some 11 else none)

/-- R301, R303: the running descriptor's transfer ends: it completes, or it is BAD. RB_ERR leaves RESIDUE 0. -/
def State.finishDesc (s : State) (e c : Nat) (d : Desc) (hostErr : Bool) : State :=
  let (s, n, bad) := s.carryOut e c d hostErr
  match bad with
  | some k => s.markBad e c d k (d.len - n)
  | none => ((s.consume e c d.index).sendEvent e d).afterDesc e c d

/-- R301: DESCRIPTOR_COMPLETE. -/
def execDescriptorComplete (t : Time) (e c : Nat) (s : State) : Host.Outcome State Fault Refusal :=
  let s := s.at t
  done (s.onEngine e fun s =>
    match (s.jchan e c).run with
    | some d => s.finishDesc e c d false
    | none => s)

/-- R303: DESCRIPTOR_ERROR: the transfer fails. Which failure it meets follows from the state (what the spaces hold and
guard, what the host link has returned); a read-back from host memory fails as the event says. -/
def execDescriptorError (t : Time) (e c code : Nat) (s : State) : Host.Outcome State Fault Refusal :=
  let s := s.at t
  done (s.onEngine e fun s =>
    match (s.jchan e c).run with
    | some d => s.when ((s.carryOut e c d (code == 11)).2.2).isSome fun s => s.finishDesc e c d (code == 11)
    | none => s)

end Sys2Proof.Machine
end

