-- ==== Sys2Proof/Machine/Bexgar.lean ====
section
/-! DEFINITION. Bexgar, the press-line protocol (R328 to R335, R339, R340): frames, links, streams and epochs. -/

namespace Sys2Proof.Machine

/-- The network island. -/
abbrev isleNetwork := 26

/-- R329: a is later than b in serial arithmetic. -/
def serialLater (a b : Nat) : Bool :=
  let d := (a + 2 ^ 32 - b % 2 ^ 32) % 2 ^ 32
  decide (1 ≤ d) && decide (d < 2 ^ 31)

/-- DEV_LINE_ID of the device. -/
def State.lineId (s : State) : Nat := s.fget Reg.DEV_LINE_ID_ID

/-- Something happens on link L: Bexgar is ON, the link is enabled (not DOWN) and its Ethernet link is up. -/
def State.onLink (s : State) (L : Nat) (f : State → State) : State :=
  s.onIsland isleNetwork fun s => if s.lnk.on && s.ethUp L && (s.bx L).st != .down then f s else s

/-- R333: link L leaves UP for HELLO. -/
def State.leaveUp (s : State) (L : Nat) : State :=
  if (s.bx L).st ≠ .up then s
  else
    let s := s.modBx L fun x => { x with st := .hello, peerSeen := false, resendFrom := none, identAt := none }
    (s.raise Reg.LNK0_CAUSE_LINK_FAIL).send 0 12 kindBexgar 1 L

/-- R330: a received ACK field frees every retained frame with an earlier SEQ; a value that acknowledges more than has
been sent is ignored (log 26). -/
def State.bxAck (s : State) (L a : Nat) : State :=
  let x := s.bx L
  let freed := x.retained.filter fun f => serialLater a f.seqNo
  if serialLater a x.nextSeq ∨ freed.isEmpty then s
  else
    let s := s.modBx L fun x =>
      { x with retained := x.retained.filter fun f => !serialLater a f.seqNo, ackMoved := s.now, retries := 0 }
    freed.foldl (fun s f => s.modTx f.txStream fun y => { y with acked := (f.offset + f.len) % 2 ^ 32 }) s

/-- Bytes of RX stream n's region. -/
def State.rxBytes (s : State) (n : Nat) : Nat := 65536 * s.fget Reg.RX_SIZE_SIZE 0 n
/-- Bytes of TX stream n's region. -/
def State.txBytes (s : State) (n : Nat) : Nat := 65536 * s.fget Reg.TX_SIZE_SIZE 0 n

/-- Bytes are stored in the spool, as far as it is usable. -/
def State.spoolPut (s : State) (a : Nat) (bs : List Byte) : State := s.spoolStore a (bs.take (s.spoolSize - a))

/-- R334: bytes are written at an offset of a region, wrapping at its end. -/
def State.regionPut (s : State) (base off size : Nat) (bs : List Byte) : State :=
  (s.spoolPut (base + off) (bs.take (size - off))).spoolPut base (bs.drop (size - off))

/-- The bytes at an offset of a region of the spool, wrapping at its end. A word that cannot be corrected has no stated
value: a free one. -/
def State.regionGet (s : State) (base off size n : Nat) : State × List Byte :=
  let addr (i : Nat) : Nat := base + (off + i) % size
  let s := s.forEach (List.range n) fun s i => if i % 8 = 0 then s.spoolCorrect (addr i) 1 else s
  let bs := (List.range n).map fun i =>
    if s.badWord .spool (addr i / 8) then BitVec.ofNat 8 (s.drawn / 256 ^ i) else memGet 0 s.spool (addr i)
  (s.drew, bs)

/-- R330: bytes a frame takes in the replay buffer: header, payload and PCRC (log 26). -/
def BxFrame.size (f : BxFrame) : Nat := 24 + f.len

/-- R339: link L's replay buffer in the spool. -/
def State.replayBase (s : State) (L : Nat) : Nat := 65536 * s.fget Reg.LNK_REPLAY_BASE + 0x400000 * L

/-- R330: where link L's next frame goes in its replay buffer: behind the newest that it holds (log 26). -/
def BxLink.nextSlot (x : BxLink) : Nat :=
  match x.retained.getLast? with
  | some f => (f.slot + f.size) % 0x400000
  | none => 0

/-- R328: a retained frame as it goes out with its payload. -/
def BxFrame.out (f : BxFrame) (bs : List Byte) : BxOut :=
  { bxPlain 1 f.dst with seqNo := f.seqNo, sub := f.dstStream, offset := f.offset, payload := bs }

/-- R330, R332: a retained frame is resent from the replay buffer. -/
def State.resendOne (s : State) (L : Nat) (f : BxFrame) : State :=
  let (s, bs) := s.regionGet (s.replayBase L) (f.slot + 20) 0x400000 f.len
  (s.bxSend L (f.out bs)).fadd Reg.LNK_RETX_COUNT 1

/-- R332: every retained frame from SEQ a onward is resent, in order; while the spool is not READY this waits (log 26). -/
def State.resendFrom (s : State) (L a : Nat) : State :=
  if s.mem ≠ .ready then s.modBx L fun x => { x with resendFrom := some a, resendAt := s.now }
  else
    let fs := (s.bx L).retained.filter fun f => !serialLater a f.seqNo
    let s := s.modBx L fun x => { x with resendFrom := none }
    fs.foldl (fun s f => s.resendOne L f) s

/-- R331: NACK(e) goes out with a REASON; for NACK_T after one, further NACKs are held back. -/
def State.nack (s : State) (L reason : Nat) : State :=
  if s.now < (s.bx L).nackHold then s
  else
    let s := s.bxSend L { bxPlain 3 (s.peerId L) with sub := reason }
    (s.modBx L fun x => { x with nackHold := s.now + us * s.fget Reg.LNK_NACK_NACK_T }).raise Reg.LNK0_CAUSE_NACK_TX

/-- A valid Bexgar frame has arrived on link L. -/
def State.heard (s : State) (L : Nat) : State :=
  (s.modBx L fun x => { x with heardAt := s.now }).fadd Reg.LNK_RX_FRAMES_COUNT 1

/-- R334: a DATA frame in sequence against its stream: answers the REASON with which it is refused. -/
def State.takeData (s : State) (h : BxHdr) (payload : List Byte) : State × Option Nat :=
  let n := h.sub % 16
  let x := s.rxs n
  let plen := payload.length
  let full (s : State) (v : Bool) : State := s.modRx n fun x => { x with full := v }
  if h.dst ≠ s.lineId then ((s.raise Reg.LNK0_CAUSE_WRONG_DST).fadd Reg.LNK_DISCARD_COUNT 1, none)
  else if !s.fbit Reg.RX_CFG_EN 0 n ∨ x.halted ∨ h.srcId ≠ s.fget Reg.RX_CFG_SRC_ID 0 n then
    (s.fadd Reg.LNK_DISCARD_COUNT 1, none)
  else if s.mem ≠ .ready then (full s false, some 2)
  else if !serialLater (h.offset + plen) x.exp then (full s false, none)
  else if h.offset ≠ x.exp then
    ((s.modRx n fun x => { x with halted := true, full := false }).raise Reg.LNK0_CAUSE_STREAM_ERR, none)
  else if s.rxBytes n - x.rptr.ahead x.wptr (s.rxBytes n) < plen then (full s true, some 1)
  else
    let s := s.regionPut (65536 * s.fget Reg.RX_BASE_BASE 0 n) x.wptr.off (s.rxBytes n) payload
    (s.modRx n fun x =>
      { x with wptr := x.wptr.step plen (s.rxBytes n), exp := (x.exp + plen) % 2 ^ 32, full := false }, none)

/-! ### Commands of page 0 -/

/-- R339: LNK_ON: MAX_PAYLOAD and the replay buffers are usable. -/
def State.lnkUsable (s : State) : Bool :=
  let mp := s.fget Reg.LNK_CFG_MAX_PAYLOAD
  mp % 64 == 0 && decide (64 ≤ mp) && decide (mp ≤ 8192) &&
  decide (65536 * s.fget Reg.LNK_REPLAY_BASE + 8 * 0x400000 ≤ s.spoolSize)

/-- R333: link L goes to HELLO. -/
def State.toHello (s : State) (L : Nat) : State :=
  s.modBx L fun x => { x with st := .hello, peerSeen := false, resendFrom := none, identAt := none }

/-- LINKS_EN names link L. -/
def State.linkEn (s : State) (L : Nat) : Bool := (s.fget Reg.LNK_CFG_LINKS_EN).testBit L

/-- R339: LNK_ON. -/
def specLnkOn (s : State) : CmdSpec :=
  { unlock := true, legal := !s.lnk.on, cond := s.lnkUsable
    eff := fun s =>
      State.forEach { s with lnk := { s.lnk with on := true } } (List.range 8) fun s L =>
        let s := (s.setWord (Reg.LNK_PEER_VALID.addr 0 L) 0xFFFF).modBx L fun x => { x with peerAt := none }
        if s.linkEn L then s.toHello L else s }

/-- LNK_ON. -/
def execLnkOn (t : Time) (m : Master) (s : State) : Host.Outcome State Fault Refusal :=
  let s := s.at t
  done (s.command m .lnk0 0 0x01 0 false (some (specLnkOn s)))

/-- R339: LNK_OFF: retained frames are kept. -/
def specLnkOff (s : State) : CmdSpec :=
  { legal := s.lnk.on
    eff := fun s =>
      State.forEach { s with lnk := { s.lnk with on := false } } (List.range 8) fun s L =>
        s.modBx L fun x => { x with st := .down, peerSeen := false, resendFrom := none } }

/-- LNK_OFF. -/
def execLnkOff (t : Time) (m : Master) (s : State) : Host.Outcome State Fault Refusal :=
  let s := s.at t
  done (s.command m .lnk0 0 0x02 0 false (some (specLnkOff s)))

/-- R333, R339: LINK_RESET: DOWN, and at once HELLO. -/
def specLinkReset (s : State) (arg : Nat) : CmdSpec :=
  let L := argField arg 2 0
  { legal := s.lnk.on, eff := fun s => if s.linkEn L then s.toHello L else s.modBx L fun x => { x with st := .down } }

/-- LINK_RESET. -/
def execLinkReset (t : Time) (m : Master) (arg : Nat) (s : State) : Host.Outcome State Fault Refusal :=
  let s := s.at t
  done (s.command m .lnk0 0 0x03 arg false (some (specLinkReset s arg)))

/-- R339: CLR_CNT. -/
def specLnkClrCnt : CmdSpec :=
  { eff := fun s => s.forEach (List.range 6) fun s i => s.setWord (regAddr .lnk0 0 (0x88 + 4 * i)) 0 }

/-- LNK_CLR_CNT. -/
def execLnkClrCnt (t : Time) (m : Master) (s : State) : Host.Outcome State Fault Refusal :=
  let s := s.at t
  done (s.command m .lnk0 0 0x04 0 false (some specLnkClrCnt))

/-! ### Commands and pointers of page 1 -/

/-- R340: STREAM_RESET. -/
def specStreamReset (s : State) (arg : Nat) : CmdSpec :=
  let n := argField arg 3 0
  if arg.testBit 4 then
    { legal := !s.fbit Reg.RX_CFG_EN 0 n
      eff := fun s => s.modRx n fun x => { RxStream.reset with full := x.full } }
  else { legal := !s.fbit Reg.TX_CFG_EN 0 n, eff := fun s => s.modTx n fun _ => TxStream.reset }

/-- STREAM_RESET. -/
def execStreamReset (t : Time) (m : Master) (arg : Nat) (s : State) : Host.Outcome State Fault Refusal :=
  let s := s.at t
  done (s.command m .lnk1 0 0x01 arg false (some (specStreamReset s arg)))

/-- R340: EPOCH_POP. -/
def specEpochPop (s : State) : CmdSpec :=
  { legal := !s.lnk.epochs.isEmpty
    eff := fun s => { s with lnk := { s.lnk with epochs := s.lnk.epochs.drop 1 } } }

/-- EPOCH_POP. -/
def execEpochPop (t : Time) (m : Master) (s : State) : Host.Outcome State Fault Refusal :=
  let s := s.at t
  done (s.command m .lnk1 0 0x02 0 false (some (specEpochPop s)))

/-- R335: TX_WPTR_WRITE: data is committed as R88 allows; any other value is ignored. -/
def State.txWptr (s : State) (n : Nat) (w : Ptr) : State :=
  let x := s.txs n
  let size := s.txBytes n
  let d := x.wptr.ahead w size
  if size ≤ w.off ∨ w.off % 64 ≠ 0 ∨ d = 0 ∨ size < x.rptr.ahead x.wptr size + d then s
  else s.modTx n fun x => { x with wptr := w }

/-- TX_WPTR_WRITE. -/
def execTxWptrWrite (t : Time) (m : Master) (stream : Nat) (value : Word) (s : State) :
    Host.Outcome State Fault Refusal :=
  let s := s.at t
  done (s.by m fun s => if s.present .lnk1 0 && decide (stream < 16) then s.txWptr stream (Ptr.ofWord value) else s)

/-- R334: RX_RPTR_WRITE: space is freed by advancing RX_RPTR, at most to RX_WPTR. -/
def State.rxRptr (s : State) (n : Nat) (w : Ptr) : State :=
  let x := s.rxs n
  let size := s.rxBytes n
  let d := x.rptr.ahead w size
  if size ≤ w.off ∨ w.off % 64 ≠ 0 ∨ d = 0 ∨ x.rptr.ahead x.wptr size < d then s
  else s.modRx n fun x => { x with rptr := w }

/-- RX_RPTR_WRITE. -/
def execRxRptrWrite (t : Time) (m : Master) (stream : Nat) (value : Word) (s : State) :
    Host.Outcome State Fault Refusal :=
  let s := s.at t
  done (s.by m fun s => if s.present .lnk1 0 && decide (stream < 16) then s.rxRptr stream (Ptr.ofWord value) else s)

/-! ### Received frames -/

/-- R331: a DATA frame on an UP link. -/
def State.bxData (s : State) (L : Nat) (h : BxHdr) (payload : List Byte) : State :=
  let e := (s.bx L).expect
  if h.seqNo = e then
    match s.takeData h payload with
    | (s, none) => s.modBx L fun x =>
        { x with expect := (e + 1) % 2 ^ 32, taken := x.taken + 1, takenAt := if x.taken = 0 then s.now else x.takenAt }
    | (s, some reason) => s.nack L reason
  else if serialLater h.seqNo e then s.nack L 0
  else (s.fadd Reg.LNK_DUP_COUNT 1).bxSend L (bxPlain 2 (s.peerId L))

/-- R332: a NACK, after its ACK field has acted: GAP resends at once, FULL and NOTREADY after RETRY_T. -/
def State.bxNack (s : State) (L a reason : Nat) : State :=
  let s := s.raise Reg.LNK0_CAUSE_NACK_RX
  if serialLater a (s.bx L).nextSeq then s
  else if reason = 1 ∨ reason = 2 then
    s.modBx L fun x => { x with resendFrom := some a, resendAt := s.now + us * s.fget Reg.LNK_NACK_RETRY_T }
  else s.resendFrom L a

/-- Number frames from q on. -/
def renumber : Nat → List BxFrame → List BxFrame
  | _, [] => []
  | q, f :: r => { f with seqNo := q } :: renumber (q + 1) r

/-- R333: link L enters UP with peer `id`: both directions number from 0, and what is retained is resent. -/
def State.enterUp (s : State) (L id : Nat) : State :=
  let s := s.modBx L fun x =>
    { x with st := .up, retained := renumber 0 x.retained, nextSeq := x.retained.length, expect := 0, taken := 0,
             nackHold := 0, ackMoved := s.now, retries := 0, resendFrom := none }
  let s := (s.fput Reg.LNK_PEER_VALID 1 0 L).fput Reg.LNK_PEER_ID id 0 L
  (s.raise Reg.LNK0_CAUSE_LINK_UP).resendFrom L 0

/-- R329, R333: an IDENT of peer `id`, with its PEER_SEEN. -/
def State.bxIdent (s : State) (L id : Nat) (peerSeen : Bool) : State :=
  if id = s.lineId then s.raise Reg.LNK0_CAUSE_ID_CONFLICT
  else if (s.bx L).st = .hello then
    let s := s.modBx L fun x => { x with peerSeen := true }
    if peerSeen then s.enterUp L id else s
  else s

/-- R329, R339: a STATUS: the peer's entry in LNK_PEER. -/
def State.bxStatus (s : State) (L : Nat) (bs : List Byte) : State :=
  let s := (s.fput Reg.LNK_PEER_DEV_OP (octet bs 0) 0 L).fput Reg.LNK_PEER_SEVERITY (octet bs 2) 0 L
  (s.fput Reg.LNK_PEER_HAL (octet bs 3) 0 L).modBx L fun x => { x with peerAt := some s.now }

/-- R329, R335: an EPOCH: into the FIFO of 16, or dropped. -/
def State.bxEpoch (s : State) (id : Nat) (bs : List Byte) : State :=
  if s.lnk.epochs.length < 16 then
    let e : Epoch := ⟨id, octet bs 0 % 128, leAt bs 4 4, BitVec.ofNat 64 (leAt bs 8 8)⟩
    { s with lnk := { s.lnk with epochs := s.lnk.epochs ++ [e] } }
  else s.raise Reg.LNK0_CAUSE_EPOCH_OVF

/-- R328: a discarded frame. -/
def State.bxBad (s : State) : State := (s.fadd Reg.LNK_PCRC_ERR_COUNT 1).raise Reg.LNK0_CAUSE_PCRC_ERR

/-- R313, R328 to R335: the octets of a Bexgar frame from VER on arrive on link L. A frame of more than 9,216 bytes (with its
Ethernet header and FCS) is not accepted; one that is not good is discarded; of a good one, the ACK field acts on an UP link,
and then its TYPE. -/
def State.bxRx (s : State) (L : Nat) (o : List Byte) : State :=
  if maxFrame < o.length + 18 then s
  else match bxParse o with
  | none => s.bxBad
  | some (h, bs) =>
    let s := s.heard L
    let up := (s.bx L).st = .up
    let s := if up then s.bxAck L h.ack else s
    match h.type with
    | 1 => if up then s.bxData L h bs else s
    | 2 => s
    | 3 => if up then s.bxNack L h.ack h.sub else s
    | 4 => s.bxIdent L (octet bs 8 % 32) ((octet bs 10).testBit 0)
    | 5 => if up then s.bxStatus L bs else s
    | _ => if up then s.bxEpoch h.srcId bs else s

/-- BX_BAD_FRAME. -/
def execBxBadFrame (t : Time) (f : BxOctets) (s : State) : Host.Outcome State Fault Refusal :=
  let s := s.at t
  done (s.onLink f.link fun s => s.bxRx f.link f.octets)

/-- BX_DATA_RX. -/
def execBxDataRx (t : Time) (link : Nat) (header body : List Byte) (s : State) : Host.Outcome State Fault Refusal :=
  let s := s.at t
  done (s.onLink link fun s => s.bxRx link (header ++ body))

/-- BX_ACK_RX. -/
def execBxAckRx (t : Time) (link : Nat) (octets : List Byte) (s : State) : Host.Outcome State Fault Refusal :=
  let s := s.at t
  done (s.onLink link fun s => s.bxRx link octets)

/-- BX_NACK_RX. -/
def execBxNackRx (t : Time) (link : Nat) (header body : List Byte) (s : State) : Host.Outcome State Fault Refusal :=
  let s := s.at t
  done (s.onLink link fun s => s.bxRx link (header ++ body))

/-- BX_IDENT_RX. -/
def execBxIdentRx (t : Time) (link : Nat) (header body : List Byte) (s : State) : Host.Outcome State Fault Refusal :=
  let s := s.at t
  done (s.onLink link fun s => s.bxRx link (header ++ body))

/-- BX_STATUS_RX. -/
def execBxStatusRx (t : Time) (link : Nat) (header payload pcrc pad : List Byte) (s : State) :
    Host.Outcome State Fault Refusal :=
  let s := s.at t
  done (s.onLink link fun s => s.bxRx link (header ++ payload ++ pcrc ++ pad))

/-- BX_EPOCH_RX. -/
def execBxEpochRx (t : Time) (link : Nat) (header payload pcrc pad : List Byte) (s : State) :
    Host.Outcome State Fault Refusal :=
  let s := s.at t
  done (s.onLink link fun s => s.bxRx link (header ++ payload ++ pcrc ++ pad))

/-! ### Frames the device sends -/

/-- R313, R335: payload bytes of stream n's next frame: at most MAX_PAYLOAD, and no more than a tagged frame of 9,216 bytes
holds (log 157). -/
def State.nextLen (s : State) (n : Nat) : Nat :=
  min (min (s.fget Reg.LNK_CFG_MAX_PAYLOAD) (maxFrame - 46)) ((s.txs n).rptr.ahead (s.txs n).wptr (s.txBytes n))

/-- R330, R335: stream n can send a frame on link L now. -/
def State.canSend (s : State) (L n : Nat) : Bool :=
  s.fbit Reg.TX_CFG_EN 0 n && s.fget Reg.TX_CFG_LINK 0 n == L && decide (0 < s.txBytes n) &&
  decide (0 < s.nextLen n) &&
  decide ((s.bx L).retained.foldl (fun a f => a + f.size) 0 + 24 + s.nextLen n ≤ 0x400000)

/-- R335: BX_DATA_TX: the next stream in turn with committed data and replay room sends a frame. -/
def State.bxDataTx (s : State) (L : Nat) : State :=
  let turn := Sparse.get (fun _ => 15) s.lnk.turn L
  if (s.bx L).st ≠ .up ∨ (s.bx L).resendFrom.isSome ∨ s.mem ≠ .ready then s
  else match ((List.range 16).map fun k => (turn + 1 + k) % 16).find? (s.canSend L) with
    | none => s
    | some n =>
      let x := s.txs n
      let len := s.nextLen n
      let (s, bs) := s.regionGet (65536 * s.fget Reg.TX_BASE_BASE 0 n) x.rptr.off (s.txBytes n) len
      let f : BxFrame :=
        { seqNo := (s.bx L).nextSeq, txStream := n, dst := s.fget Reg.TX_CFG_DST_ID 0 n
          dstStream := s.fget Reg.TX_CFG_DST_STREAM 0 n, offset := x.offs, len := len, slot := (s.bx L).nextSlot }
      let s := s.regionPut (s.replayBase L) f.slot 0x400000 (bxOctets s.lineId L { f.out bs with ack := (s.bx L).expect })
      let s := s.modTx n fun x =>
        { x with rptr := x.rptr.step len (s.txBytes n), offs := (x.offs + len) % 2 ^ 32 }
      let s := s.modBx L fun y =>
        { y with retained := y.retained ++ [f], nextSeq := (y.nextSeq + 1) % 2 ^ 32
                 ackMoved := if y.retained.isEmpty then s.now else y.ackMoved }
      let s := { s with lnk := { s.lnk with turn := Sparse.put (fun _ => 15) s.lnk.turn L n } }
      s.bxSend L (f.out bs)

/-- BX_DATA_TX. -/
def execBxDataTx (t : Time) (link : Nat) (s : State) : Host.Outcome State Fault Refusal :=
  let s := s.at t
  done (s.onLink link fun s => s.bxDataTx link)

/-- R332: BX_ACK_TX: ACK_N frames have been taken, or ACK_T is over. -/
def execBxAckTx (t : Time) (link : Nat) (s : State) : Host.Outcome State Fault Refusal :=
  let s := s.at t
  done (s.onLink link fun s =>
    let x := s.bx link
    if x.st = .up ∧ 0 < x.taken ∧
        (max 1 (s.fget Reg.LNK_ACK_ACK_N) ≤ x.taken ∨ x.takenAt + us * s.fget Reg.LNK_ACK_ACK_T ≤ s.now) then
      s.bxSend link (bxPlain 2 (s.peerId link))
    else s)

/-- R329, R333: BX_IDENT_TX: every 1 ms. -/
def execBxIdentTx (t : Time) (link : Nat) (s : State) : Host.Outcome State Fault Refusal :=
  let s := s.at t
  done (s.onLink link fun s =>
    let x := s.bx link
    if x.st = .hello ∧ x.identAt.all fun a => decide (a + ms ≤ s.now) then
      let s := s.modBx link fun x => { x with identAt := some s.now }
      let flags := s.lineId + 256 * (link % 4) + if x.peerSeen then 65536 else 0
      s.bxSend link { bxPlain 4 0 with payload := leBytes 8 Config.devUid.toNat ++ leBytes 4 flags ++ leBytes 4 0 }
    else s)

/-- R77: the encoding of DEV_OP. -/
def DevOp.code : DevOp → Nat
  | .boot => 0 | .run => 1 | .limited => 2

/-- R337: the encoding of the servo state. -/
def ServoState.code : ServoState → Nat
  | .free => 0 | .locking => 1 | .locked => 2 | .holdover => 3

/-- R329: the highest unacknowledged severity in Kingpost. -/
def State.topSeverity (s : State) : Nat :=
  s.kps.slots.foldl (fun a e => if e.2.valid then max a e.2.sev else a) 0

/-- R329: the payload of a STATUS frame. -/
def State.statusPayload (s : State) : List Byte :=
  leBytes 4 (s.devOp.code + 2 ^ 8 * s.devState.code + 2 ^ 16 * s.topSeverity + 2 ^ 24 * s.hal.servo.code) ++
  leBytes 4 (s.fget Reg.SEQ_DEV_PAGE_PAGE) ++ leBytes 8 0

/-- R329: BX_STATUS_TX: every STATUS_T, each UP link sends STATUS with BCAST. -/
def execBxStatusTx (t : Time) (s : State) : Host.Outcome State Fault Refusal :=
  let s := s.at t
  done (s.onIsland isleNetwork fun s =>
    if s.lnk.statusAt.all fun a => decide (a + ms * max 1 (s.fget Reg.LNK_STATUS_T_STATUS_T) ≤ s.now) then
      State.forEach { s with lnk := { s.lnk with statusAt := some s.now } } s.upLinks fun s L =>
        s.bxSend L { bxPlain 5 (s.peerId L) with bcast := true, payload := s.statusPayload }
    else s)

/-- R332: BX_RETRY_RESEND: the wait after a FULL or NOTREADY is over. -/
def execBxRetryResend (t : Time) (link : Nat) (s : State) : Host.Outcome State Fault Refusal :=
  let s := s.at t
  done (s.onLink link fun s =>
    let x := s.bx link
    match x.resendFrom with
    | some a => if x.st = .up ∧ x.resendAt ≤ s.now then s.resendFrom link a else s
    | none => s)

/-- R332, R333: RTO: the oldest retained frame onward is resent; RETRY_MAX timeouts in a row end UP. -/
def State.rto (s : State) (L : Nat) : State :=
  let x := s.bx L
  match x.retained with
  | [] => s
  | f :: _ =>
    if x.st ≠ .up ∨ s.now < x.ackMoved + us * s.fget Reg.LNK_RTO_RTO then s
    else
      let s := (s.modBx L fun x => { x with retries := x.retries + 1, ackMoved := s.now }).raise Reg.LNK0_CAUSE_RTO
      let s := s.resendFrom L f.seqNo
      if max 1 (s.fget Reg.LNK_RTO_RETRY_MAX) ≤ (s.bx L).retries then s.leaveUp L else s

/-- RTO. -/
def execRto (t : Time) (link : Nat) (s : State) : Host.Outcome State Fault Refusal :=
  let s := s.at t
  done (s.onLink link fun s => s.rto link)

/-- R333: BX_LINK_TIMEOUT: no valid frame for 3 × STATUS_T. -/
def execBxLinkTimeout (t : Time) (link : Nat) (s : State) : Host.Outcome State Fault Refusal :=
  let s := s.at t
  done (s.onLink link fun s =>
    if (s.bx link).heardAt + 3 * ms * max 1 (s.fget Reg.LNK_STATUS_T_STATUS_T) ≤ s.now then s.leaveUp link else s)

end Sys2Proof.Machine
end

