-- ==== Sys2Proof/Machine/Net.lean ====
section
/-! DEFINITION. The Ethernet ports, their time stamps, and the Halyard clock with its servo (R313 to R326, R336 to
R338). -/

namespace Sys2Proof.Machine

/-! ### Ethernet ports -/

/-- R313, R336: the links of port e in its mode. -/
def Eth.lanes (x : Eth) : List Nat := if x.mode = 2 then [0, 1, 2, 3] else [0]

/-- R336: the port's state follows its links. -/
def Eth.settle (x : Eth) : Eth :=
  { x with st :=
      if x.st = .disabled then .disabled else if x.up.isEmpty then .training
      else if x.lanes.all x.up.contains then .up else .partialUp }

/-- R336: ENABLE. -/
def specEthEnable (s : State) (e : Nat) : CmdSpec :=
  { unlock := true, legal := (s.eth e).st == .disabled
    cond := s.fget Reg.ETH_CFG_MODE e != 3 && s.fget Reg.ETH_CFG_FEC25 e != 3
    eff := fun s => s.modEth e fun x => { x with
      st := .training, mode := s.fget Reg.ETH_CFG_MODE e, up := [], anDone := 0 } }

/-- ETH_ENABLE. -/
def execEthEnable (t : Time) (m : Master) (e : Nat) (s : State) : Host.Outcome State Fault Refusal :=
  let s := s.at t
  done (s.command m .eth e 0x01 0 (s.gatedEth e) (some (specEthEnable s e)))

/-- R333, R336: lane k's link goes down. -/
def State.ethDown (s : State) (e k : Nat) : State :=
  if !(s.eth e).up.contains k then s
  else ((s.leaveUp (4 * e + k)).modEth e fun x => { x with up := x.up.filter (· ≠ k) }.settle).raise Reg.ETH_CAUSE_LINK_DOWN e

/-- R336: DISABLE. -/
def specEthDisable (s : State) (e : Nat) : CmdSpec :=
  { legal := (s.eth e).st != .disabled
    eff := fun s => (s.forEach [0, 1, 2, 3] fun s k => s.ethDown e k).modEth e fun x => { x with
      st := .disabled, mode := 0, up := [], anDone := 0 } }

/-- ETH_DISABLE. -/
def execEthDisable (t : Time) (m : Master) (e : Nat) (s : State) : Host.Outcome State Fault Refusal :=
  let s := s.at t
  done (s.command m .eth e 0x02 0 false (some (specEthDisable s e)))

/-- R336: CLR_CNT. -/
def specEthClrCnt (e : Nat) : CmdSpec :=
  { eff := fun s => s.forEach (List.range 5) fun s i => s.setWord (regAddr .eth e (0x80 + 4 * i)) 0 }

/-- ETH_CLR_CNT. -/
def execEthClrCnt (t : Time) (m : Master) (e : Nat) (s : State) : Host.Outcome State Fault Refusal :=
  let s := s.at t
  done (s.command m .eth e 0x03 0 false (some (specEthClrCnt e)))

/-- R313: the lanes that link k of a port runs on: in modes 0 and 1 all four, in mode 2 its own. -/
def Eth.lanesOf (x : Eth) (k : Nat) : List Nat := if x.mode = 2 then [k] else [0, 1, 2, 3]

/-- R336: ETH_LINK_UP. The deskew that the device measures on each lane of the link is a free value. -/
def State.ethLinkUp (s : State) (e k : Nat) : State :=
  let x := s.eth e
  if x.st = .disabled ∨ !x.lanes.contains k ∨ x.up.contains k then s
  else
    let s := (s.forEach (x.lanesOf k) fun s j => s.fput Reg.ETH_DESKEW_SKEW (s.drawn / 65536 ^ j % 65536) e j).drew
    let an := s.fbit Reg.ETH_CFG_AN_EN e
    (s.modEth e fun x => { x with up := insertNat k x.up, anDone := if an then x.anDone ||| 2 ^ k else x.anDone }.settle).raise
      Reg.ETH_CAUSE_LINK_UP e

/-- ETH_LINK_UP. -/
def execEthLinkUp (t : Time) (e k : Nat) (s : State) : Host.Outcome State Fault Refusal :=
  let s := s.at t
  done (s.onIsland isleNetwork fun s => s.ethLinkUp e k)

/-- ETH_LINK_DOWN. -/
def execEthLinkDown (t : Time) (e k : Nat) (s : State) : Host.Outcome State Fault Refusal :=
  let s := s.at t
  done (s.onIsland isleNetwork fun s => s.ethDown e k)

/-! ### The Halyard clock -/

/-- R319: the modulus of Halyard time, in 2⁻³² ns. -/
abbrev halModulus : Nat := 2 ^ 48 * 1000000000 * 2 ^ 32

/-- R319: INC_NOM as it acts. -/
def State.nomInc (s : State) : Nat :=
  let n := s.fget Reg.HAL_INC_NOM_LO_INC + 2 ^ 32 * s.fget Reg.HAL_INC_NOM_HI_INC
  if n < 2 ^ 32 ∨ 3 * 2 ^ 32 < n then 2 ^ 33 else n

/-- R325: what the servo's adjustment has removed from the time in all. -/
def State.removed (s : State) : Int :=
  s.hal.removed + ((s.hal.nom : Int) - s.hal.inc) * ((s.now / 2000 - s.hal.baseTick : Nat) : Int)

/-- R319, R324: the increment of the ticks that follow. -/
def State.retime (s : State) : State :=
  let inc := (roundNear 10 ((s.nomInc : Rat) * (1 - s.hal.adj / 1000000000))).toNat
  { s with hal := { s.hal with
      base := s.halTime % halModulus, baseTick := s.now / 2000, removed := s.removed, nom := s.nomInc, inc := inc } }

/-- A value held within ±m. -/
def clampTo (m x : Rat) : Rat := max (-m) (min m x)

/-- R322: adj is held within ±SLEW_MAX. -/
def State.holdAdj (s : State) : State :=
  { s with hal := { s.hal with adj := clampTo s.slewMax s.hal.adj } }

/-- R324: the servo state after an offset of x ns; from HOLDOVER it goes to LOCKING. -/
def State.servoNext (s : State) (x : Rat) : State :=
  let h := s.hal
  let ok : Bool := decide (absRat x ≤ (s.fget Reg.HAL_LOCK_LOCK_THR : Rat))
  let run := if ok then h.lockRun + 1 else 0
  let locked := ok && h.servo != .holdover && (h.servo == .locked || decide (s.fget Reg.HAL_LOCK_LOCK_N ≤ run))
  let s := { s with hal := { h with lockRun := run, servo := if locked then ServoState.locked else ServoState.locking } }
  s.when (locked && h.servo != .locked) fun s => s.raise Reg.HAL0_CAUSE_LOCK

/-- R324: the servo handles an offset θ, in 2⁻¹⁶ ns; `ref` is what the adjustment had removed when it was measured. -/
def State.servo (s : State) (th ref : Int) : State :=
  let s := s.latch .hal0 0
  let x : Rat := (th : Rat) / 65536
  let m : Rat := s.slewMax
  let h := s.hal
  let sgn : Int := if x < 0 then -1 else 1
  let s :=
    if absRat x ≤ (s.fget Reg.HAL_STEP_THR_THR : Rat) then
      let integ := clampTo m (h.integ + (s.fget Reg.HAL_KI_KI : Rat) / 65536 * x)
      let adj := clampTo m ((s.fget Reg.HAL_KP_KP : Rat) / 65536 * x + integ)
      State.when { s with hal := { h with integ := integ, adj := adj, nb := 0, stepPend := false } } h.stepPend fun s =>
        s.raise Reg.HAL0_CAUSE_STEP_CANCEL
    else
      let nb := if 0 < h.nb ∧ h.lastSign = sgn then h.nb + 1 else 1
      { s with hal := { h with
          nb := nb, lastSign := sgn, adj := sgn * m
          stepPend := h.stepPend || decide (max 1 (s.fget Reg.HAL_STEP_STEP_N) ≤ nb) } }
  let s := (s.servoNext x).retime
  let s := s.putWide Reg.HAL_LAST_OFS_LO_OFS Reg.HAL_LAST_OFS_HI_OFS (unsign 64 (fixInt 17 ((th : Rat) / 256)))
  State.latch { s with hal := { s.hal with theta := th, thetaAt := s.now, removedRef := ref } } .hal0 0

/-- R325: the amount of the pending step as it stands, in 2⁻³² ns: θ less ρ, what the adjustment has removed since θ was
measured. -/
def State.pendAmount (s : State) : Int := -(s.hal.theta * 2 ^ 16 - (s.removed - s.hal.removedRef))

/-- R325: the time moves by an amount, in 2⁻³² ns. -/
def State.applyStep (s : State) (amount : Int) : State :=
  let s := s.latch .hal0 0
  let base := ((s.halTime + amount) % (halModulus : Int)).toNat
  let s := (State.holdAdj { s with hal := { s.hal with nb := 0, adj := s.hal.integ, stepPend := false } }).retime
  let s := { s with hal := { s.hal with base := base, lastStepAt := some s.now } }
  let s := (s.raise Reg.HAL0_CAUSE_TIME_STEP).fput Reg.HAL_STEP_CNT_COUNT (s.fget Reg.HAL_STEP_CNT_COUNT + 1)
  (s.putWide Reg.HAL_LAST_STEP_LO_STEP Reg.HAL_LAST_STEP_HI_STEP (unsign 64 (fixInt 11 ((amount : Rat) / 2 ^ 24)))).send
    0 9 kindTimeStep 0 0

/-- R46: the device state in which the time may step. -/
def State.mayStep (s : State) : Bool :=
  match s.devState with
  | .boundary | .armed | .idle => true
  | _ => false

/-- R325: TIME_STEP. -/
def execTimeStep (t : Time) (s : State) : Host.Outcome State Fault Refusal :=
  let s := s.at t
  done (s.onIsland isleNetwork fun s => if s.hal.stepPend && s.mayStep then s.applyStep s.pendAmount else s)

/-- R323, R337, R453: OFFSET; until the firmware runs no offset is fed (log 123). -/
def specOffset (s : State) : CmdSpec :=
  { cond := !s.fbit Reg.HAL_CFG_SRC
    eff := fun s => if s.devOp = .boot then s else s.servo (signed 64 (s.wide Reg.HAL_OFS_IN_LO_OFS Reg.HAL_OFS_IN_HI_OFS) * 256) s.removed }

/-- OFFSET. -/
def execOffset (t : Time) (m : Master) (s : State) : Host.Outcome State Fault Refusal :=
  let s := s.at t
  done (s.command m .hal0 0 0x01 0 false (some (specOffset s)))

/-- R326: SET_TIME: the whole time is loaded; it counts as a step. -/
def specSetTime (s : State) : CmdSpec :=
  { unlock := true, legal := s.mayStep, cond := decide (s.fget Reg.HAL_SET_NS_NS ≤ 999999999)
    eff := fun s =>
      let sec := s.wide Reg.HAL_SET_SEC_LO_SEC Reg.HAL_SET_SEC_HI_SEC
      let new : Nat := (sec * 1000000000 + s.fget Reg.HAL_SET_NS_NS) * 2 ^ 32
      s.applyStep ((new : Int) - s.halTime % halModulus) }

/-- SET_TIME. -/
def execSetTime (t : Time) (m : Master) (s : State) : Host.Outcome State Fault Refusal :=
  let s := s.at t
  done (s.command m .hal0 0 0x02 0 false (some (specSetTime s)))

/-- R325, R337: CANCEL_STEP. -/
def specCancelStep (s : State) : CmdSpec :=
  { legal := s.hal.stepPend
    eff := fun s => let s := s.latch .hal0 0; { s with hal := { s.hal with stepPend := false } } }

/-- CANCEL_STEP. -/
def execCancelStep (t : Time) (m : Master) (s : State) : Host.Outcome State Fault Refusal :=
  let s := s.at t
  done (s.command m .hal0 0 0x03 0 false (some (specCancelStep s)))

/-- R337: SERVO_RESET. HOLD_T counts from it, as from an offset (log 150). -/
def specServoReset : CmdSpec :=
  { eff := fun s =>
      let s := s.latch .hal0 0
      State.retime { s with hal := { s.hal with
        integ := 0, adj := 0, nb := 0, lockRun := 0, stepPend := false, thetaAt := s.now
        servo := ServoState.free } } }

/-- SERVO_RESET. -/
def execServoReset (t : Time) (m : Master) (s : State) : Host.Outcome State Fault Refusal :=
  let s := s.at t
  done (s.command m .hal0 0 0x04 0 false (some specServoReset))

/-- R324: HOLDOVER_TIMEOUT: no offset for HOLD_T, counted from the release of PORST_N where none has come (log 150). -/
def execHoldoverTimeout (t : Time) (s : State) : Host.Outcome State Fault Refusal :=
  let s := s.at t
  done (s.onIsland isleNetwork fun s =>
    let h := s.hal
    if h.servo ≠ .holdover ∧ max h.thetaAt s.relAt + ms * s.fget Reg.HAL_HOLD_T_HOLD_T ≤ s.now then
      let s := s.latch .hal0 0
      (State.holdAdj { s with hal := { h with servo := ServoState.holdover, adj := h.integ, lockRun := 0 } }).retime
    else s)

/-! ### Stamps and frames -/

/-- R317: the Halyard time of the present instant in 1/256 ns, off by at most 0.25 ns: the error is a free value
(log 27). -/
def State.stamped (s : State) : State × Int :=
  (s.drew, ((s.halTime % halModulus / 2 ^ 24 : Nat) : Int) + (s.drawn % 129 : Nat) - 64)

/-- R323: a PTP message comes from the port that HAL_PAIR_SRC names, in the domain, on the link. -/
def State.paired (s : State) (L : Nat) (p : Ptp) : Bool :=
  s.fbit Reg.HAL_CFG_SRC && s.fget Reg.HAL_CFG_PAIR_LINK == L && s.fget Reg.HAL_CFG_DOMAIN == p.domain &&
  s.fget Reg.HAL_PAIR_SRC0_ID == p.srcClock0 && s.fget Reg.HAL_PAIR_SRC1_ID == p.srcClock1 &&
  s.fget Reg.HAL_PAIR_SRC2_PORT == p.srcPort

/-- R323: θ of a pair, in 2⁻¹⁶ ns; t2 is in 1/256 ns, t1 in ns, and `ref` is what had been removed at t2. -/
def State.pairOffset (s : State) (t2 t1 corr ref : Int) : State :=
  s.servo (t2 * 256 - t1 * 65536 - corr - signed 32 (s.fget Reg.HAL_MPD_MPD) * 256) ref

/-- R316: the receive stamp of a frame on link L whose first block came on a lane, in 1/256 ns. -/
def State.rxStamp (s : State) (L lane : Nat) : State × Int :=
  let e := linkPort L
  let (s, st) := s.stamped
  (s, st - s.fget Reg.ETH_RX_LAT_LAT e lane - s.fget Reg.ETH_DESKEW_SKEW e lane)

/-- R323, R453: a Sync stamped t2: a one-step Sync is a pair at once, a two-step Sync waits. Until the firmware runs no offset
is fed. -/
def State.syncRx (s : State) (L : Nat) (t2 : Int) (p : Ptp) : State :=
  if s.devOp = .boot ∨ p.msgType ≠ 0 ∨ !s.paired L p then s
  else if p.twoStep then
    { s with hal := { s.hal with syncs := s.hal.syncs ++ [⟨p.seqId, t2, p.corr, s.now, s.removed⟩] } }
  else s.pairOffset t2 p.t1 p.corr s.removed

/-- R323, R453: a Follow_Up completes its pair; a pair whose t2 lies before the latest step is dropped. -/
def State.followUp (s : State) (L : Nat) (p : Ptp) : State :=
  if s.devOp = .boot ∨ !s.paired L p then s
  else match s.hal.syncs.find? fun w => w.seqId == p.seqId && decide (s.now < w.at0 + 1000 * ms) with
    | none => s
    | some w =>
      let s := { s with hal := { s.hal with syncs := s.hal.syncs.filter (· ≠ w) } }
      if (match s.hal.lastStepAt with | some x => decide (w.at0 < x) | none => false) then s
      else s.pairOffset w.t2 p.t1 (w.corr + p.corr) w.removed

/-- R316, R323: a frame for firmware is stamped if it is a PTP event message, and acts on the servo as R323 says. -/
def State.ptpRx (s : State) (L : Nat) (f : EthFrame) : State × Option Int :=
  match eventOf f.octets, followUpOf f.octets with
  | some (_, p), _ =>
    let (s, t) := s.rxStamp L f.lane
    (s.syncRx L t p, some t)
  | none, some p => (s.followUp L p, none)
  | none, none => (s, none)

/-- R313, R315, R316: ETH_FRAME_RX. A frame of more than 9,216 bytes is not accepted. What goes to Bexgar acts through the
BX commands. R453: while the cluster reboots, its queue takes nothing. -/
def State.ethRx (s : State) (L : Nat) (f : EthFrame) : State :=
  let e := linkPort L
  let o := f.octets
  if !s.ethUp L ∨ maxFrame < o.length then s
  else if !fcsGood o then (s.fadd Reg.ETH_FCS_ERR_COUNT 1 e).raise Reg.ETH_CAUSE_FCS_ERR e
  else
    let s := s.fadd Reg.ETH_RX_FRAMES_COUNT 1 e
    if isPause o then (s.fadd Reg.ETH_PAUSE_RX_COUNT 1 e).raise Reg.ETH_CAUSE_PAUSE_RX e
    else if !s.toLink L o ∨ (etherBody o).1 = bexgarType then s
    else
      let (s, t) := s.ptpRx L f
      if f.fwFull ∨ s.devOp = .boot then (s.fadd Reg.ETH_RX_DROP_COUNT 1 e).raise Reg.ETH_CAUSE_RX_DROP e
      else s.modEth e fun x => { x with rx := some ⟨o, t⟩ }

/-- ETH_FRAME_RX. -/
def execEthFrameRx (t : Time) (link : Nat) (f : EthFrame) (s : State) : Host.Outcome State Fault Refusal :=
  let s := s.at t
  done (s.onIsland isleNetwork fun s => s.ethRx link f)

/-- R323: PAIR_MISS: a Sync has waited 1 s. -/
def execPairMiss (t : Time) (s : State) : Host.Outcome State Fault Refusal :=
  let s := s.at t
  done (s.onIsland isleNetwork fun s =>
    let keep := s.hal.syncs.filter fun w => decide (s.now < w.at0 + 1000 * ms)
    if keep = s.hal.syncs then s
    else State.raise { s with hal := { s.hal with syncs := keep } } Reg.HAL0_CAUSE_PAIR_MISS)

/-- R316, R318, R338: PTP_FRAME_TX: a frame of firmware, without its FCS, leaves on a lane of link L. A PTP event message
is stamped: a one-step frame carries its stamp, a two-step frame's stamp goes to the FIFO. `req` is the receive stamp
(1/256 ns) of the request that a Pdelay_Resp answers. A frame of more than 9,216 bytes is not sent. -/
def State.ptpTx (s : State) (L lane : Nat) (one : Bool) (req : Int) (o : List Byte) : State :=
  let e := linkPort L
  if !s.ethUp L ∨ maxFrame < o.length + 4 then s
  else
    let send (s : State) (o : List Byte) : State :=
      (s.fadd Reg.ETH_TX_FRAMES_COUNT 1 e).modEth e fun x => { x with tx := withFcs o }
    match eventOf o with
    | none => send s o
    | some (a, p) =>
      let (s, st) := s.stamped
      let tx := st + s.fget Reg.ETH_TX_LAT_LAT e lane
      if one then send s (stampOneStep o a p tx req)
      else
        let s := send s o
        if s.hal.stamps.length < 16 then
          let x : TxStamp := ⟨L, p.msgType, p.domain, p.seqId, (tx % (2 ^ 48 * 1000000000 * 256)).toNat⟩
          { s with hal := { s.hal with stamps := s.hal.stamps ++ [x] } }
        else s.raise Reg.HAL0_CAUSE_TS_OVF

/-- PTP_FRAME_TX. -/
def execPtpFrameTx (t : Time) (link lane : Nat) (oneStep : Bool) (f : PtpTx) (s : State) :
    Host.Outcome State Fault Refusal :=
  let s := s.at t
  done (s.onIsland isleNetwork fun s => s.ptpTx link lane oneStep f.req f.octets)

/-- R338: TXTS_POP. -/
def specTxtsPop (s : State) : CmdSpec :=
  { legal := !s.hal.stamps.isEmpty
    eff := fun s => { s with hal := { s.hal with stamps := s.hal.stamps.drop 1 } } }

/-- TXTS_POP. -/
def execTxtsPop (t : Time) (m : Master) (s : State) : Host.Outcome State Fault Refusal :=
  let s := s.at t
  done (s.command m .hal1 0 0x01 0 false (some (specTxtsPop s)))

end Sys2Proof.Machine
end

