-- ==== Sys2Proof/Machine/Pcie.lean ====
section
/-! DEFINITION. The PCIe endpoint and Pennant's commands (R341 to R351, R357). -/

namespace Sys2Proof.Machine

/-- The host island. -/
abbrev isleHost := 0

/-- R342: the speeds (1 to 5: 2.5 to 32 GT/s) and widths that the link trains at. -/
def trains (speed width : Nat) : Bool := decide (1 ≤ speed ∧ speed ≤ 5) && [1, 2, 4, 8].contains width

/-- R342, R357: PCIE_LINK_UP: the link has trained at a speed and a width. -/
def execPcieLinkUp (t : Time) (speed width : Nat) (s : State) : Host.Outcome State Fault Refusal :=
  let s := s.at t
  done (s.onIsland isleHost fun s =>
    s.when (trains speed width) fun s =>
      let s := s.latch .pen 0
      State.raise { s with pcie := { s.pcie with linkUp := true, speed := speed, width := width } } Reg.PEN_CAUSE_LINK_UP)

/-- R288, R347: how many bytes of channel c's running host-side descriptor the requests sent so far cover: a free value. -/
def State.sentSoFar (s : State) (d : Desc) : Nat := s.drawn % (d.len + 1)

/-- R303, R347: the running descriptor of a channel loses the host link: with requests in flight or still to send it ends
RD_ERR, and with nothing but its read-back in flight RB_ERR. -/
def State.endHostDesc (s : State) (e c : Nat) (d : Desc) : State :=
  if !d.usesHost ∨ d.len = 0 then s
  else
    let k := s.sentSoFar d
    let s := s.drew
    if k < d.len then (s.modJchan e c fun x => { x with cut := some k }).finishDesc e c d false
    else if d.rb ∧ spaceName d.dst = .host then s.finishDesc e c d true
    else s

/-- R347, R303, R305: host-space requests of Joist that are in flight end. -/
def State.endHostRequests (s : State) : State :=
  s.forEach (List.range 128) fun s k =>
    let e := k / 16
    let c := k % 16
    let s := match (s.jchan e c).run with
      | some d => s.endHostDesc e c d
      | none => s
    match (s.jchan e c).fetchReq, (s.jchan e c).fetching with
    | some _, some i => s.fetchFail e c i
    | _, _ => s

/-- R288: Bus Master Enable is cleared: a running host-side descriptor sends no further request, data or read-back, and ends
RD_ERR, whatever its length (log 25). -/
def State.stopHostRequests (s : State) : State :=
  s.forEach (List.range 128) fun s k =>
    match (s.jchan (k / 16) (k % 16)).run with
    | some d =>
      let n := s.sentSoFar d
      if d.usesHost then s.drew.modJchan (k / 16) (k % 16) fun x => { x with cut := some (min n (x.cut.getD n)) }
      else s
    | none => s

/-- R347: PCIE_RESET: the endpoint's own state only. After a hot reset or a link-down the link is down; AER's log stays
(log 6, log 151). -/
def State.pcieReset (s : State) (k : PcieReset) : State :=
  let s := s.latch .pen 0
  let p := s.pcie
  let up := k == .flr && p.linkUp
  let s := { s with pcie := { Pcie.reset with
    linkUp := up, speed := if up then p.speed else 0, width := if up then p.width else 0, msiPend := p.msiPend
    actWas := p.actWas, msiSent := p.msiSent, aerCor := p.aerCor, aerUnc := p.aerUnc, aerFirst := p.aerFirst
    aerHeader := p.aerHeader, aerReport := p.aerReport } }
  let s := s.endHostRequests.raise Reg.PEN_CAUSE_LINK_DOWN
  if k = .flr then s.raise Reg.PEN_CAUSE_FLR_EV else s

/-- PCIE_RESET. -/
def execPcieReset (t : Time) (kind : PcieReset) (s : State) : Host.Outcome State Fault Refusal :=
  let s := s.at t
  done (s.onIsland isleHost fun s => s.pcieReset kind)

/-- R346: AER_ERROR: an error, with the header of its request where it has one. -/
def execAerError (t : Time) (r : AerReport) (s : State) : Host.Outcome State Fault Refusal :=
  let s := s.at t
  done (s.onIsland isleHost fun s => s.aer r.err r.header)

/-- R342, R344, R346: POISONED_WRITE: discarded whole, and reported as Poisoned TLP Received. In D3hot the function takes no
request to a BAR. -/
def execPoisonedWrite (t : Time) (s : State) : Host.Outcome State Fault Refusal :=
  let s := s.at t
  done (s.onIsland isleHost fun s =>
    s.when s.pcie.d0 fun s => ((s.raise Reg.PEN_CAUSE_POISON).aer .poisoned s.freeHeader).drew)

/-- R351: EOI. -/
def specEoi : CmdSpec :=
  { eff := fun s => if s.fbit Reg.PEN_CTL_MSI_MIRROR && s.actNow then s.raiseMsi else s }

/-- EOI. -/
def execEoi (t : Time) (m : Master) (s : State) : Host.Outcome State Fault Refusal :=
  let s := s.at t
  done (s.command m .pen 0 0x01 0 false (some specEoi))

/-- R357: CLR_CNT. -/
def specPenClrCnt : CmdSpec :=
  { eff := fun s => ((s.fput Reg.PEN_AER_COR_COUNT 0).fput Reg.PEN_AER_UNC_COUNT 0).fput Reg.PEN_MSI_CNT_COUNT 0 }

/-- PEN_CLR_CNT. -/
def execPenClrCnt (t : Time) (m : Master) (s : State) : Host.Outcome State Fault Refusal :=
  let s := s.at t
  done (s.command m .pen 0 0x02 0 false (some specPenClrCnt))

/-- R351: MSI_SEND: the deferred MSI goes out once all four conditions hold. -/
def execMsiSend (t : Time) (s : State) : Host.Outcome State Fault Refusal :=
  let s := s.at t
  done (s.onIsland isleHost fun s =>
    if s.pcie.msiPend && s.msiReady && s.actNow then s.raiseMsi else s)

/-- R341: what the function has. -/
def featurePresent : PcieFeature → Bool
  | .powerManagement | .msi | .express | .aer | .deviceSerial | .flr | .tag10Requester | .tag10Completer | .ecrcGenerate
  | .ecrcCheck => true
  | .msix | .srIov | .ats | .pasid | .atomicOps | .aspmL0s | .aspmL1 | .l1Substates | .resizableBar => false

/-- R343: BAR register n: an address with the type in its low bits (64-bit; BAR2 and BAR4 prefetchable), or the upper half
of one. -/
def Pcie.barWord (p : Pcie) : Nat → Nat
  | 0 => p.bar0 % 2 ^ 32 + 4
  | 1 => p.bar0 / 2 ^ 32
  | 2 => p.bar2 % 2 ^ 32 + 12
  | 3 => p.bar2 / 2 ^ 32
  | 4 => p.bar4 % 2 ^ 32 + 12
  | 5 => p.bar4 / 2 ^ 32
  | _ => 0

/-- A 64-bit address with its lower word written; the bits below a BAR's size stay 0. -/
def barLow (size old v : Nat) : Nat := (old / 2 ^ 32 * 2 ^ 32 + v) / size * size
/-- With its upper word written. -/
def barHigh (old v : Nat) : Nat := v * 2 ^ 32 + old % 2 ^ 32

/-- R343: a write of BAR register n: 64 MiB, 256 MiB and 4 GiB. -/
def Pcie.putBar (p : Pcie) (n v : Nat) : Pcie :=
  match n with
  | 0 => { p with bar0 := barLow 0x4000000 p.bar0 v }
  | 1 => { p with bar0 := barHigh p.bar0 v }
  | 2 => { p with bar2 := barLow 0x10000000 p.bar2 v }
  | 3 => { p with bar2 := barHigh p.bar2 v }
  | 4 => { p with bar4 := barLow 0x100000000 p.bar4 v }
  | 5 => { p with bar4 := barHigh p.bar4 v }
  | _ => p

/-- R341, R343, R345, R346, R351: what a configuration read answers. -/
def State.cfgRead (s : State) : CfgItem → Nat
  | .identity => 0x96001F3C
  | .classRevision =>
    0x11800000 + (Config.devSilrev.toNat / 256 * 16 + Config.devSilrev.toNat % 256) % 256
  | .headerType | .interruptPin => 0
  | .bar n => s.pcie.barWord n
  | .serial => Config.devUid.toNat
  | .feature f => bitOf (featurePresent f)
  | .busMaster => bitOf s.pcie.bme
  | .powerState => if s.pcie.d0 then 0 else 3
  | .msiEnable => bitOf s.pcie.msiEn
  | .msiMask => bitOf s.pcie.masked
  | .msiPending => bitOf s.pcie.msiPendBit
  | .msiAddress => s.pcie.msiAddr.toNat
  | .msiData => s.pcie.msiData.toNat
  | .maxPayload => s.pcie.mps
  | .maxReadReq => s.pcie.mrrs
  | .aerCorrectable => s.pcie.aerCor.toNat
  | .aerUncorrectable => s.pcie.aerUnc.toNat
  | .aerSeverity => s.pcie.aerSev.toNat
  | .aerHeader n => (s.pcie.aerHeader.getD n 0).toNat

/-- Change the endpoint's state. -/
def State.modPcie (s : State) (f : Pcie → Pcie) : State := { s with pcie := f s.pcie }

/-- R346: status bits of AER are cleared; the header log is free again once its error's bit is clear. -/
def Pcie.clearAer (p : Pcie) (cor unc : Word) : Pcie :=
  let w := p.aerUnc &&& ~~~unc
  { p with aerCor := p.aerCor &&& ~~~cor, aerUnc := w, aerFirst := p.aerFirst.filter fun x => w.getLsbD (aerBit x) }

/-- R344: a request completes with Unsupported Request. -/
def State.refuseRequest (s : State) : State :=
  ((s.modPcie fun p => { p with answer := some .unsupported }).aer .unsupported s.freeHeader).drew

/-- R341 to R346, R351: a request; a configuration request is answered in every power state. -/
def State.configRequest (s : State) (req : CfgReq) : State :=
  let put (f : Pcie → Pcie) : State := s.modPcie fun p => { f p with answer := some (.ok 0) }
  match req with
  | .busMaster v => (put fun p => { p with bme := v }).when (s.pcie.bme && !v) State.stopHostRequests
  | .msiEnable v => put fun p => { p with msiEn := v }
  | .msiMask v => put fun p => { p with masked := v }
  | .msiAddress a => put fun p => { p with msiAddr := a }
  | .msiData d => put fun p => { p with msiData := d }
  | .d0 v => put fun p => { p with d0 := v }
  | .maxPayload n => put fun p => { p with mps := min 512 n }
  | .maxReadReq n => put fun p => { p with mrrs := n }
  | .bar n v => put fun p => p.putBar n v.toNat
  | .aerSeverity v => put fun p => { p with aerSev := v }
  | .aerClear c u => put fun p => p.clearAer c u
  | .read x => s.modPcie fun p => { p with answer := some (.ok (s.cfgRead x)) }
  | .ioRequest | .lockedRead | .type1 => s.refuseRequest

/-- CONFIGURATION_REQUEST. -/
def execConfigurationRequest (t : Time) (req : CfgReq) (s : State) : Host.Outcome State Fault Refusal :=
  let s := s.at t
  done (s.onIsland isleHost fun s => s.configRequest req)

end Sys2Proof.Machine
end

