-- ==== Sys2Proof/Machine/Kingpost.lean ====
section
/-! DEFINITION. Kingpost's intake, detectors, self-tests, acknowledgement and release (R358 to R394, R476, R477), and the
test access port with the factory test mode (R386, R471 to R474). -/

namespace Sys2Proof.Machine

/-- The Kingpost island. -/
abbrev isleKps := 27

/-! ### Intake -/

/-- R371: a message comes before another of the same cycle. -/
def msgBefore (a b : Word) : Bool :=
  if msgSev a ≠ msgSev b then decide (msgSev b < msgSev a)
  else if msgSource a ≠ msgSource b then decide (msgSource a < msgSource b)
  else decide (msgKind a ≤ msgKind b)

/-- Put a message at its place in the recording order. -/
def insertMsg (w : Word) : List Word → List Word
  | [] => [w]
  | x :: l => if msgBefore x w then x :: insertMsg w l else w :: x :: l

/-- R367: the head messages of every island path. -/
def State.heads (s : State) : List Word := (List.range 30).filterMap fun i => (s.path i).queue.head?

/-- R367: the heads leave their queues. -/
def State.popHeads (s : State) : State :=
  s.forEach (List.range 30) fun s i =>
    let q := s.path i
    if q.queue.isEmpty then s else s.setPath i { q with queue := q.queue.tail }

/-- R371: messages are recorded in order: the state, and each message with its effective severity. -/
def State.recordAll (s : State) : List Word → State × List (Word × Nat)
  | [] => (s, [])
  | w :: l =>
    let (s, eff) := s.record w
    let (s, r) := s.recordAll l
    (s, (w, eff) :: r)

/-- R368 to R371: one Kingpost cycle: the heads are ordered, recorded, and every reaction is ordered. -/
def State.intake (s : State) : State :=
  let ws := s.heads.foldl (fun l w => insertMsg w l) []
  let (s, r) := s.popHeads.recordAll ws
  r.foldl (fun s e => s.react e.1 e.2) s

/-- FAULT_INTAKE. -/
def execFaultIntake (t : Time) (s : State) : Host.Outcome State Fault Refusal :=
  let s := s.at t
  done (s.onIsland isleKps State.intake)

/-- R367: MSG_LOST: the queue of a path has room again. -/
def State.msgLost (s : State) (i : Nat) : State :=
  let q := s.path i
  if q.lost = 0 ∨ 16 ≤ q.queue.length then s
  else (s.setPath i { q with lost := 0 }).post i (msgWord 5 i kindMsgLost 1 q.lost)

/-- MSG_LOST. -/
def execMsgLost (t : Time) (path : Nat) (s : State) : Host.Outcome State Fault Refusal :=
  let s := s.at t
  done (s.onIsland path fun s => s.msgLost path)

/-! ### Detectors -/

/-- R393: STB_MAX of port p as it acts. -/
def State.stbMax (s : State) (p : Nat) : Nat := max 1 (min 512 (s.fget Reg.KPS_STB_STB_MAX 0 p))

/-- R379: whole watchdog periods of 8 ns in a span. -/
def watchdogCounts (span : Time) : Nat := span / (8 * ns)

/-- R379: the count of a readback that has been high since `high` exceeds STB_MAX + 2. -/
def State.stuckNow (s : State) (p : Nat) (high : Time) : Bool := decide (s.stbMax p + 2 < watchdogCounts (s.now - high))

/-- R381: a readback interval of strobe x that began at `high` began inside a window: from 20 ns before a pulse to 20 ns
after it. -/
def State.inWindow (s : State) (p x : Nat) (high : Time) : Bool :=
  ((s.flow p).pulses ++ (s.port p).recent).any fun q =>
    q.strobe == x && decide (q.rise ≤ high + 20 * ns ∧ high ≤ q.fall + 20 * ns)

/-- R381: an interval that began outside every window and has lasted more than 40 ns. -/
def State.rogueNow (s : State) (p x : Nat) (high : Time) : Bool :=
  !s.inWindow p x high && decide (high + 40 * ns < s.now)

/-- R378: the strobe watchdog trips. -/
def State.stuckTrip (s : State) (p x : Nat) : State := (s.send 1 p kindStbStuck 2 x).stopPort p

/-- R378: the rogue-strobe check trips. -/
def State.rogueTrip (s : State) (p x : Nat) : State := (s.send 1 p kindStbRogue 2 x).stopPort p

/-- R378, R379: STB_STUCK: the readback of a strobe at the ball has been high for some time. -/
def execStbStuck (t : Time) (port : Nat) (x : StrobeHigh) (s : State) : Host.Outcome State Fault Refusal :=
  let s := s.at t
  done (s.onPort port fun s => s.when (s.stuckNow port x.since) fun s => s.stuckTrip port x.strobe)

/-- R378, R381: STB_ROGUE: the readback of a strobe at the ball has been high for some time. -/
def execStbRogue (t : Time) (port : Nat) (x : StrobeHigh) (s : State) : Host.Outcome State Fault Refusal :=
  let s := s.at t
  done (s.onPort port fun s => s.when (s.rogueNow port x.strobe x.since) fun s => s.rogueTrip port x.strobe)

/-- R359, R375, R476: Device Safe into LATCHED, recorded by Kingpost itself. -/
def State.latched (s : State) (kind detail : Nat) : State :=
  let w := msgWord 0 2 kind 3 detail
  (s.deviceSafe w true).recordNow w

/-- R359: a lockstep mismatch. -/
def State.lockstep (s : State) : State := s.latched kindLockstep 0

/-- LOCKSTEP. -/
def execLockstep (t : Time) (s : State) : Host.Outcome State Fault Refusal :=
  let s := s.at t
  done (s.onIsland isleKps State.lockstep)

/-- R361: a clock monitor of an island trips. -/
def State.clkLoss (s : State) (i detail : Nat) : State :=
  let w := msgWord 5 i kindClkLoss 3 detail
  let k := s.kps
  let tr := if k.tripped.contains (i, detail) then k.tripped else k.tripped ++ [(i, detail)]
  (State.deviceSafe { s with kps := { k with tripped := tr } } w false).recordNow w

/-- R361, R458: CLK_LOCK shows that the clock of island i has stopped (0), or that its PLL has lost lock (2). -/
def State.unlockClock (s : State) (i detail : Nat) : State :=
  let w := s.fget Reg.CLK_LOCK_LOCK
  s.when ((detail == 0 || detail == 2) && w.testBit i) fun s => s.fput Reg.CLK_LOCK_LOCK (w - 2 ^ i)

/-- CLK_LOSS: the monitor of an island that is powered off is not armed. -/
def execClkLoss (t : Time) (island detail : Nat) (s : State) : Host.Outcome State Fault Refusal :=
  let s := s.at t
  done (s.onIsland isleKps fun s => if s.islandOn island then (s.unlockClock island detail).clkLoss island detail else s)

/-- R362: KPS_WDOG: no heartbeat for 2 ms; R407: in a hardware shutdown the cores are halted. -/
def execKpsWdog (t : Time) (s : State) : Host.Outcome State Fault Refusal :=
  let s := s.at t
  done (s.onIsland isleKps fun s =>
    if s.kps.st = .selftest ∨ s.thm.shutdown ∨ s.now < s.kps.heartbeatAt + 2 * ms then s
    else (s.deviceSafe (msgWord 0 14 kindKpsWdog 3 0) true).send 0 14 kindKpsWdog 3 0)

/-- R362: HEARTBEAT. -/
def execHeartbeat (t : Time) (s : State) : Host.Outcome State Fault Refusal :=
  let s := s.at t
  done (s.onIsland isleKps fun s => { s with kps := { s.kps with heartbeatAt := s.now } })

/-- R394: MGMT_WDOG: the management firmware's heartbeats have a gap longer than TIMEOUT (which 0 disables). -/
def execMgmtWdog (t : Time) (s : State) : Host.Outcome State Fault Refusal :=
  let s := s.at t
  done (s.onIsland isleKps fun s =>
    if s.fget Reg.KPS_MGMT_WDOG_TIMEOUT = 0 then s else s.send 0 15 kindMgmtWdog 1 0)

/-- R360: a latch is set: port 0 to 95, 96 + n motion group n, 127 SAFE_N. -/
def State.latchSet (s : State) (l : Nat) : Bool :=
  if l < 96 then !s.kps.portClear.contains l
  else if l < 104 then !s.kps.motionClear.contains (l - 96)
  else l == 127 && s.kps.deviceLatch

/-- R377: SAFE_RB: a pin of a latch that is set reads high. -/
def execSafeRb (t : Time) (latch : Nat) (s : State) : Host.Outcome State Fault Refusal :=
  let s := s.at t
  done (s.onIsland isleKps fun s =>
    if s.latchSet latch then (s.raise Reg.KPS0_CAUSE_SAFE_RB).latched kindSafeRb latch else s)

/-! ### Self-tests and the configuration checksum -/

/-- R385: a self-test fails. -/
def State.selftestFail (s : State) (code : Nat) : State :=
  let s := s.when (s.fget Reg.KPS_SELFTEST_CODE == 0) fun s => s.fput Reg.KPS_SELFTEST_CODE code
  s.latched kindSelftest code

/-- R358: PERIODIC_SELFTEST of the intake logic. -/
def execPeriodicSelftest (t : Time) (pass : Bool) (code : Nat) (s : State) : Host.Outcome State Fault Refusal :=
  let s := s.at t
  done (s.onIsland isleKps fun s => if pass then s else s.selftestFail code)

/-- Whole milliseconds since the release of PORST_N, saturating at 16 bits (R453 of the boot times). -/
def State.bootMs (s : State) : Nat := min 65535 ((s.now - s.relAt) / ms)

/-- R385: SELFTEST_DONE. -/
def execSelftestDone (t : Time) (pass : Bool) (code : Nat) (s : State) : Host.Outcome State Fault Refusal :=
  let s := s.at t
  done (s.onIsland isleKps fun s =>
    if s.kps.st ≠ .selftest ∨ s.upd.runSafety = 0 then s
    else
      let s := s.fput Reg.CLK_BOOT_T_KPS s.bootMs
      if pass then
        State.fput { s with kps := { s.kps with st := KpsState.hold, heartbeatAt := s.now } } Reg.KPS_SELFTEST_PASS 1
      else s.selftestFail code)

/-- R477: the byte stream of KPS_CFG_CRC. -/
def State.cfgBytes (s : State) : List Byte :=
  (s.portList.flatMap fun p => leBytes 4 (s.fget Reg.KPS_STB_STB_MAX 0 p)) ++
  leBytes 4 (s.fget Reg.KPS_MGMT_WDOG_TIMEOUT)

/-- R477: CFG_CRC_UPDATE. -/
def execCfgCrcUpdate (t : Time) (s : State) : Host.Outcome State Fault Refusal :=
  let s := s.at t
  done (s.onIsland isleKps fun s => s.fput Reg.KPS_CFG_CRC_CRC (crc32c s.cfgBytes).toNat)

/-! ### Commands -/

/-- R382: slot i is free. -/
def State.freeSlot (s : State) (i : Nat) : State := { s with kps := s.kps.setSlot i Slot.reset }

/-- R382, R391: ACK. -/
def specKpsAck (s : State) (arg : Nat) : CmdSpec :=
  let i := argField arg 5 0
  { unlock := true, cond := (s.kps.slot i).valid, eff := fun s => s.freeSlot i }

/-- KPS_ACK. -/
def execKpsAck (t : Time) (m : Master) (arg : Nat) (s : State) : Host.Outcome State Fault Refusal :=
  let s := s.at t
  done (s.command m .kps0 0 0x01 arg false (some (specKpsAck s arg)))

/-- R382, R391: ACK_ALL. -/
def specAckAll (arg : Nat) : CmdSpec :=
  let v := argField arg 1 0
  { unlock := true
    eff := fun s =>
      let s := s.forEach ((List.range 64).filter fun i => decide ((s.kps.slot i).sev ≤ v)) State.freeSlot
      if v = 3 then { s with kps := { s.kps with fullPend := false } } else s }

/-- ACK_ALL. -/
def execAckAll (t : Time) (m : Master) (arg : Nat) (s : State) : Host.Outcome State Fault Refusal :=
  let s := s.at t
  done (s.command m .kps0 0 0x02 arg false (some (specAckAll arg)))

/-- R386: factory test mode is active. -/
def State.ftmActive (s : State) : Bool := s.ftm == .active

/-- R384: nothing stands against the release of Device Safe. -/
def State.releasable (s : State) : Bool :=
  !s.kps.fullPend && s.kps.tripped.isEmpty && !s.thm.shutdown && s.kps.slots.all fun e => !(e.2.valid && e.2.sev == 3)

/-- R384: the device latch and the motion latches clear; RUN. -/
def State.dsafeRelease (s : State) : State :=
  let s := s.latch .kps0 0
  { s with kps := { s.kps with
    dsafe := false, deviceLatch := false, motionClear := List.range 8, st := KpsState.run } }

/-- R386, R387, R446: Sill's own enable of SAFE_N. -/
def State.sillSafeN (s : State) : Bool := !s.porst && !s.ftmActive

/-- R377, R446: the level of SAFE_N: its high side needs the device latch clear and Sill's enable high. -/
def State.safeN (s : State) : Bool := !s.kps.deviceLatch && s.sillSafeN

/-- R384, R387, R391: DSAFE_RELEASE. -/
def specDsafeRelease (s : State) : CmdSpec :=
  { unlock := true, legal := s.kps.st == .hold && !s.ftmActive, cond := s.releasable, eff := State.dsafeRelease }

/-- DSAFE_RELEASE. -/
def execDsafeRelease (t : Time) (m : Master) (s : State) : Host.Outcome State Fault Refusal :=
  let s := s.at t
  done (s.command m .kps0 0 0x03 0 false (some (specDsafeRelease s)))

/-- R391: CLR_CNT. -/
def specKpsClrCnt : CmdSpec :=
  { eff := fun s => (s.fput Reg.KPS_MSG_CNT_COUNT 0).fput Reg.KPS_ESC_CNT_COUNT 0 }

/-- KPS_CLR_CNT. -/
def execKpsClrCnt (t : Time) (m : Master) (s : State) : Host.Outcome State Fault Refusal :=
  let s := s.at t
  done (s.command m .kps0 0 0x04 0 false (some specKpsClrCnt))

/-! ### Injection (R387, R394) -/

/-- R387, R394: the injected word enters as if from its source; the kinds that arise in Kingpost pass no island path
(R476). -/
def State.injectWord (s : State) (w : Word) : State :=
  let k := msgKind w
  if k = kindClkLoss ∨ k = kindLockstep ∨ k = kindSafeRb ∨ k = kindSelftest then s.recordNow w
  else s.post (msgPath (msgClass w) (msgInst w)) w

/-- R378, R394: the stop request that an injected word's kind drives. -/
def State.injectStop (s : State) (w : Word) : State :=
  let i := msgInst w
  let k := msgKind w
  if k = kindSafeRb then (s.raise Reg.KPS0_CAUSE_SAFE_RB).deviceSafe w true
  else if k = kindLockstep ∨ k = kindKpsWdog ∨ k = kindSelftest then s.deviceSafe w true
  else if k = kindClkLoss ∨ k = kindDieOtp then s.deviceSafe w false
  else if k = kindStbStuck ∨ k = kindStbRogue ∨ k = kindHeadCrit ∨ k = kindRtLoss ∨ k = kindNatUe ∨ k = kindTableUe then
    (if msgClass w = 1 then s.portSafe i else s)
  else if k = kindEncLoss then
    (if msgClass w = 2 then s.forEach (s.scopePorts (msgSource w)) State.portSafe else s)
  else if k = kindMotion then
    (if msgSev w = 3 then s.deviceSafe w false else if msgClass w = 3 then s.axisFault i true else s)
  else s

/-- KPS_INJ_MSG. -/
def State.injMsg (s : State) (w : Word) : State := if s.ftmActive then (s.injectStop w).injectWord w else s

/-- KPS_INJ_MSG. -/
def execKpsInjMsg (t : Time) (m : Master) (value : Word) (s : State) : Host.Outcome State Fault Refusal :=
  let s := s.at t
  done (s.by m fun s => s.onIsland isleKps fun s => s.injMsg value)

/-- R387, R394: TEST_RB holds the readback of strobe x of port p high for 1 µs. The interval begins now, or, while the strobe
is high, with its pulse: its detectors react as to the real one, at this instant (log 152). -/
def State.testRb (s : State) (p x : Nat) : State :=
  let e := s.now + us
  let s : State := { s with kps := { s.kps with readback := s.kps.readback.filter (·.1 ≠ 3 * p + x) ++ [(3 * p + x, e)] } }
  let high := match (s.flow p).pulses.find? fun q => q.strobe == x && decide (q.rise ≤ s.now ∧ s.now < q.fall) with
    | some q => q.rise
    | none => s.now
  let s := s.when (!s.inWindow p x high) fun s => s.rogueTrip p x
  s.when (decide (s.stbMax p + 2 < watchdogCounts (e - high))) fun s => s.stuckTrip p x

/-- R394: a write of KPS_INJ_HW. Which detail the tripped monitor reports is a free value. -/
def State.injHw (s : State) (v : Word) : State :=
  if !s.ftmActive then s
  else
    let p := Reg.KPS_INJ_HW_PORT.get v
    let x := Reg.KPS_INJ_HW_STB.get v
    let i := Reg.KPS_INJ_HW_ISLAND.get v
    let s := s.when (v.getLsbD 2 && decide (p < s.portCount ∧ x < 3)) fun s => s.testRb p x
    let s := s.when (v.getLsbD 1 && s.islandOn i) fun s => s.drew.clkLoss i (s.drawn % 5)
    s.when (v.getLsbD 0) State.lockstep

/-- TEST_RB: a write of KPS_INJ_HW. -/
def execTestRb (t : Time) (m : Master) (value : Word) (s : State) : Host.Outcome State Fault Refusal :=
  let s := s.at t
  done (s.by m fun s => s.onIsland isleKps fun s => s.injHw value)

/-- TEST_CLK: a write of KPS_INJ_HW. -/
def execTestClk (t : Time) (m : Master) (value : Word) (s : State) : Host.Outcome State Fault Refusal :=
  let s := s.at t
  done (s.by m fun s => s.onIsland isleKps fun s => s.injHw value)

/-- TEST_LS: a write of KPS_INJ_HW. -/
def execTestLs (t : Time) (m : Master) (value : Word) (s : State) : Host.Outcome State Fault Refusal :=
  let s := s.at t
  done (s.by m fun s => s.onIsland isleKps fun s => s.injHw value)

end Sys2Proof.Machine
end

