-- ==== Sys2Proof/Machine/Cal.lean ====
section
/-! DEFINITION. The calibration of vernier delay lines and sense ADCs (R411 to R420, R422), and the sensor values it is
triggered by (R397, R400, R413). -/

namespace Sys2Proof.Machine

/-- R395: the latest reading of sensor k, in 1/16 °C. -/
def State.temp (s : State) (k : Nat) : Int := Sparse.get (fun _ => 0) s.thm.temps k

/-- R397: the neighbours of sensor k. -/
def neighbours (k : Nat) : List Nat :=
  let w := (thmNbrWord k).toNat
  (List.range (w / 2 ^ 24)).map fun i => w / 64 ^ i % 64

/-- R398: sensor k has not failed. -/
def State.sensorOk (s : State) (k : Nat) : Bool := !s.thm.failed.contains k

/-- The largest of a list of integers. -/
def maxInt : List Int → Option Int
  | [] => none
  | a :: r => some (r.foldl max a)

/-- R400: the substitute for sensor k: 5 °C above its hottest valid neighbour, or above the hottest valid sensor of the
device. With no valid sensor the spec states no value: a free one. -/
def State.substitute (s : State) (k : Nat) : Int :=
  match maxInt (((neighbours k).filter s.sensorOk).map s.temp) with
  | some v => v + 80
  | none => match maxInt (((List.range 64).filter s.sensorOk).map s.temp) with
    | some v => v + 80
    | none => signed 16 s.drawn

/-- R400, R413: what sensor k counts as. -/
def State.sensorValue (s : State) (k : Nat) : Int := if s.sensorOk k then s.temp k else s.substitute k

/-- R411: channel c is present. -/
def State.calPresent (s : State) (c : Nat) : Bool := decide (calK c < 26) && decide (calGroup c < if s.ul24 then 2 else 8)

/-- R411: channel c is a timing channel. -/
def calTiming (c : Nat) : Bool := decide (calK c < 13)

/-- R411: the spare of channel c's kind and group. -/
def calSpare (c : Nat) : Nat := 32 * calGroup c + if calTiming c then 12 else 25

/-- R411: the member channels of a kind in a group, in order. -/
def calMembers (g : Nat) (k : CalKind) : List Nat :=
  (List.range 12).map fun i => 32 * g + (if k = CalKind.timing then 0 else 13) + i

/-- R413: the temperature T of channel c. -/
def State.calTemp (s : State) (c : Nat) : Int :=
  let g := calGroup c
  match calPort c with
  | some p => s.sensorValue (2 * g + p % 12 / 6)
  | none => max (s.sensorValue (2 * g)) (s.sensorValue (2 * g + 1))

/-- R412, R420: TREF of channel c. -/
def State.tref (s : State) (c : Nat) : Int := signed 16 (s.fget Reg.CAL_CSTAT_TREF 0 (calGroup c) (calK c))

/-- R413: an idle channel whose temperature has moved by more than CAL_DT becomes pending. -/
def State.calTrigger (s : State) (c : Nat) : State :=
  let x := s.cal c
  let d := s.calTemp c - x.trig
  if x.phase = .idle ∧ ((s.fget Reg.CAL_CFG_DT : Int) < d ∨ (s.fget Reg.CAL_CFG_DT : Int) < -d) then
    s.modCal c fun x => { x with phase := .pending, forced := false }
  else s

/-- The channels that the device has. -/
def State.calChannels (s : State) : List Nat := (List.range 256).filter s.calPresent

/-- R413: AUTO_EN: every channel is compared with its temperature. -/
def State.calTriggers (s : State) : State :=
  s.when (s.fbit Reg.CAL_CFG_AUTO_EN && s.islandOn 28) fun s => s.forEach s.calChannels State.calTrigger

/-- The channel is in a run (R414). -/
def CalChan.inRun (x : CalChan) : Bool := x.running || x.phase == .p4

/-- R413: a run of channel c's kind is active in its group. -/
def State.calActive (s : State) (c : Nat) : Bool :=
  (calSpare c :: calMembers (calGroup c) (if calTiming c then .timing else .adc)).any fun d => (s.cal d).inRun

/-- R413, R414: an attempt of channel c starts: P1 of a member, which is the one served last from then on (log 126), P2 of
a spare. -/
def State.calBegin (s : State) (c : Nat) : State :=
  let key := 2 * calGroup c + if calTiming c then 0 else 1
  let s := match calPort c with
    | some p => { s with calTurn := Sparse.put (fun _ => 0) s.calTurn key ((p % 12 + 1) % 12) }
    | none => s
  s.modCal c fun x =>
    { x with phase := if (calPort c).isSome then CalPhase.p1 else CalPhase.p2
             startAt := s.now, deferredAt := none, newRes := [], accepted := false }

/-- R413, R418, R422: CAL_RUN. -/
def specCalRun (s : State) (arg : Nat) : CmdSpec :=
  let c := argField arg 7 0
  let force := arg.testBit 8
  { cond := s.calPresent c
    eff := fun s =>
      let x := s.cal c
      if x.inRun then s
      else
        let s := s.modCal c fun x => { x with phase := .pending, forced := x.forced || force }
        if force && !s.calActive c then s.calBegin c else s }

/-- CAL_RUN. -/
def execCalRun (t : Time) (m : Master) (arg : Nat) (s : State) : Host.Outcome State Fault Refusal :=
  let s := s.at t
  let gated := arg.testBit 8 && s.gatedFire (calGroup (argField arg 7 0))
  done (s.command m .cal 0 0x01 arg gated (some (specCalRun s arg)))

/-- R419, R422: CAL_CANCEL; from P4 on the run goes to its end. -/
def specCalCancel (s : State) (arg : Nat) : CmdSpec :=
  let c := argField arg 7 0
  { legal := s.calPresent c && (s.cal c).phase != .idle
    eff := fun s =>
      if (s.cal c).running then s.calAbort c false
      else s.modCal c fun x =>
        if x.phase = .pending then { x with phase := .idle, forced := false, deferredAt := none } else x }

/-- CAL_CANCEL. -/
def execCalCancel (t : Time) (m : Master) (arg : Nat) (s : State) : Host.Outcome State Fault Refusal :=
  let s := s.at t
  done (s.command m .cal 0 0x02 arg false (some (specCalCancel s arg)))

/-- R422: CLR_CNT. -/
def specCalClrCnt : CmdSpec :=
  { eff := fun s => ((s.fput Reg.CAL_RUNS_COUNT 0).fput Reg.CAL_REJECTS_COUNT 0).fput Reg.CAL_SKIPS_COUNT 0 }

/-- CAL_CLR_CNT. -/
def execCalClrCnt (t : Time) (m : Master) (s : State) : Host.Outcome State Fault Refusal :=
  let s := s.at t
  done (s.command m .cal 0 0x03 0 false (some specCalClrCnt))

/-! ### Runs -/

/-- The management island, whose logic serves the CAL and UPD pages (log 14). -/
abbrev isleMgmt := 28

/-- R417: the next attempt of a deferred run may start: 1 ms after the deferral, or once its port has come to a boundary
where its sequencer is not IDLE. -/
def State.calDue (s : State) (c : Nat) : Bool :=
  match (s.cal c).deferredAt with
  | none => true
  | some d => match calPort c with
    | some p => if (s.port p).sq = .idle then decide (d + ms ≤ s.now) else decide (d ≤ (s.flow p).boundaryFrom)
    | none => decide (d + ms ≤ s.now)

/-- R413, R418: the channel whose attempt is next: a forced one first, the spare before the members, then the members
in turn. -/
def State.calNext (s : State) (g : Nat) (k : CalKind) : Option Nat :=
  let key := 2 * g + if k = CalKind.timing then 0 else 1
  let from0 := Sparse.get (fun _ => 0) s.calTurn key
  let ms := calMembers g k
  let order := calSpare (ms.headD 0) :: (ms.drop from0 ++ ms.take from0)
  let ready (c : Nat) : Bool := s.calPresent c && (s.cal c).phase == .pending
  match order.find? fun c => ready c && (s.cal c).forced with
  | some c => some c
  | none => order.find? fun c => ready c && s.calDue c

/-- R413: CAL_ATTEMPT_START: while no run of the kind is active in the group. -/
def State.calAttempt (s : State) (g : Nat) (k : CalKind) : State :=
  match s.calNext g k with
  | none => s
  | some c => if s.calActive c then s else s.calBegin c

/-- CAL_ATTEMPT_START. -/
def execCalAttemptStart (t : Time) (g : Nat) (kind : CalKind) (s : State) : Host.Outcome State Fault Refusal :=
  let s := s.at t
  done (s.onIsland isleMgmt fun s => s.calAttempt g kind)

/-- The pulses that phase k of line l would have if it started at instant t. -/
def State.pulsesAt (s : State) (p k : Nat) (l : Line) (t : Time) : List Pulse :=
  if s.now ≤ t ∧ t ≤ s.now + 100 * ns then ((s.beginPhaseAt p k l t).flow p).pulses else []

/-- R415: the pulses of port p that are scheduled: those of the phase in progress, and of the phases of the scan step,
the line in progress and the scheduled line that start within 100 ns. -/
def State.scheduledPulses (s : State) (p : Nat) : List Pulse :=
  let f := s.flow p
  let h := (s.port p).health
  let ofLine (l : Line) : List Pulse := match l.t0 with
    | some t0 => (List.range 16).flatMap fun k => s.pulsesAt p k l (s.phaseStart p t0 k)
    | none => []
  f.pulses ++
  (match h.stepT0, h.stepLine with
    | some t0, some l => (List.range 16).flatMap fun k => s.pulsesAt p k l (s.stepPhase p t0 k)
    | _, _ => []) ++
  (match f.firing with | some l => ofLine l | none => []) ++
  (match f.lines.find? (·.t0.isSome) with | some l => ofLine l | none => [])

/-- R237, R415: a scan sample of port p is in progress: from the first baseline sample of a phase to the last of its window.
A drift measurement (R249) is made while its strobe is high. -/
def State.sampling (s : State) (p : Nat) : Bool :=
  match (s.port p).health.stepT0 with
  | none => false
  | some t0 => (List.range 16).any fun k =>
      let sk := s.stepPhase p t0 k
      decide (sk ≤ s.now + 320 * ns ∧ s.now ≤ sk + ns * (s.fget Reg.HL_SCAN_SDLY p + 5080))

/-- R415: the present instant is a switch point of channel c. -/
def State.switchPoint (s : State) (c : Nat) : Bool :=
  match calPort c with
  | none => true
  | some p =>
    (s.port p).st == .off || !s.kps.portClear.contains p ||
    ((s.scheduledPulses p).all (fun q =>
        !decide (q.rise ≤ s.now ∧ s.now < q.fall) && !decide (s.now ≤ q.rise ∧ q.rise ≤ s.now + 100 * ns)) &&
     (calTiming c || !s.sampling p))

/-- R415: CAL_TAKEOVER: in P1, within 100 µs of the attempt's start, at a switch point. -/
def State.calTakeover (s : State) (c : Nat) : State :=
  let x := s.cal c
  if x.phase = .p1 ∧ s.now ≤ x.startAt + 100 * us ∧ s.switchPoint c then
    s.modCal c fun x => { x with phase := .p2, standIn := true }
  else s

/-- CAL_TAKEOVER. -/
def execCalTakeover (t : Time) (ch : Nat) (s : State) : Host.Outcome State Fault Refusal :=
  let s := s.at t
  done (s.onIsland isleMgmt fun s => s.calTakeover ch)

/-- R412: the bits that a result of channel c holds. -/
def calMask (c r : Nat) : Word := if calTiming c then 0x00FFFFFF else if r = 0 then 0xFFFFFFFF else 0

/-- R414: CAL_TRIM_DONE: `res` is the result that the trim has found. -/
def State.calTrimDone (s : State) (c : Nat) (res : List Word) : State :=
  if (s.cal c).phase = .p2 then
    s.modCal c fun x =>
      { x with phase := .p3, startAt := s.now, newRes := (List.range 3).map fun r => res.getD r 0 &&& calMask c r }
  else s

/-- CAL_TRIM_DONE. -/
def execCalTrimDone (t : Time) (ch : Nat) (res : List Word) (s : State) : Host.Outcome State Fault Refusal :=
  let s := s.at t
  done (s.onIsland isleMgmt fun s => s.calTrimDone ch res)

/-- R422: address of RESr of channel c. -/
def resAddr (c r : Nat) : Nat := regAddr .cal 0 (0x100 + 0x1C0 * calGroup c + 0x10 * calK c + 4 * r)

/-- R416: an accepted result takes effect: TREF takes T, CAL_DONE is set, CAL_RUNS counts. -/
def State.calCommitRes (s : State) (c : Nat) : State :=
  let x := s.cal c
  let tt := s.calTemp c
  let s := (s.drew.latch .cal 0).forEach (List.range 3) fun s r => s.setWord (resAddr c r) (x.newRes.getD r 0)
  let s := s.fput Reg.CAL_CSTAT_TREF (unsign 16 tt) 0 (calGroup c) (calK c)
  let s := s.modCal c fun x =>
    { x with phase := .idle, forced := false, trig := tt, last := 1, newRes := [], accepted := false, standIn := false }
  (s.raise Reg.CAL_CAUSE_CAL_DONE).fadd Reg.CAL_RUNS_COUNT 1

/-- R417, R418: a message of kind CAL. -/
def State.calMessage (s : State) (c : Nat) : State := s.send 0 4 kindCal 0 c

/-- R418: a forced run ends with its result discarded, and the member takes its function back. -/
def State.calNotQuiet (s : State) (c : Nat) : State :=
  ((s.latch .cal 0).modCal c fun x =>
    { x with phase := .idle, forced := false, last := 4, newRes := [], accepted := false, standIn := false }).raise
    Reg.CAL_CAUSE_CAL_SKIPPED

/-- R416: the result is accepted or rejected. A spare's takes effect at once; a member's run goes on to P4. -/
def State.calVerdict (s : State) (c : Nat) (ok : Bool) : State :=
  let member := (calPort c).isSome
  let s := s.when (!ok) fun s =>
    (((s.raise Reg.CAL_CAUSE_CAL_REJECT).fadd Reg.CAL_REJECTS_COUNT 1).calMessage c).modCal c fun x =>
      { x with last := 2, newRes := [] }
  if member then s.modCal c fun x => { x with phase := .p4, accepted := ok }
  else if ok then s.calCommitRes c
  else s.modCal c fun x => { x with phase := .idle, forced := false }

/-- R416: the three taps of a delay line from its stage delays. -/
def taps (l : List Int) : List Int := [l.getD 0 0, l.getD 0 0 + l.getD 1 0, l.getD 0 0 + l.getD 1 0 + l.getD 2 0]

/-- R416: a timing result: nine stage delays of the channel in ps (three lines of three), and nine of the spare. -/
def State.timingOk (s : State) (c : Nat) (measured : List Int) : Bool :=
  let a := measured.take 9
  let b := (measured.drop 9).take 9
  let line (l : List Int) (i : Nat) : List Int := (l.drop (3 * i)).take 3
  let tol : Int := s.fget Reg.CAL_TOL_TOL_T
  a.length == 9 && a.all (fun d => decide (242 ≤ d ∧ d ≤ 258)) &&
  ((calPort c).isNone ||
    (b.length == 9 && (List.range 3).all fun i =>
      (List.zipWith (· - ·) (taps (line a i)) (taps (line b i))).all fun d => decide (d ≤ tol ∧ -tol ≤ d)))

/-- R417: samples that span at most 8 LSB. -/
def narrowSpan (l : List Int) : Bool := l.all fun a => l.all fun b => decide (a - b ≤ 8)

/-- R417: no strobe of the port has been high from 300 ns before the first of 128 samples (at 25 MS/s, the last of them
now) on. -/
def State.strobesQuiet (s : State) (p : Nat) : Bool :=
  let lo := 5380 * ns
  decide ((s.port p).lastFall + lo ≤ s.now) &&
  (match (s.port p).health.stepT0 with | some t0 => decide (s.now < t0) | none => true) &&
  (s.flow p).pulses.all fun q => decide (s.now < q.rise ∨ q.fall + lo ≤ s.now)

/-- R40, R43, R417: the calibration window of the gap that port p stands in: it opens as the boundary ends, lasts 6 µs at least,
and closes T before the first line of the next page, with no close while none is predicted. None is granted during a boot
(R453). -/
def State.calGap (s : State) (p : Nat) : Option (Time × Option Time) :=
  let x := s.port p
  if s.devOp != .boot && (x.sq == .boundary || x.sq == .armed || x.beforeFirst) then
    match x.flow.boundaryEnd, s.sliceClose p with
    | some b, some e => if b + 6 * us ≤ e then some (b, some e) else none
    | some b, none => some (b, none)
    | none, _ => none
  else none

/-- R240, R417: 128 samples of which the last is taken now lie in the calibration window of port p, which runs before the
first step of a slice granted at the same boundary. -/
def State.calWindow (s : State) (p : Nat) : Bool :=
  let h := (s.port p).health
  (h.st != .stepping || (h.sliceSteps == 0 && h.stepT0.isNone)) &&
  (match s.calGap p with
   | some (b, e) => decide (b + 5080 * ns ≤ s.now) && (match e with | some e => decide (s.now ≤ e) | none => true)
   | none => false)

/-- R417: the calibration window that port p's gap holds is over, and phase P3 had begun at `from0`, before it closed. -/
def State.calWindowOver (s : State) (p : Nat) (from0 : Time) : Bool :=
  match s.calGap p with
  | some (_, some e) => decide (e < s.now ∧ from0 ≤ e)
  | _ => false

/-- R416 to R418: the check of an ADC member on 128 samples of its own and 128 of the spare. -/
def State.adcCheck (s : State) (c p : Nat) (measured : List Int) : State :=
  let x := s.cal c
  let a := measured.take 128
  let b := (measured.drop 128).take 128
  let sum (l : List Int) : Int := l.foldl (· + ·) 0
  let quiet := a.length == 128 && b.length == 128 && narrowSpan a && narrowSpan b && s.strobesQuiet p
  let tol : Int := 128 * s.fget Reg.CAL_TOL_TOL_A
  let ok := decide (sum a - sum b ≤ tol ∧ sum b - sum a ≤ tol)
  if x.forced then (if quiet then s.calVerdict c ok else s.calNotQuiet c)
  else
    let seeks := if (s.port p).sq = .idle then decide (s.now ≤ x.startAt + ms) else s.calWindow p
    if seeks && quiet then s.calVerdict c ok else s

/-- R416: the check of the spare ADC: its conversion of the internal reference, and the factory code. -/
def State.adcSpareOk (s : State) (measured : List Int) : Bool :=
  let d := measured.getD 0 0 - measured.getD 1 0
  let tol : Int := s.fget Reg.CAL_TOL_TOL_A
  measured.length == 2 && decide (d ≤ tol ∧ -tol ≤ d)

/-- R416, R417: CAL_CHECK: what the check has measured. -/
def State.calCheck (s : State) (c : Nat) (measured : List Int) : State :=
  if (s.cal c).phase ≠ .p3 then s
  else if calTiming c then s.calVerdict c (s.timingOk c measured)
  else match calPort c with
    | some p => s.adcCheck c p measured
    | none => s.calVerdict c (s.adcSpareOk measured)

/-- CAL_CHECK. -/
def execCalCheck (t : Time) (ch : Nat) (measured : List Int) (s : State) : Host.Outcome State Fault Refusal :=
  let s := s.at t
  done (s.onIsland isleMgmt fun s => s.calCheck ch measured)

/-- R414: CAL_COMMIT: in P4, at a switch point. -/
def State.calCommit (s : State) (c : Nat) : State :=
  let x := s.cal c
  if x.phase = .p4 ∧ s.switchPoint c then
    (if x.accepted then s.calCommitRes c
     else (s.latch .cal 0).modCal c fun x => { x with phase := .idle, forced := false, standIn := false })
  else s

/-- CAL_COMMIT. -/
def execCalCommit (t : Time) (ch : Nat) (s : State) : Host.Outcome State Fault Refusal :=
  let s := s.at t
  done (s.onIsland isleMgmt fun s => s.calCommit ch)

/-- R417: the attempt of channel c has failed: P1 has found no switch point in 100 µs, or the check of an ADC member no
quiet interval in 1 ms, or in the window of its port. -/
def State.calFailed (s : State) (c : Nat) : Bool :=
  let x := s.cal c
  match x.phase, calPort c with
  | .p1, some _ => decide (x.startAt + 100 * us ≤ s.now)
  | .p3, some p => !calTiming c && !x.forced &&
      (if (s.port p).sq == .idle then decide (x.startAt + ms ≤ s.now) else s.calWindowOver p x.startAt)
  | _, _ => false

/-- R417, R418: CAL_DEFER: the attempt ends, and counts as a deferral, or the run is skipped. -/
def State.calDefer (s : State) (c : Nat) : State :=
  let x := s.cal c
  if !s.calFailed c then s
  else if x.forced then s.calNotQuiet c
  else if x.defers < s.fget Reg.CAL_CFG_DEFER_MAX then
    ((s.latch .cal 0).modCal c fun x =>
      { x with phase := .pending, standIn := false, newRes := [], defers := x.defers + 1, deferredAt := some s.now }).raise
      Reg.CAL_CAUSE_CAL_DEFER
  else
    let tt := s.calTemp c
    let s := (s.drew.latch .cal 0).modCal c fun x =>
      { x with phase := .idle, standIn := false, newRes := [], defers := 0, deferredAt := none, trig := tt, last := 3 }
    ((s.raise Reg.CAL_CAUSE_CAL_SKIPPED).fadd Reg.CAL_SKIPS_COUNT 1).calMessage c

/-- CAL_DEFER. -/
def execCalDefer (t : Time) (ch : Nat) (s : State) : Host.Outcome State Fault Refusal :=
  let s := s.at t
  done (s.onIsland isleMgmt fun s => s.calDefer ch)

/-- R420: a write of a channel's results or TREF takes effect now. -/
def State.calWritable (s : State) (c : Nat) : Bool :=
  !(s.cal c).inRun &&
  (match calPort c with
   | some p => (s.port p).st == .off || (s.port p).st == .service || (s.port p).sq == .idle
   | none =>
     (calMembers (calGroup c) (if calTiming c then .timing else .adc)).all fun d => !(s.cal d).standIn)

/-- R420, R422: a write of RES0 to RES2 (reg 0 to 2) or CSTAT (reg 3) of channel c. -/
def State.calResultWrite (s : State) (c r : Nat) (v : Word) : State :=
  if !s.present .cal 0 || !s.calPresent c || decide (3 < r) then s
  else if !s.calWritable c then s.raise Reg.CAL_CAUSE_CFG_WR
  else if r < 3 then s.setWord (resAddr c r) (v &&& calMask c r)
  else
    (s.fput Reg.CAL_CSTAT_TREF (v.toNat / 2 ^ 16) 0 (calGroup c) (calK c)).modCal c fun x =>
      { x with trig := signed 16 (v.toNat / 2 ^ 16) }

/-- CAL_RESULT_WRITE. -/
def execCalResultWrite (t : Time) (m : Master) (ch reg : Nat) (value : Word) (s : State) :
    Host.Outcome State Fault Refusal :=
  let s := s.at t
  done (s.by m fun s => s.calResultWrite ch reg value)

end Sys2Proof.Machine
end

