-- ==== Sys2Proof/Machine/Crypto.lean ====
section
/-! DEFINITION. The standards that R23 names for images and keys: SHA-256 (FIPS 180-4) and Ed25519 (RFC 8032, with
SHA-512), as functions of bytes (R424, R425). -/

namespace Sys2Proof.Machine

/-! ### SHA-2 -/

/-- The largest r with rᵏ ≤ n, below 2^bits above r. -/
def rootFrom (k n : Nat) : Nat → Nat → Nat
  | 0, r => r
  | b + 1, r => rootFrom k n b (if (r + 2 ^ b) ^ k ≤ n then r + 2 ^ b else r)

/-- The first eighty primes, from which FIPS 180-4 takes its constants. -/
def shaPrimes : List Nat :=
  [2, 3, 5, 7, 11, 13, 17, 19, 23, 29, 31, 37, 41, 43, 47, 53, 59, 61, 67, 71, 73, 79, 83, 89, 97, 101, 103, 107, 109, 113,
   127, 131, 137, 139, 149, 151, 157, 163, 167, 173] ++
  [179, 181, 191, 193, 197, 199, 211, 223, 227, 229, 233, 239, 241, 251, 257, 263, 269, 271, 277, 281, 283, 293, 307, 311,
   313, 317, 331, 337, 347, 349, 353, 359, 367, 373, 379, 383, 389, 397, 401, 409]

/-- The first w bits of the fraction of the k-th root of each of the first n primes. -/
def shaConsts (w k n : Nat) : List Nat :=
  (shaPrimes.take n).map fun p => rootFrom k (p * 2 ^ (k * w)) (w + 4) 0 % 2 ^ w

/-- A hash of the family: word width, rounds, and the rotations of Σ0, Σ1, σ0 and σ1 (the last number of σ shifts). -/
structure Sha where
  w : Nat
  rounds : Nat
  S0 : Nat × Nat × Nat
  S1 : Nat × Nat × Nat
  s0 : Nat × Nat × Nat
  s1 : Nat × Nat × Nat
  deriving DecidableEq, Repr

def sha256Of : Sha := ⟨32, 64, (2, 13, 22), (6, 11, 25), (7, 18, 3), (17, 19, 10)⟩

def sha512Of : Sha := ⟨64, 80, (28, 34, 39), (14, 18, 41), (1, 8, 7), (19, 61, 6)⟩

/-- A word rotated right by n. -/
def rotr (w x n : Nat) : Nat := (x >>> n ||| x <<< (w - n)) % 2 ^ w

def Sha.big (h : Sha) (l : Nat × Nat × Nat) (x : Nat) : Nat := rotr h.w x l.1 ^^^ rotr h.w x l.2.1 ^^^ rotr h.w x l.2.2

def Sha.small (h : Sha) (l : Nat × Nat × Nat) (x : Nat) : Nat := rotr h.w x l.1 ^^^ rotr h.w x l.2.1 ^^^ x >>> l.2.2

/-- One round, with constant k: the eight working variables a to h, and the next sixteen words of the message schedule. -/
def Sha.round (h : Sha) (v : List Nat × List Nat) (k : Nat) : List Nat × List Nat :=
  match v.1 with
  | [a, b, c, d, e, f, g, y] =>
    let word (i : Nat) : Nat := v.2.getD i 0
    let t1 := y + h.big h.S1 e + ((e &&& f) ^^^ ((2 ^ h.w - 1 - e) &&& g)) + k + word 0
    let t2 := h.big h.S0 a + ((a &&& b) ^^^ (a &&& c) ^^^ (b &&& c))
    ([(t1 + t2) % 2 ^ h.w, a, b, c, (d + t1) % 2 ^ h.w, e, f, g],
     v.2.drop 1 ++ [(h.small h.s1 (word 14) + word 9 + h.small h.s0 (word 1) + word 0) % 2 ^ h.w])
  | _ => v

/-- One block of sixteen words. -/
def Sha.block (h : Sha) (hash : List Nat) (words : List Nat) : List Nat :=
  let v := (shaConsts h.w 3 h.rounds).foldl h.round (hash, words)
  (List.zip hash v.1).map fun e => (e.1 + e.2) % 2 ^ h.w

/-- The message, a 1 bit, zeros, and its length in bits: a multiple of sixteen words. -/
def Sha.pad (h : Sha) (m : List Byte) : List Byte :=
  let block := 2 * h.w
  let field := h.w / 4
  let zeros := (2 * block - (m.length + 1 + field) % block) % block
  m ++ 0x80 :: (List.replicate zeros 0 ++ beOctets field (8 * m.length))

/-- The hash of a message. -/
def Sha.hash (h : Sha) (m : List Byte) : List Byte :=
  let p := h.pad m
  let n := h.w / 8
  let out := (List.range (p.length / (2 * h.w))).foldl
    (fun v i => h.block v ((List.range 16).map fun k => beAt p (2 * h.w * i + n * k) n)) (shaConsts h.w 2 8)
  out.flatMap (beOctets n)

/-- R425: SHA-256. -/
def sha256 (m : List Byte) : List Byte := sha256Of.hash m

/-- SHA-512, of which Ed25519 makes use. -/
def sha512 (m : List Byte) : List Byte := sha512Of.hash m

/-! ### Ed25519 -/

/-- The prime 2²⁵⁵ - 19, and the order of the base point. -/
abbrev edP : Nat := 2 ^ 255 - 19

abbrev edL : Nat := 2 ^ 252 + 27742317777372353535851937790883648493

/-- bᵉ modulo the prime, over the low n bits of e. -/
def powP : Nat → Nat → Nat → Nat
  | 0, _, _ => 1
  | n + 1, b, e => (if e % 2 = 1 then b else 1) * powP n (b * b % edP) (e / 2) % edP

def invP (x : Nat) : Nat := powP 255 x (edP - 2)

/-- x - y modulo the prime, of reduced y. -/
def subP (x y : Nat) : Nat := (x + edP - y) % edP

/-- The curve's d = -121665 / 121666. -/
def edD : Nat := subP 0 (121665 * invP 121666 % edP)

/-- A point in extended homogeneous coordinates (RFC 8032, 5.1.4). -/
structure EdPoint where
  x : Nat
  y : Nat
  z : Nat
  t : Nat
  deriving DecidableEq, Repr

def EdPoint.zero : EdPoint := ⟨0, 1, 1, 0⟩

def EdPoint.add (p q : EdPoint) : EdPoint :=
  let a := subP p.y p.x * subP q.y q.x % edP
  let b := (p.y + p.x) * (q.y + q.x) % edP
  let c := p.t * (2 * edD) % edP * q.t % edP
  let d := p.z * 2 * q.z % edP
  let e := subP b a
  let f := subP d c
  let g := (d + c) % edP
  let h := (b + a) % edP
  ⟨e * f % edP, g * h % edP, f * g % edP, e * h % edP⟩

/-- k times a point, over the low n bits of k. -/
def EdPoint.mul : Nat → Nat → EdPoint → EdPoint
  | 0, _, _ => .zero
  | n + 1, k, p => let q := EdPoint.mul n (k / 2) (p.add p); if k % 2 = 1 then q.add p else q

/-- The same point, whatever the coordinates. -/
def EdPoint.same (p q : EdPoint) : Bool := p.x * q.z % edP == q.x * p.z % edP && p.y * q.z % edP == q.y * p.z % edP

/-- The x of a point with this y, with the wanted low bit (RFC 8032, 5.1.3). -/
def edX (y : Nat) (odd : Bool) : Option Nat :=
  let x2 := subP (y * y % edP) 1 * invP (edD * (y * y % edP) + 1) % edP
  if x2 = 0 then (if odd then none else some 0)
  else
    let r := powP 255 x2 ((edP + 3) / 8)
    let x := if r * r % edP = x2 then r else r * powP 255 2 ((edP - 1) / 4) % edP
    if x * x % edP ≠ x2 then none else some (if decide (x % 2 = 1) == odd then x else edP - x)

/-- A point from its 32 octets. -/
def edDecode (bs : List Byte) : Option EdPoint :=
  let n := leNat bs
  let y := n % 2 ^ 255
  if bs.length ≠ 32 ∨ edP ≤ y then none
  else (edX y (decide (2 ^ 255 ≤ n))).map fun x => ⟨x, y, 1, x * y % edP⟩

/-- The base point: y = 4/5, x even. -/
def edBase : EdPoint :=
  let y := 4 * invP 5 % edP
  let x := (edX y false).getD 0
  ⟨x, y, 1, x * y % edP⟩

/-- R424: a signature of a message verifies against a public key (RFC 8032, 5.1.7, with its equation [8][S]B = [8]R +
[8][k]A; log 138). -/
def ed25519Verify (key msg sig : List Byte) : Bool :=
  match edDecode key, edDecode (sig.take 32) with
  | some a, some r =>
    let s := leNat (sig.drop 32)
    let k := leNat (sha512 (sig.take 32 ++ key ++ msg)) % edL
    let eight (p : EdPoint) : EdPoint := p.mul 4 8
    sig.length == 64 && decide (s < edL) && (eight (edBase.mul 256 s)).same ((eight r).add (eight (a.mul 256 k)))
  | _, _ => false

end Sys2Proof.Machine
end

