-- ==== Sys2Proof/Machine/Update.lean ====
section
/-! DEFINITION. The external flash, the update slot, the boot directory, configuration record sets and recipes
(R423 to R443). -/

namespace Sys2Proof.Machine

/-! ### Flash and containers -/

/-- An erased byte of the flash (log 7). -/
abbrev blank : Byte := 0xFF

/-- Bytes of the flash. -/
def State.flashBytes (s : State) (a n : Nat) : List Byte := memBytes blank s.flash a n

/-- R423: base and size of the region that slot or bank b of a class stands in: 1 MGMT_FW, 2 SAFETY_FW, 3 RECIPE,
4 CONFIG (the scratch region). -/
def flashRegion (cls b : Nat) : Nat × Nat :=
  match cls with
  | 1 => (0x400000 + 0x800000 * b, 0x800000)
  | 2 => (0x100000 + 0x100000 * b, 0x100000)
  | 3 => (0x1400000 + 0x1000000 * b, 0x1000000)
  | _ => (0x3800000, 0x800000)

/-- R423: base of record area A (0) or B (1). -/
def areaBase (a : Nat) : Nat := 0x3400000 + 0x200000 * a

/-- Bytes of a record area. -/
abbrev areaSize : Nat := 0x200000

/-- A region of the flash is erased. -/
def State.eraseFlash (s : State) (base n : Nat) : State := { s with flash := Sparse.cut s.flash base n }

/-- Bytes are programmed into the flash. -/
def State.programFlash (s : State) (a : Nat) (bs : List Byte) : State :=
  { s with flash := memPut blank s.flash a bs }

/-- R424: the fields of a container's header. -/
structure Container where
  magicOk : Bool
  cver : Nat
  cls : Nat
  profile : Nat
  sfmt : Nat
  length : Nat
  version : Nat
  pubkey : List Byte
  deriving DecidableEq, Repr

/-- R424: the header of the container that stands at a base of the flash. -/
def State.container (s : State) (base : Nat) : Container :=
  let h := s.flashBytes base 64
  let f (o n : Nat) : Nat := leNat ((h.drop o).take n)
  { magicOk := h.take 4 == [0x56, 0x52, 0x54, 0x53], cver := f 4 2, cls := f 6 1, profile := f 7 1, sfmt := f 8 2,
    length := f 12 4, version := f 16 4, pubkey := h.drop 32 }

/-- The payload of that container. -/
def State.payload (s : State) (base : Nat) : List Byte := s.flashBytes (base + 64) (s.container base).length

/-- R425: the key condition of RECIPE and CONFIG. -/
def keyOk (c : Container) : Bool :=
  c.cls == 1 || c.cls == 2 ||
  (Config.integratorKeyHash.any (fun b => b != 0) && sha256 c.pubkey == Config.integratorKeyHash)

/-- R424: the signature of the container at a base verifies against a key. -/
def State.signedBy (s : State) (key : List Byte) (base : Nat) : Bool :=
  let n := (s.container base).length
  ed25519Verify key (s.flashBytes base (64 + n)) (s.flashBytes (base + 64 + n) 64)

/-- R424, R425: the signature of the container at a base, against the key of its class. -/
def State.signatureOk (s : State) (base : Nat) : Bool :=
  let c := s.container base
  s.signedBy (if c.cls = 1 ∨ c.cls = 2 then Config.vendorKey else c.pubkey) base

/-! ### Record sets -/

/-- R435, R436: a valid record set: its settings format, its sequence number, its REGS payloads in order, the offset of
its COMMIT record and the payload of that record. -/
structure RecordSet where
  sfmt : Nat
  sseq : Nat
  regs : List Byte
  commitAt : Nat
  commit : List Byte
  deriving DecidableEq, Repr

/-- R435: bytes of a record, with the padding to the next 16-byte boundary. -/
def recordSize (len : Nat) : Nat := 16 + (len + 15) / 16 * 16

/-- R436: the record set that starts at offset `o` of an area of `size` bytes; `fmts` and `regs` hold what the records
before have brought; at most n records. -/
def parseSet (read : Nat → Nat → List Byte) (size : Nat) : Nat → Nat → List Nat → List Byte → Option RecordSet
  | 0, _, _, _ => none
  | n + 1, o, fmts, regs =>
    let h := read o 16
    let f (a b : Nat) : Nat := leNat ((h.drop a).take b)
    let kind := f 2 2
    let len := f 4 4
    let sfmt := f 8 2
    if size < o + 16 then none
    else if f 0 2 ≠ 0x5EC0 ∨ size < o + 16 + len then none
    else
      let body := read (o + 16) len
      if (crc32c (h.take 12 ++ body)).toNat ≠ f 12 4 then none
      else match kind with
        | 1 => parseSet read size n (o + recordSize len) (sfmt :: fmts) (regs ++ body)
        | 3 => parseSet read size n (o + recordSize len) (sfmt :: fmts) regs
        | 2 =>
          if len = 16 ∧ fmts.all (· == sfmt) ∧ (crc32c (read 0 o)).toNat = leNat ((body.drop 8).take 4) then
            some { sfmt := sfmt, sseq := leNat (body.take 4), regs := regs, commitAt := o, commit := body }
          else none
        | _ => none

/-- R436: the set that a byte string holds. -/
def setOf (bs : List Byte) : Option RecordSet :=
  parseSet (fun o n => (bs.drop o).take n) bs.length (bs.length / 16 + 1) 0 [] []

/-- R436: the valid set of record area a. -/
def State.areaSet (s : State) (a : Nat) : Option RecordSet :=
  parseSet (fun o n => s.flashBytes (areaBase a + o) n) areaSize (areaSize / 16 + 1) 0 [] []

/-- R436: the newer of the sets of areas A and B, with its area. -/
def newerSet (a b : Option RecordSet) : Option (Nat × RecordSet) :=
  match a, b with
  | some x, some y => if laterPage y.sseq x.sseq then some (1, y) else some (0, x)
  | some x, none => some (0, x)
  | none, some y => some (1, y)
  | none, none => none

/-- R436: the newest valid set among those that pass a test, with its area. -/
def State.newestSet (s : State) (ok : RecordSet → Bool) : Option (Nat × RecordSet) :=
  newerSet ((s.areaSet 0).filter ok) ((s.areaSet 1).filter ok)

/-- R435: a COMMIT record with another sequence number. -/
def recommit (r : RecordSet) (sseq : Nat) : List Byte :=
  let h := leBytes 2 0x5EC0 ++ leBytes 2 2 ++ leBytes 4 16 ++ leBytes 2 r.sfmt ++ leBytes 2 0
  let body := leBytes 4 (sseq % 2 ^ 32) ++ r.commit.drop 4
  h ++ leBytes 4 (crc32c (h ++ body)).toNat ++ body

/-- R436: the set r of the bytes bs is written into a record area with a sequence number; none where it does not fit. -/
def State.putSet (s : State) (area sseq : Nat) (bs : List Byte) (r : RecordSet) : Option State :=
  let image := bs.take r.commitAt ++ recommit r sseq
  if areaSize < image.length then none
  else some ((s.eraseFlash (areaBase area) areaSize).programFlash (areaBase area) image)

/-- R436, R437: a set is written as the newest one: with the newest sequence number plus 1, into the area that does not
hold the newest valid set, or, while an old format is retained, over the new-format set. Where there is no valid set the
spec states neither: free values (log 133). -/
def State.writeSet (s : State) (bs : List Byte) (r : RecordSet) : Option State :=
  let kept := s.fget Reg.UPD_SFMT_RETAINED
  match s.newestSet fun _ => true with
  | some (a, x) => s.putSet (if kept ≠ 0 ∧ x.sfmt ≠ kept then a else 1 - a) (x.sseq + 1) bs r
  | none => s.drew.putSet (s.drawn % 2) (s.drawn / 2) bs r

/-- R438: the record areas whose set has another settings format are erased. -/
def State.eraseOther (s : State) (sfmt : Nat) : State :=
  s.forEach [0, 1] fun s a =>
    match s.areaSet a with
    | some r => if r.sfmt = sfmt then s else s.eraseFlash (areaBase a) areaSize
    | none => s

/-! ### The directory -/

/-- The entry of a firmware class. -/
def Dir.entry (d : Dir) (cls : Nat) : FwEntry := if cls = 1 then d.mgmt else d.safety

/-- Change the entry of a firmware class. -/
def Dir.modEntry (d : Dir) (cls : Nat) (f : FwEntry → FwEntry) : Dir :=
  if cls = 1 then { d with mgmt := f d.mgmt } else { d with safety := f d.safety }

/-- Slot b of a firmware entry is valid. -/
def FwEntry.valid (e : FwEntry) (b : Nat) : Bool := if b = 0 then e.validA else e.validB

/-- Mark slot b of a firmware entry. -/
def FwEntry.setValid (e : FwEntry) (b : Nat) (v : Bool) : FwEntry :=
  if b = 0 then { e with validA := v } else { e with validB := v }

/-- Recipe bank b is valid. -/
def Dir.rcpValid (d : Dir) (b : Nat) : Bool := if b = 0 then d.rcp0 else d.rcp1

/-- Mark the target of a session valid or invalid; CONFIG has no entry. -/
def Dir.mark (d : Dir) (cls b : Nat) (v : Bool) : Dir :=
  match cls with
  | 1 | 2 => d.modEntry cls fun e => e.setValid b v
  | 3 => if b = 0 then { d with rcp0 := v } else { d with rcp1 := v }
  | _ => d

/-! ### Sessions -/

/-- Change the update slot. -/
def State.modUpd (s : State) (f : Upd → Upd) : State := { s with upd := f s.upd }

/-- R427: a write to UPD_CLAIM. -/
def State.updClaim (s : State) (m : Master) (v : Word) : State :=
  if !s.present .upd 0 then s
  else
    let token := v.toNat % 2 ^ 16
    let answer (s : State) (r : Nat) : State :=
      s.modUpd fun u => { u with claimRes := Sparse.put (fun _ => 0) u.claimRes m.code r }
    if token = 0 then answer s resArg
    else if s.upd.st ≠ .free then (answer s resBusy).raise Reg.UPD_CAUSE_CLAIM_BUSY
    else (answer s resOk).modUpd fun u =>
      { u with st := .claimed, owner := m.code, token := token, lastCmdAt := s.now, cls := 0, written := 0 }

/-- UPD_CLAIM. -/
def execUpdClaim (t : Time) (m : Master) (value : Word) (s : State) : Host.Outcome State Fault Refusal :=
  let s := s.at t
  done (s.by m fun s => s.updClaim m value)

/-- R428: a command from OWNER reaches the page: UPD_CLAIM_TO counts from it. -/
def State.updTouch (s : State) (m : Master) : State :=
  if s.present .upd 0 && !s.shutTo m && s.upd.st != .free && s.upd.owner == m.code then
    s.modUpd fun u => { u with lastCmdAt := s.now }
  else s

/-- A command of the UPD page. -/
def State.updCommand (s : State) (m : Master) (code arg : Nat) (spec : CmdSpec) : State :=
  (s.updTouch m).command m .upd 0 code arg false (some spec)

/-- R428: a session command comes from OWNER in one of the states that it is legal in. -/
def State.updLegal (s : State) (m : Master) (l : List UpdState) : Bool := s.upd.owner == m.code && l.contains s.upd.st

/-- R428: what a session holds in the device is dropped, and the slot goes on in state `dest`. A CHUNK that waits is over. -/
def State.dropSession (s : State) (dest : UpdState) : State :=
  (s.when s.upd.waiting.isSome fun s => s.setExec .upd 0 false).modUpd fun u =>
    { u with st := dest, bufs := [], waiting := none }

/-- R431: a session ends with a result. -/
def State.endSession (s : State) (code : Nat) (dest : UpdState) : State :=
  let s := (s.dropSession dest).fput Reg.UPD_RESULT_CODE code
  let s := if code = 0 then s.raise Reg.UPD_CAUSE_DONE else s.raise Reg.UPD_CAUSE_FAIL
  s.send 0 5 kindUpdate 0 code

/-- R426, R442: the slot or bank that BEGIN targets. -/
def State.targetBank (s : State) (cls b : Nat) : Nat :=
  if cls = 1 ∨ cls = 2 then 1 - (s.upd.dir.entry cls).cur else if cls = 3 then b else 0

/-- R442: the recipe bank is ACTIVE, staging or pending. -/
def State.bankHeld (s : State) (b : Nat) : Bool :=
  s.upd.dir.active == some b || (match s.upd.act with | some a => a.bank == b | none => false)

/-- R426, R428, R442, R443: BEGIN. -/
def specBegin (s : State) (m : Master) (arg : Nat) : CmdSpec :=
  let cls := argField arg 2 0
  let b := argField arg 3 3
  { argOk := decide (1 ≤ cls ∧ cls ≤ 4)
    legal := s.updLegal m [.claimed] && !(cls == 3 && s.bankHeld b)
    eff := fun s =>
      let k := s.targetBank cls b
      let s := if cls = 4 then s else s.changeDir fun d => d.mark cls k false
      s.modUpd fun u => { u with st := .erasing, cls := cls, bank := k, written := 0, flashed := 0, bufs := [] } }

/-- BEGIN. -/
def execBegin (t : Time) (m : Master) (arg : Nat) (s : State) : Host.Outcome State Fault Refusal :=
  let s := s.at t
  done (s.updCommand m 0x01 arg (specBegin s m arg))

/-- R428: ERASE_COMPLETE; an erase that a shutdown has suspended does not complete. -/
def State.eraseComplete (s : State) : State :=
  if s.upd.st = .erasing ∧ !s.thm.flashSuspended then
    let r := flashRegion s.upd.cls s.upd.bank
    (s.eraseFlash r.1 r.2).modUpd fun u => { u with st := .opened, written := 0, flashed := 0 }
  else s

/-- ERASE_COMPLETE. -/
def execEraseComplete (t : Time) (s : State) : Host.Outcome State Fault Refusal :=
  let s := s.at t
  done (s.onIsland isleMgmt State.eraseComplete)

/-- R443: the first n bytes of the UPD_DATA window. -/
def State.windowBytes (s : State) (n : Nat) : List Byte :=
  (((List.range 512).flatMap fun i => leBytes 4 (s.word (Reg.UPD_DATA_DATA.addr 0 i)).toNat)).take n

/-- R429: n bytes of the window are copied into an internal buffer. -/
def State.takeChunk (s : State) (n : Nat) : State :=
  let bs := s.windowBytes n
  s.modUpd fun u => { u with bufs := u.bufs ++ [bs], written := u.written + n, waiting := none }

/-- R429, R443: CHUNK: while both buffers wait for programming, EXEC stays 1. -/
def specChunk (s : State) (m : Master) (arg : Nat) : CmdSpec :=
  let n := argField arg 11 0
  { argOk := decide (1 ≤ n ∧ n ≤ 2048)
    legal := s.updLegal m [.opened]
    cond := decide (s.upd.written + n ≤ (flashRegion s.upd.cls s.upd.bank).2)
    eff := fun s =>
      if s.upd.bufs.length < 2 then s.takeChunk n
      else (s.setExec .upd 0 true).modUpd fun u => { u with waiting := some n } }

/-- CHUNK. -/
def execChunk (t : Time) (m : Master) (arg : Nat) (s : State) : Host.Outcome State Fault Refusal :=
  let s := s.at t
  done (s.updCommand m 0x02 arg (specChunk s m arg))

/-- R429: CHUNK_PROGRAMMED: the oldest buffer is in flash; a chunk that waits is copied in, and EXEC clears. -/
def State.chunkProgrammed (s : State) : State :=
  match s.upd.bufs with
  | [] => s
  | b :: r =>
    let base := (flashRegion s.upd.cls s.upd.bank).1
    let s := (s.programFlash (base + s.upd.flashed) b).modUpd fun u =>
      { u with bufs := r, flashed := u.flashed + b.length }
    match s.upd.waiting with
    | some n => (s.takeChunk n).setExec .upd 0 false
    | none => s

/-- CHUNK_PROGRAMMED. -/
def execChunkProgrammed (t : Time) (s : State) : Host.Outcome State Fault Refusal :=
  let s := s.at t
  done (s.onIsland isleMgmt State.chunkProgrammed)

/-- R430, R443: FINISH. -/
def specFinish (s : State) (m : Master) : CmdSpec :=
  { legal := s.updLegal m [.opened], eff := fun s => s.modUpd fun u => { u with st := .verifying } }

/-- FINISH. -/
def execFinish (t : Time) (m : Master) (s : State) : Host.Outcome State Fault Refusal :=
  let s := s.at t
  done (s.updCommand m 0x03 0 (specFinish s m))

/-- R430, R439: a recipe payload of n bytes: its section entries lie in it, and every section, with a good CRC. -/
def recipeOk (read : Nat → Nat → List Byte) (n : Nat) : Bool :=
  decide (16 + 16 * leNat (read 0 4) ≤ n) &&
  (sectionsOf read).all fun x =>
    decide (x.offset + x.length ≤ n) && (crc32c (read x.offset x.length)).toNat == x.crc

/-- R430: the first check that fails on the image of the session, or 0. -/
def State.verifyCode (s : State) : Nat :=
  let u := s.upd
  let base := (flashRegion u.cls u.bank).1
  let c := s.container base
  if !c.magicOk then 1
  else if c.cver ≠ 1 then 2
  else if c.cls ≠ u.cls then 3
  else if c.profile ≠ 2 ∧ c.profile ≠ (if s.ul24 then 1 else 0) then 4
  else if u.written ≠ 128 + c.length then 5
  else if !keyOk c then 6
  else if !s.signatureOk base then 7
  else match c.cls with
    | 3 => if c.sfmt = 1 ∧ recipeOk (fun o n => s.flashBytes (base + 64 + o) n) c.length then 0 else 8
    | 4 => match setOf (s.payload base) with
      | some r => if r.sfmt = s.fget Reg.UPD_SFMT_RUN then 0 else 8
      | none => 8
    | _ => 0

/-- R430: the outcome of a pass, and its result: 9 FLASH where a CONFIG set cannot be written. DEDUCED (log 28): a new
trial ends the report of an earlier REVERTED. -/
def State.verifyPass (s : State) : State × Nat :=
  let u := s.upd
  match u.cls with
  | 1 | 2 =>
    (s.changeDir fun d => (d.mark u.cls u.bank true).modEntry u.cls fun e =>
      { e with pend := some u.bank, tries := 0, reverted := false }, 0)
  | 3 => (s.changeDir fun d => d.mark 3 u.bank true, 0)
  | _ =>
    let bs := s.payload (flashRegion 4 0).1
    match (setOf bs).bind fun r => s.writeSet bs r with
    | some s' => (s', 0)
    | none => (s, 9)

/-- R430, R431: VERIFY_COMPLETE; the buffered chunks have reached the flash. -/
def State.verifyComplete (s : State) : State :=
  if s.upd.st ≠ .verifying ∨ !s.upd.bufs.isEmpty then s
  else match s.verifyCode with
    | 0 => let r := s.verifyPass
           r.1.endSession r.2 .claimed
    | code => s.endSession code .claimed

/-- VERIFY_COMPLETE. -/
def execVerifyComplete (t : Time) (s : State) : Host.Outcome State Fault Refusal :=
  let s := s.at t
  done (s.onIsland isleMgmt State.verifyComplete)

/-- R428, R443: ABORT. -/
def specUpdAbort (s : State) (m : Master) : CmdSpec :=
  { legal := s.updLegal m [.erasing, .opened], eff := fun s => s.endSession 10 .claimed }

/-- UPD_ABORT. -/
def execUpdAbort (t : Time) (m : Master) (s : State) : Host.Outcome State Fault Refusal :=
  let s := s.at t
  done (s.updCommand m 0x04 0 (specUpdAbort s m))

/-- R428, R443: RELEASE. -/
def specRelease (s : State) (m : Master) : CmdSpec :=
  { legal := s.updLegal m [.claimed], eff := fun s => s.dropSession .free }

/-- RELEASE. -/
def execRelease (t : Time) (m : Master) (s : State) : Host.Outcome State Fault Refusal :=
  let s := s.at t
  done (s.updCommand m 0x05 0 (specRelease s m))

/-- R428: CLAIM_TIMEOUT: no command from OWNER for UPD_CLAIM_TO. -/
def State.claimTimeout (s : State) : State :=
  let limit := max 1 (s.fget Reg.UPD_CLAIM_TO_TIMEOUT)
  if s.upd.st = .free ∨ s.now < s.upd.lastCmdAt + limit * ms then s else s.endSession 11 .free

/-- CLAIM_TIMEOUT. -/
def execClaimTimeout (t : Time) (s : State) : Host.Outcome State Fault Refusal :=
  let s := s.at t
  done (s.onIsland isleMgmt State.claimTimeout)

/-- R429, R430: FLASH_ERROR: in an erase, in the programming of a chunk, or in the writing of a CONFIG set. -/
def State.flashError (s : State) : State :=
  let u := s.upd
  if u.st = .erasing ∨ ((u.st = .opened ∨ u.st = .verifying) ∧ !u.bufs.isEmpty) ∨ (u.st = .verifying ∧ u.cls = 4) then
    s.endSession 9 .claimed
  else s

/-- FLASH_ERROR. -/
def execFlashError (t : Time) (s : State) : Host.Outcome State Fault Refusal :=
  let s := s.at t
  done (s.onIsland isleMgmt State.flashError)

/-! ### Recipes -/

/-- R440, R443: ACTIVATE. -/
def specActivate (s : State) (arg : Nat) : CmdSpec :=
  let b := argField arg 0 0
  { unlock := true
    legal := s.upd.dir.rcpValid b && s.upd.dir.active != some b && s.upd.act.isNone && s.mem == .ready && s.devOp == .run
    eff := fun s => s.modUpd fun u => { u with act := some ⟨b, true, 0⟩ } }

/-- ACTIVATE. -/
def execActivate (t : Time) (m : Master) (arg : Nat) (s : State) : Host.Outcome State Fault Refusal :=
  let s := s.at t
  done (s.updCommand m 0x06 arg (specActivate s arg))

/-- R440: an activation ends with MASK_BUSY (12) or STAGE (13). -/
def State.actFail (s : State) (code : Nat) : State :=
  ((s.modUpd fun u => { u with act := none }).fput Reg.UPD_RESULT_CODE code).raise Reg.UPD_CAUSE_ACT_FAIL

/-- R45, R212: the page that an ARMED port begins next: the first that its reader has accepted, else the one after the page
met last, or the origin page where none has been met. -/
def State.armedPage (s : State) (p : Nat) : Nat :=
  match (s.ring p).pages, (s.ring p).met with
  | i :: _, _ => i.page
  | [], some q => (q.page + 1) % 2 ^ 32
  | [], none => s.aget Reg.PL_GRP_ORG_PAGE_PAGE (12 * (p / 12))

/-- R45: the next page that has not begun at any port: the one after the highest that a port has begun since the device
state left IDLE, else the lowest that an ARMED port will begin. -/
def State.nextPage (s : State) : Nat :=
  match if s.devState = .idle then [] else s.portList.filterMap fun p => (s.port p).begun with
  | a :: r => (r.foldl (fun x y => if laterPage y x then y else x) a + 1) % 2 ^ 32
  | [] => match (s.portList.filter fun p => (s.port p).sq == .armed).map s.armedPage with
    | a :: r => r.foldl (fun x y => if laterPage x y then y else x) a
    | [] => 0

/-- R439: the mask slots of present groups that a list of sections loads. -/
def State.maskSections (s : State) (secs : List Section) : List Section :=
  secs.filter fun x => x.type == 3 && decide (x.index < 64) && !s.ul24

/-- R440: the bank is copied to the spool. -/
def State.stageCopy (s : State) (b : Nat) : State :=
  let base := s.stageBase
  let r := flashRegion 3 b
  (s.spoolStore base (s.flashBytes r.1 r.2)).modUpd fun u => { u with stagedAt := base }

/-- R440: a MASK section is loaded into its slot. -/
def State.loadMask (s : State) (x : Section) : State :=
  let a := 0x80000 * (x.index / 8) + 0x10000 * (x.index % 8)
  let hit (e : Store × Nat) : Bool := e.1 == .mask && decide (a / 8 ≤ e.2 ∧ e.2 < a / 8 + 8192)
  { s with masks := memPut 0 s.masks a ((s.sectionData x).take 65536)
           ue := s.ue.filter fun e => !hit e, ce := s.ce.filter fun e => !hit e }

/-- R441, R45: the ports that run no step B6 for an activation that has just become pending. -/
def State.loadsAtOnce (s : State) (p : Nat) : Bool :=
  let x := s.port p
  x.st == .off || x.st == .service || x.st == .safe || x.sq == .idle

/-- R45, R440: the activation becomes pending. -/
def State.actPending (s : State) (b : Nat) : State :=
  let pg := s.nextPage
  let s := (s.modUpd fun u => { u with act := some ⟨b, false, pg⟩ }).fput Reg.SEQ_ACT_PAGE_PAGE pg
  let s := s.forEach s.portList fun s p => s.modPort p fun x => { x with recipeDone := false }
  let s := s.forEach (s.portList.filter s.loadsAtOnce) fun s p => s.modPort p fun x => { x with recipeLoad := true }
  s.activationCheck

/-- R440: STAGING_COMPLETE; `ok` says that every flash read and every spool write has succeeded. A write beyond the usable
spool fails (log 135). -/
def State.stagingComplete (s : State) (ok : Bool) : State :=
  match s.upd.act with
  | some a =>
    if !a.staging then s
    else if !ok || s.mem != .ready || decide (s.spoolSize < s.stageBase + (flashRegion 3 a.bank).2) then s.actFail 13
    else
      let s := s.stageCopy a.bank
      let n := leNat (s.spoolBytes (s.upd.stagedAt + 12) 4)
      if !recipeOk (fun o k => s.spoolBytes (s.stagedPayload + o) k) n then s.actFail 13
      else
        let ms := s.maskSections s.staged
        if ms.any fun x => (s.slotUse (x.index / 8)).testBit (x.index % 8) then s.actFail 12
        else (ms.foldl State.loadMask s).actPending a.bank
  | none => s

/-- STAGING_COMPLETE. -/
def execStagingComplete (t : Time) (ok : Bool) (s : State) : Host.Outcome State Fault Refusal :=
  let s := s.at t
  done (s.onIsland isleMgmt fun s => s.stagingComplete ok)

/-- R45, R441: RECIPE_PORT_LOAD: a port whose load is due takes its tables, and its PARAM section with them or later; it runs
no step B6 for this activation. -/
def State.recipePortLoad (s : State) (p : Nat) : State :=
  if (s.port p).recipeLoad then
    let due := match s.upd.act with | some a => !a.staging | none => false
    ((s.loadTables p).paramsNow p).modPort p fun x => { x with recipeLoad := false, recipeDone := due }
  else s

/-- RECIPE_PORT_LOAD. -/
def execRecipePortLoad (t : Time) (port : Nat) (s : State) : Host.Outcome State Fault Refusal :=
  let s := s.at t
  done (s.onPort port fun s => s.recipePortLoad port)

/-! ### CONFIRM and REVERT -/

/-- The firmware classes that ARG[1:0] selects. -/
def selected (arg : Nat) : List Nat := (if arg.testBit 0 then [1] else []) ++ (if arg.testBit 1 then [2] else [])

/-- PEND is set for every selected class. -/
def State.pendAll (s : State) (arg : Nat) : Bool := (selected arg).all fun c => (s.upd.dir.entry c).pend.isSome

/-- R434, R443: CONFIRM. -/
def specConfirm (s : State) (arg : Nat) : CmdSpec :=
  { argOk := !(selected arg).isEmpty
    unlock := true
    legal := s.devOp == .run && s.pendAll arg
    eff := fun s =>
      let s := s.changeDir fun d => (selected arg).foldl (fun d c => d.modEntry c fun e =>
        { e with cur := e.pend.getD e.cur, pend := none, tries := 0 }) d
      s.when (arg.testBit 0) fun s => s.fput Reg.UPD_SFMT_RETAINED 0 }

/-- CONFIRM. -/
def execConfirm (t : Time) (m : Master) (arg : Nat) (s : State) : Host.Outcome State Fault Refusal :=
  let s := s.at t
  done (s.updCommand m 0x07 arg (specConfirm s arg))

/-- R434, R438, R443: REVERT; the new-format records go when the old firmware boots. -/
def specRevert (s : State) (arg : Nat) : CmdSpec :=
  { argOk := !(selected arg).isEmpty
    unlock := true
    legal := s.pendAll arg
    eff := fun s =>
      s.changeDir fun d => (selected arg).foldl (fun d c => d.modEntry c fun e =>
        { e with pend := none, reverted := true }) d }

/-- REVERT. -/
def execRevert (t : Time) (m : Master) (arg : Nat) (s : State) : Host.Outcome State Fault Refusal :=
  let s := s.at t
  done (s.updCommand m 0x08 arg (specRevert s arg))

end Sys2Proof.Machine
end

