-- ==== Sys2Proof/Machine/Reset.lean ====
section
/-! DEFINITION. PORST_N, the choice of firmware slots at boot, and the commanded resets (R433, R445 to R454, R458). -/

namespace Sys2Proof.Machine

/-! ### The choice of a firmware slot (R433) -/

/-- R433: the signature of the container in slot b of a class verifies. One that does not end inside the slot has none
(log 154). -/
def State.slotOk (s : State) (cls b : Nat) : Bool :=
  let r := flashRegion cls b
  decide (128 + (s.container r.1).length ≤ r.2) && s.signedBy Config.vendorKey r.1

/-- R433: the slot that the directory picks, with the directory written first. -/
def State.pickSlot (s : State) (cls : Nat) : State × Nat :=
  let e := s.upd.dir.entry cls
  match e.pend with
  | none => (s, e.cur)
  | some b =>
    if e.bootTries ≤ e.tries then
      (s.changeDir fun d => d.modEntry cls fun e => { e with pend := none, reverted := true }, e.cur)
    else (s.changeDir fun d => d.modEntry cls fun e => { e with tries := min 15 (e.tries + 1) }, b)

/-- R423, R431, R433: the slot of a class is chosen and verified: 1 A, 2 B, 0 where neither verifies; a slot that its
directory entry marks invalid is never booted. REVERTED and FALLBACK of the
UPD page report an old slot after REVERT or the counter, and the other slot in place of the one picked. -/
def State.bootSlot (s : State) (cls : Nat) : State × Nat :=
  let r := s.pickSlot cls
  let s := r.1
  let b := r.2
  let e := s.upd.dir.entry cls
  let s := if e.reverted && e.pend.isNone then s.raise Reg.UPD_CAUSE_REVERTED else s
  if e.valid b && s.slotOk cls b then (s, b + 1)
  else if e.valid (1 - b) && s.slotOk cls (1 - b) then
    ((s.modUpd fun u => { u with fallback := true }).raise Reg.UPD_CAUSE_FALLBACK, 2 - b)
  else (s, 0)

/-- R433, R443: the management cluster boots: DEV_OP reads BOOT from here on, and UPD_SFMT names the settings format of
the slot that runs. -/
def State.bootMgmt (s : State) : State :=
  let r := s.bootSlot 1
  let fmt := if r.2 = 0 then 0 else (r.1.container (flashRegion 1 (r.2 - 1)).1).sfmt
  (r.1.modUpd fun u => { u with runMgmt := r.2 }).fput Reg.UPD_SFMT_RUN fmt

/-- R433: Kingpost is released with a slot, or stays in SELFTEST. -/
def State.bootSafety (s : State) : State :=
  let r := s.bootSlot 2
  r.1.modUpd fun u => { u with runSafety := r.2 }

/-- R36, R448: the islands that boot powers. -/
def bootIslands (ul24 : Bool) : Nat :=
  maskOf ((List.range 30).filter fun i => !ul24 || !(decide (1 ≤ i ∧ i ≤ 8) || i == 26))

/-- R448: islands are powered, and their clocks locked. -/
def State.powerIslands (s : State) (mask : Nat) : State :=
  (s.fput Reg.CLK_ISL_ON_ON mask).fput Reg.CLK_LOCK_LOCK mask

/-- R192: the bins of every port are empty, and their timing starts as its island leaves reset. -/
def State.startBins (s : State) : State :=
  s.forEach s.portList fun s p => s.modPort p fun x => { x with budget := { x.budget with bins := [], binFrom := s.powerAt } }

/-- R448: a step of the boot ends after the instant `from0` and no later than `limit` after the release or restart: when, is a
free value (log 41). -/
def State.bootStep (s : State) (from0 limit : Time) : Time := from0 + s.drawn % (s.bootFrom + limit - from0 + 1)

/-- R448, R409: step 4: the islands are powered and their clocks lock, within 40 ms. -/
def State.powerUp (s : State) : State := State.drew { s with powerAt := s.bootStep (max s.bootFrom s.kpsAt) (40 * ms) }

/-- R448: steps 1 and 3: Sill leaves reset within 1 ms, and Kingpost is released after it, within 10 ms. -/
def State.releaseSafety (s : State) : State :=
  let s := State.drew { s with sillAt := s.bootStep s.bootFrom ms }
  State.drew { s with kpsAt := s.bootStep s.sillAt (10 * ms) }

/-! ### PORST_N -/

/-- R446: PORST_N is low: the whole device is held in reset. What survives is the flash with its directory (R423, R432),
the profile until it is sampled again (R5), and the model's own counter and queue. -/
def State.porstLow (s : State) : State :=
  { State.reset with
    now := s.now, ul24 := s.ul24, flash := s.flash, free := s.free, pending := s.pending
    upd := { Upd.reset with copy0 := s.upd.copy0, copy1 := s.upd.copy1 } }

/-- PORST_N_ASSERT. -/
def execPorstNAssert (t : Time) (s : State) : Host.Outcome State Fault Refusal :=
  let s := s.at t
  done s.porstLow

/-- R4, R5, R448, R449: PORST_N rises: the straps are sampled, the slots are chosen, and Sill, Kingpost in SELFTEST and every
island of the profile come up, each at its step of the boot (log 41). -/
def State.porstHigh (s : State) (profileHigh ftmHigh : Bool) : State :=
  if !s.porst then s
  else
    let s := { s with
      porst := false, ul24 := profileHigh, ftmStrap := ftmHigh, regs := [], active := [], widthShadow := [],
      widthActive := [], relAt := s.now, bootFrom := s.now, appliesRecords := true, devOp := DevOp.boot
      hal := { Hal.reset with baseTick := s.now / 2000 } }
    let s := s.releaseSafety.powerUp
    let s := { s with kps := { Kps.reset with heartbeatAt := s.kpsAt } }
    (s.powerIslands (bootIslands profileHigh)).startBins.bootSafety.bootMgmt

/-- PORST_N_RELEASE. -/
def execPorstNRelease (t : Time) (profileHigh ftmHigh : Bool) (s : State) : Host.Outcome State Fault Refusal :=
  let s := s.at t
  done (s.porstHigh profileHigh ftmHigh)

/-! ### Commanded resets -/

/-- The page at a BAR0 register address. -/
def pageAt (a : Nat) : Option Page := (locate a).map (·.1)

/-- R21: the page keeps its contents through DEV_RESET. -/
def Page.keeps (p : Option Page) : Bool :=
  match p with
  | some .clk | some .thm | some .kps0 | some .kps1 | some .kps2 | some .kps3 => true
  | _ => false

/-- R66: the address is a page's lock. -/
def isLock (a : Nat) : Bool :=
  match locate a with
  | some (_, _, off) => off == 0x24
  | none => false

/-- R21: what DEV_RESET leaves in the register at an address: the Reset value, with its RWS fields kept. -/
def softWord (ul24 : Bool) (a : Nat) (w : Word) : Word :=
  match locate a with
  | some (p, _, off) => ((fieldsAt p off).filter (·.ty == .rws)).foldl (fun r f => f.set r (f.get w)) (resetWord ul24 a)
  | none => resetWord ul24 a

/-- R21, R66: the registers after DEV_RESET: the Sill and Kingpost pages keep theirs, every lock is locked, and the others
keep their RWS fields. -/
def State.softRegs (s : State) : Sparse Word :=
  s.regs.filterMap fun e =>
    if isLock e.1 then none
    else if Page.keeps (pageAt e.1) then some e
    else
      let w := softWord s.ul24 e.1 e.2
      if w = resetWord s.ul24 e.1 then none else some (e.1, w)

/-- R422, R451: the calibration channels after DEV_RESET: idle, with TRIG at the TREF that is kept. -/
def State.softCals (s : State) : State :=
  State.forEach { s with cals := [], calTurn := [] } s.calChannels fun s c => s.modCal c fun x => { x with trig := s.tref c }

/-- R173, R192: what a head port keeps through a soft reset: the identity last read since PORST_N, and the bins of its
overdrive budget with their timing. -/
def softPorts (ps : Sparse Port) : Sparse Port :=
  ps.filterMap fun e =>
    let b := e.2.budget
    let x := { Port.reset with identSeen := e.2.identSeen, budget := { Budget.reset with bins := b.bins, binFrom := b.binFrom } }
    if x = Port.reset then none else some (e.1, x)

/-- R35: the words of memories that a soft reset keeps. -/
def softStore (k : Store) : Bool := k == .band || k == .mask || k == .nat || k == .width || k == .natShadow || k == .widthShadow || k == .pvt || k == .ramp

/-- R451, R452, R481: everything outside the Sill and Kingpost islands goes to its reset state; the tables, mask slots, Band
Store and the PCIe link are kept. FTM_ACTIVE is a field of the DEV page and reads its Reset value after it (log 83). -/
def State.softReset (s : State) : State :=
  let s := { s with
    ftm := if s.ftmActive then FtmState.none else s.ftm
    regs := s.softRegs, active := [], heldLow := [], captures := [], waking := [], stopPending := false
    ports := softPorts s.ports, rings := [], spool := [], ue := s.ue.filter fun e => softStore e.1
    ce := s.ce.filter fun e => softStore e.1, mem := MemState.off, memCfg := State.reset.memCfg, scrubAt := 0, scrubbed := s.now, chans := [], axes := [], mgroups := []
    msets := [], jchans := [], engines := [], hal := { Hal.reset with baseTick := s.now / 2000 }, eths := []
    lnk := Lnk.reset, clocks := [], ticks := []
    pcie := { s.pcie with msiPend := false, msiPendBit := false, actWas := false }
    upd := { Upd.reset with
      copy0 := s.upd.copy0, copy1 := s.upd.copy1, runMgmt := s.upd.runMgmt, runSafety := s.upd.runSafety, fallback := s.upd.fallback } }
  s.softCals

/-- R407, R409, R451: the islands other than Sill and Kingpost lose everything; the pages of those two keep their
contents and their locks. -/
def State.wipe (s : State) : State :=
  { State.reset with
    now := s.now, porst := s.porst, ul24 := s.ul24, ftmStrap := s.ftmStrap, ftm := s.ftm, bootFrom := s.bootFrom
    relAt := s.relAt, sillAt := s.sillAt, kpsAt := s.kpsAt, powerAt := s.powerAt, regs := s.regs.filter fun e => Page.keeps (pageAt e.1), lastRead := s.lastRead
    flash := s.flash, hal := { Hal.reset with baseTick := s.now / 2000 }, smp := s.smp
    kps := { s.kps with paths := s.kps.paths.filter fun e => e.1 == 27 || e.1 == 29 }
    thm := s.thm, tap := s.tap, free := s.free, pending := s.pending
    upd := { Upd.reset with
      copy0 := s.upd.copy0, copy1 := s.upd.copy1, cls := s.upd.cls, bank := s.upd.bank, runSafety := s.upd.runSafety, fallback := s.upd.fallback } }

/-- R77: the code of the last commanded reset's master, and the kind (R458). -/
def State.noteReset (s : State) (kind : Nat) (m : Option Master) : State :=
  let s := (s.fput Reg.CLK_RST_CAUSE_LAST kind).raise Reg.CLK_CAUSE_RESET
  match m with
  | some m => s.fput Reg.CLK_RST_CAUSE_MASTER m.code
  | none => s

/-- An update session is under way (R428). -/
def Upd.inSession (u : Upd) : Bool := u.st == .erasing || u.st == .opened || u.st == .verifying

/-- R452, R454: DEV_RESET; EXEC is 1 until its islands are back, within 10 µs (a free span, log 8). DESIGN CHOICE (log 90): the bins
of R192 stay, and an exhaustion (R193) is dropped and evaluated anew from them. -/
def State.devReset (s : State) (m : Master) : State :=
  let session := s.upd.inSession
  let s := s.softReset
  let s := s.forEach (s.ports.map (·.1)) State.exhaust
  let s := s.when session fun s => s.endSession 10 .free
  let s := ((s.noteReset 3 (some m)).fadd Reg.CLK_RST_CNT_DEV 1)
  let s := { s.drew with islandsAt := s.now + s.drawn % (10 * us + 1) }
  State.bootMgmt { s with devOp := DevOp.boot, bootFrom := s.now, appliesRecords := true }

/-- R407, R452, R454, R458: DEV_RESET; a hardware shutdown in effect overrides it. -/
def specDevReset (s : State) (m : Master) : CmdSpec :=
  { unlock := true, legal := s.devState == .idle
    eff := fun s => if s.thm.shutdown then s else s.devReset m }

/-- DEV_RESET. -/
def execDevReset (t : Time) (m : Master) (s : State) : Host.Outcome State Fault Refusal :=
  let s := s.at t
  done (s.command m .clk 0 0x02 0 false (some (specDevReset s m)))

/-- R58, R453: MGMT_RESET: the cluster reboots, and DEV_OP returns to what it was; a boot that is still to apply records goes
on to do so. -/
def State.mgmtReset (s : State) (m : Master) : State :=
  let s := s.when (s.upd.inSession && s.upd.owner == Master.mgmt.code) fun s => s.endSession 10 .claimed
  let s := (s.noteReset 4 (some m)).fadd Reg.CLK_RST_CNT_MGMT 1
  let booting := s.devOp = DevOp.boot
  let s := { s with heldLow := s.heldLow.filter fun h => h.master != Master.mgmt.code }
  State.bootMgmt { s with
    devOp := DevOp.boot, bootFrom := s.now
    devOpBack := if booting then s.devOpBack else s.devOp
    appliesRecords := if booting then s.appliesRecords else false }

/-- R453, R454, R458: MGMT_RESET; a hardware shutdown in effect overrides it. -/
def specMgmtReset (m : Master) : CmdSpec :=
  { unlock := true, eff := fun s => if s.thm.shutdown then s else s.mgmtReset m }

/-- MGMT_RESET. -/
def execMgmtReset (t : Time) (m : Master) (s : State) : Host.Outcome State Fault Refusal :=
  let s := s.at t
  done (s.command m .clk 0 0x01 0 false (some (specMgmtReset m)))

end Sys2Proof.Machine
end

