-- ==== Sys2Proof/Machine/Thermal.lean ====
section
/-! DEFINITION. Sensors, throttling, hardware shutdown and restart (R395 to R410, R421). -/

namespace Sys2Proof.Machine

/-- The Sill island. -/
abbrev isleSill := 29

/-- Change the thermal unit. -/
def State.modThm (s : State) (f : Thm → Thm) : State := { s with thm := f s.thm }

/-- Neighbours of sensor k that have not failed. -/
def State.validNbrs (s : State) (k : Nat) : List Nat := (neighbours k).filter s.sensorOk

/-- R395: the readings of a window: signed, in 1/16 °C, multiples of 8. -/
def State.takeReadings (s : State) (l : List Int) : State :=
  let vs := (List.range 64).map fun k => satS 16 (l.getD k 0) / 8 * 8
  s.modThm fun x => { x with temps := Sparse.putList (fun _ => 0) x.temps 0 vs }

/-- R397: the reading of sensor k departs by more than 8 °C from the mean of its valid neighbours, of which there are at
least two. -/
def State.departs (s : State) (k : Nat) : Bool :=
  let ns := s.validNbrs k
  let d := (ns.length : Int) * s.temp k - (ns.map s.temp).foldl (· + ·) 0
  decide (2 ≤ ns.length) && decide (128 * (ns.length : Int) < d ∨ 128 * (ns.length : Int) < -d)

/-- R397: NBR_LOW: a sensor that has not failed has fewer than two valid neighbours. -/
def State.nbrsLow (s : State) : Bool :=
  (List.range 64).any fun k => s.sensorOk k && decide ((s.validNbrs k).length < 2)

/-- R397, R398, R401: sensor k fails; the hottest one pins the level. -/
def State.failSensor (s : State) (k : Nat) : State :=
  let pins := s.thm.hottest == k && decide (1 ≤ s.thm.level)
  let s := s.modThm fun x =>
    { x with failed := insertNat k x.failed
             pinned := if pins then insertNat k x.pinned else x.pinned
             floor := if pins then x.level else x.floor }
  (s.raise Reg.THM_CAUSE_SENSOR_FAIL).send 0 3 kindSensorFail 1 k

/-- R397: every valid sensor is checked against the readings of those that have not failed yet. -/
def State.checkSensors (s : State) : State :=
  let ok := (List.range 64).filter s.sensorOk
  let run (k : Nat) : Nat := if s.departs k then Sparse.get (fun _ => 0) s.thm.runs k + 1 else 0
  let s1 := s.modThm fun x => { x with runs := ok.foldl (fun m k => Sparse.put (fun _ => 0) m k (run k)) x.runs }
  let s2 := s1.forEach (ok.filter fun k => decide (3 ≤ run k)) State.failSensor
  (s2.latch .thm 0).modThm fun x => { x with nbrLow := s2.nbrsLow }

/-- R400: Tctl and the sensor that gives it; of several, the lowest. -/
def State.control (s : State) : Int × Nat :=
  (List.range 64).foldl (fun e k => if e.1 < s.sensorValue k then (s.sensorValue k, k) else e) (s.sensorValue 0, 0)

/-- R421: Tk; T3 above 1,920 is taken as 1,920. -/
def State.thresholdT (s : State) (k : Nat) : Int :=
  match k with
  | 1 => signed 16 (s.fget Reg.THM_T12_T1)
  | 2 => signed 16 (s.fget Reg.THM_T12_T2)
  | _ => min 1920 (signed 16 (s.fget Reg.THM_T3_T3))

/-- R401: the target level. -/
def State.targetLevel (s : State) : Nat :=
  if s.thresholdT 3 ≤ s.thm.tctl then 3 else if s.thresholdT 2 ≤ s.thm.tctl then 2
  else if s.thresholdT 1 ≤ s.thm.tctl then 1 else 0

/-- R401: since when Tctl has stayed below Tk - HYST. -/
def State.cooling (s : State) (k : Nat) : Option Time :=
  if s.thm.tctl < s.thresholdT k - s.fget Reg.THM_HYST_HYST then some ((s.thm.coolFrom.getD (k - 1) none).getD s.now)
  else none

/-- R401: the level of this evaluation: the target at once when it is above; one less once Tctl has stayed cool for HOLD. -/
def State.nextLevel (s : State) : Nat :=
  let lv := s.thm.level
  let tg := s.targetLevel
  let hold := max 1 (s.fget Reg.THM_HYST_HOLD) * ms
  if lv < tg then tg
  else match s.thm.coolFrom.getD (lv - 1) none with
    | some c => if 0 < lv ∧ c + hold ≤ s.now then max (max tg s.thm.floor) (lv - 1) else lv
    | none => lv

/-- R400, R401, R405: Tctl and the throttle level are evaluated. -/
def State.evaluate (s : State) : State :=
  let c := s.control
  let s := s.drew.modThm fun x => { x with tctl := c.1, hottest := c.2 }
  let s := s.modThm fun x => { x with coolFrom := [s.cooling 1, s.cooling 2, s.cooling 3] }
  let lv := s.nextLevel
  let old := s.thm.level
  let s := s.modThm fun x => { x with level := lv }
  if lv = old then s
  else (if old < lv then s.raise Reg.THM_CAUSE_LEVEL_UP else s.raise Reg.THM_CAUSE_LEVEL_DOWN).send 0 3 kindThrottle 0 lv

/-- R407: sensor k calls for a shutdown on this reading. -/
def State.scorching (s : State) (k : Nat) : Bool :=
  s.sensorOk k && decide (2000 ≤ s.temp k) &&
  ((s.validNbrs k).isEmpty || (s.validNbrs k).any fun j => decide (1872 ≤ s.temp j))

/-- Ten minutes. -/
abbrev tenMin : Nat := 600000 * ms

/-- R408: a page program in progress finishes: how far the oldest buffer has come is a free value. -/
def State.finishPage (s : State) : State :=
  match s.upd.bufs with
  | [] => s
  | b :: _ =>
    let k := s.drawn % (b.length + 1)
    s.drew.programFlash ((flashRegion s.upd.cls s.upd.bank).1 + s.upd.flashed) (b.take k)

/-- R407, R408, R410: the hardware shutdown that sensor k has tripped. -/
def State.hardShutdown (s : State) (k : Nat) : State :=
  let erasing := s.upd.st == .erasing
  let s := s.finishPage
  let recent := s.thm.restarts.filter fun r => decide (s.now < r + tenMin)
  let s := (s.deviceSafe (msgWord 0 3 kindDieOtp 3 k) false).wipe
  let s := (s.fadd Reg.THM_SHUT_COUNT 1).fput Reg.THM_SHUT_SENSOR k
  let s := s.modThm fun x =>
    { x with shutdown := true, offLatched := decide (3 ≤ recent.length), restarts := recent, allCoolFrom := none
             flashSuspended := erasing }
  let s := s.when erasing fun s => s.raise Reg.THM_CAUSE_FLASH_SUSP
  (s.powerIslands (maskOf [27, 29])).send 0 3 kindDieOtp 3 k

/-- R407: a sensor that has called for a shutdown on the last reading too trips it. -/
def State.checkShutdown (s : State) : State :=
  let hot := (List.range 64).filter s.scorching
  let trip := hot.find? fun k => s.thm.hot.contains k
  let cool := (List.range 64).all fun k => !s.sensorOk k || decide (s.temp k < 1600)
  let s := s.modThm fun x =>
    { x with hot := hot, allCoolFrom := if cool then some (x.allCoolFrom.getD s.now) else none }
  match trip with
  | some k => if s.thm.shutdown then s else s.hardShutdown k
  | none => s

/-- R395 to R413: SENSOR_READING: the readings of all 64 sensors at the end of a window. -/
def State.sensorReading (s : State) (l : List Int) : State :=
  (((s.takeReadings l).checkSensors.evaluate).calTriggers).checkShutdown

/-- SENSOR_READING. -/
def execSensorReading (t : Time) (readings : List Int) (s : State) : Host.Outcome State Fault Refusal :=
  let s := s.at t
  done (s.onIsland isleSill fun s => s.sensorReading readings)

/-- R396: REFCLK_LOSS: the windows are counted on the RC oscillator. -/
def execRefclkLoss (t : Time) (s : State) : Host.Outcome State Fault Refusal :=
  let s := s.at t
  done (s.onIsland isleSill fun s => s.modThm fun x => { x with fallback := true })

/-- R396: REFCLK_RETURN. -/
def execRefclkReturn (t : Time) (s : State) : Host.Outcome State Fault Refusal :=
  let s := s.at t
  done (s.onIsland isleSill fun s => (s.latch .thm 0).modThm fun x => { x with fallback := false })

/-- R399: the elements of which Sill compensates each: its RC oscillator, the bandgap reference of a port group's sense
ADCs, that of a ring oscillator, and the bias of a timing channel's vernier delay line. -/
inductive CompElem where
  | oscillator
  | adcRef (g : Nat)
  | ringRef (k : Nat)
  | vernier (c : Nat)
  deriving DecidableEq, Repr

/-- The number under which an element stands. -/
def CompElem.key : CompElem → Nat
  | .oscillator => 0
  | .adcRef g => 0x100 + g
  | .ringRef k => 0x200 + k
  | .vernier c => 0x400 + c

/-- R399, R413: the temperature that an element is compensated for: of its island's nearest sensor, or of its channel. -/
def State.compTemp (s : State) : CompElem → Int
  | .oscillator => s.sensorValue 61
  | .adcRef g => s.sensorValue (2 * g)
  | .ringRef k => s.sensorValue k
  | .vernier c => s.calTemp c

/-- R399: an element is compensated. -/
def State.compensate (s : State) (x : CompElem) : State :=
  s.modThm fun y => { y with comp := Sparse.put (fun _ => 0) y.comp x.key (Config.compensation x.key (s.compTemp x)) }

/-- R399: the elements that are compensated every 1 ms. -/
def State.refElems (s : State) : List CompElem :=
  .oscillator :: (List.range (if s.ul24 then 2 else 8)).map CompElem.adcRef ++ (List.range 64).map CompElem.ringRef

/-- R399: the elements that are compensated every 100 µs. -/
def State.vernierElems (s : State) : List CompElem :=
  ((List.range 256).filter fun c => s.calPresent c && calTiming c).map CompElem.vernier

/-- R399: COMPENSATION_UPDATE: the elements that are due are compensated; no calibration result changes. -/
def State.compensation (s : State) : State :=
  let s := s.when (decide (s.thm.vernierAt + 100 * us ≤ s.now)) fun s =>
    (s.vernierElems.foldl State.compensate s).modThm fun x => { x with vernierAt := s.now }
  s.when (decide (s.thm.refAt + ms ≤ s.now)) fun s =>
    (s.refElems.foldl State.compensate s).modThm fun x => { x with refAt := s.now }

/-- COMPENSATION_UPDATE. -/
def execCompensationUpdate (t : Time) (s : State) : Host.Outcome State Fault Refusal :=
  let s := s.at t
  done (s.onIsland isleSill State.compensation)

/-- R408: a suspended erase is resumed before the management firmware boots. -/
def State.resumeErase (s : State) : State :=
  if s.thm.flashSuspended then
    let r := flashRegion s.upd.cls s.upd.bank
    (s.eraseFlash r.1 r.2).modThm fun x => { x with flashSuspended := false }
  else s

/-- R409: the restart; FTM_ACTIVE stays 0 after it. -/
def State.restart (s : State) : State :=
  let s := s.wipe
  let s := s.modThm fun x => { x with shutdown := false, allCoolFrom := none, restarts := x.restarts ++ [s.now] }
  let s := { s with
    ftm := if s.ftmActive then FtmState.none else s.ftm, bootFrom := s.now, appliesRecords := true
    kps := { s.kps with tripped := [], heartbeatAt := s.now } }
  let s := ((s.powerUp.powerIslands (bootIslands s.ul24)).startBins.resumeErase.raise Reg.THM_CAUSE_RESTARTED)
  let s := s.modUpd fun u => { u with cls := 0, bank := 0 }
  ((s.noteReset 2 none).fadd Reg.CLK_RST_CNT_DEV 1).bootMgmt

/-- R409, R410: every valid sensor has read below 100 °C for 1 s, and OFF_LATCHED is 0. -/
def State.mayRestart (s : State) : Bool :=
  s.thm.shutdown && !s.thm.offLatched &&
  (match s.thm.allCoolFrom with
   | some c => decide (c + 1000 * ms ≤ s.now)
   | none => false)

/-- THERMAL_RESTART. -/
def execThermalRestart (t : Time) (s : State) : Host.Outcome State Fault Refusal :=
  let s := s.at t
  done (s.onIsland isleSill fun s => if s.mayRestart then s.restart else s)

/-- R410: RECENT_RESTART_EXPIRY: restarts older than 10 minutes no longer count. -/
def execRecentRestartExpiry (t : Time) (s : State) : Host.Outcome State Fault Refusal :=
  let s := s.at t
  done (s.onIsland isleSill fun s => s.modThm fun x =>
    { x with restarts := x.restarts.filter fun r => decide (s.now < r + tenMin) })

/-- R398, R401, R421: SENS_CLR. -/
def specSensClr (arg : Nat) : CmdSpec :=
  let l := if arg.testBit 6 then List.range 64 else [argField arg 5 0]
  { unlock := true
    eff := fun s =>
      let s := (s.latch .thm 0).modThm fun x =>
        let pinned := x.pinned.filter fun k => !l.contains k
        { x with failed := x.failed.filter fun k => !l.contains k
                 runs := l.foldl (fun m k => Sparse.put (fun _ => 0) m k 0) x.runs
                 pinned := pinned, floor := if pinned.isEmpty then 0 else x.floor }
      s.modThm fun x => { x with nbrLow := s.nbrsLow } }

/-- SENS_CLR. -/
def execSensClr (t : Time) (m : Master) (arg : Nat) (s : State) : Host.Outcome State Fault Refusal :=
  let s := s.at t
  done (s.command m .thm 0 0x01 arg false (some (specSensClr arg)))

/-- R421: CLR_CNT. -/
def specThmClrCnt : CmdSpec := { eff := fun s => s.fput Reg.THM_SHUT_COUNT 0 }

/-- THM_CLR_CNT. -/
def execThmClrCnt (t : Time) (m : Master) (s : State) : Host.Outcome State Fault Refusal :=
  let s := s.at t
  done (s.command m .thm 0 0x02 0 false (some specThmClrCnt))

end Sys2Proof.Machine
end

