-- ==== Sys2Proof/Machine/Tap.lean ====
section
/-! DEFINITION. The test access port (R471 to R474): its boundary cells, the levels at the balls, what the boundary register
captures, and the way into factory test mode (R386). -/

namespace Sys2Proof.Machine

/-- R472: the cells of the boundary register, in the rows of its table: of a head port, of an axis, of a feedback channel, of the
flash port, of the serial management port, and the others. `ctl` names an output control. -/
inductive BoundaryCell where
  | stb (port x : Nat)
  | pwrEn (port : Nat)
  | rt (port : Nat)
  /-- CK, D0, D1 -/
  | link (port k : Nat)
  | portCtl (port : Nat)
  /-- A1, A2, B1, B2 -/
  | bridge (ax k : Nat)
  | en (ax : Nat)
  | sns (ax : Nat)
  | lim (ax : Nat) (which : LimitInput)
  | axisCtl (ax : Nat)
  | fbk (chan k : Nat)
  | flash (k : Nat)
  | flashCtl (k : Nat)
  /-- SMP_CS_N, SMP_SCK, SMP_SDI, SMP_SDO -/
  | smp (k : Nat)
  | smpCtl
  | intN
  | safeN
  | throtN
  | safeCtl
  | profile
  | ftm
  deriving DecidableEq, Repr

/-- R472: cell n of the 2,041, numbered in the order of the table (log 85). -/
def boundaryCell (n : Nat) : BoundaryCell :=
  if n < 864 then
    let p := n / 9
    match n % 9 with
    | 0 => .stb p 0 | 1 => .stb p 1 | 2 => .stb p 2 | 3 => .pwrEn p | 4 => .rt p
    | 5 => .link p 0 | 6 => .link p 1 | 7 => .link p 2 | _ => .portCtl p
  else if n < 1728 then
    let a := (n - 864) / 9
    match (n - 864) % 9 with
    | 0 => .bridge a 0 | 1 => .bridge a 1 | 2 => .bridge a 2 | 3 => .bridge a 3 | 4 => .en a
    | 5 => .sns a | 6 => .lim a .limn | 7 => .lim a .limp | _ => .axisCtl a
  else if n < 2016 then .fbk ((n - 1728) / 3) ((n - 1728) % 3)
  else if n < 2028 then .flash (n - 2016)
  else if n < 2030 then .flashCtl (n - 2028)
  else if n < 2034 then .smp (n - 2030)
  else match n - 2034 with
    | 0 => .smpCtl | 1 => .intN | 2 => .safeN | 3 => .throtN | 4 => .safeCtl | 5 => .profile | _ => .ftm

/-- R472: the cell that controls the output of cell n; the open-drain pins and the inputs have none. -/
def controlOf (n : Nat) : Option Nat :=
  match boundaryCell n with
  | .stb p _ | .pwrEn p | .link p _ => some (9 * p + 8)
  | .bridge a _ | .en a => some (864 + 9 * a + 8)
  | .flash k => some (if k < 3 then 2028 else 2029)
  | .smp 3 => some 2034
  | .safeN => some 2038
  | _ => none

/-- R473: a port latch, a motion latch or the device latch holds the pin of a cell. -/
def State.pinHeld (s : State) : BoundaryCell → Bool
  | .stb p _ | .pwrEn p | .link p _ => s.porst || !s.kps.portClear.contains p
  | .bridge a _ | .en a => s.porst || !s.kps.motionClear.contains (a / 12)
  | .safeN => !s.safeN
  | _ => false

/-- The level that the functional logic drives on the pin of a cell; none where it is an input, an open-drain pin that it does
not pull low, or a level that the model does not hold (log 85). -/
def State.pinLevel (s : State) : BoundaryCell → Option Bool
  | .stb p x => some (s.strobeHigh p x)
  | .pwrEn p => some (s.port p).pwrEn
  | .bridge a k => some (s.bridgePin a (decide (2 ≤ k)) (k % 2 == 1))
  | .en a => some (s.enPin a)
  | .intN => if s.intAsserted then some false else none
  | .throtN => if s.throtAsserted then some false else none
  | .safeN => some s.safeN
  | _ => none

/-- What cell n drives when a boundary instruction drives it. -/
def State.cellBit (s : State) (n : Nat) : Bool := Sparse.get (fun _ => false) s.tap.cells n

/-- R473: what stands at the ball of an output, cell n: low where a latch holds it, but for EXTEST, CLAMP and HIGHZ in factory
test mode (SAFE_N excepted); else what the cell drives, high impedance (none), or what the functional logic drives until it is
disconnected. An open-drain pin is only ever pulled low. -/
def State.ball (s : State) (n : Nat) : Option Bool :=
  let c := boundaryCell n
  let drives : Bool := match controlOf n with
    | some k => s.cellBit k
    | none => !s.cellBit n
  let yields := s.ftmActive && c != .safeN
  match s.tap.instr with
  | .extest | .clamp =>
    if s.pinHeld c && !yields then some false else if drives then some (s.cellBit n) else none
  | .highz => if s.pinHeld c && !yields then some false else none
  | .idcode | .samplePreload | .ftmUnlock | .ftmConfirm | .bypass =>
    if s.pinHeld c then some false
    else if s.tap.disconnected then (if c = .intN ∨ c = .throtN then none else some false)
    else s.pinLevel c

/-- R473: the ball of strobe x, and of PWR_EN, of port p. -/
def State.strobeBall (s : State) (p x : Nat) : Bool := s.ball (9 * p + x) == some true
/-- The ball of PWR_EN of port p. -/
def State.powerBall (s : State) (p : Nat) : Bool := s.ball (9 * p + 3) == some true

/-- R471, R473: what cell n captures: the ball of an output, the control's own state, and a free value where the level comes
from outside or is not held. -/
def State.captureBit (s : State) (n : Nat) : Bool :=
  let outside := Config.freeValue (s.free + n) % 2 == 1
  match boundaryCell n with
  | .portCtl _ | .axisCtl _ | .flashCtl _ | .smpCtl | .safeCtl =>
    match s.tap.instr with
    | .extest | .clamp | .highz => s.cellBit n
    | .idcode | .samplePreload | .ftmUnlock | .ftmConfirm | .bypass => true
  | .rt _ | .sns _ | .lim _ _ | .fbk _ _ | .profile | .ftm => outside
  | .stb _ _ | .pwrEn _ | .link _ _ | .bridge _ _ | .en _ | .flash _ | .smp _ | .intN | .safeN | .throtN =>
    (s.ball n).getD outside

/-- R471: the boundary register captures its 2,041 levels. -/
def State.captureBoundary (s : State) : State :=
  { s with free := s.free + 2041, tap := { s.tap with captured := (List.range 2041).map s.captureBit } }

/-- R471: an instruction becomes current, with the data register it selects; nothing reaches the TAP while PORST_N is
low. -/
def State.tapTo (s : State) (i : TapInstr) (dr : BitVec 64) : State :=
  if s.porst then s else { s with tap := { s.tap with instr := i, dr := dr } }

/-- R473: the instruction disconnects the functional logic from the covered pins. -/
def State.tapTakes (s : State) (i : TapInstr) : State :=
  if s.porst then s else { s with tap := { s.tap with instr := i, dr := 0, disconnected := true } }

/-- R386: FTM_UNLOCK: with FTM low at release it acts as BYPASS. -/
def State.ftmUnlock (s : State) (v : BitVec 64) : State :=
  if !s.ftmStrap then s.tapTo .bypass 0
  else
    let s := s.tapTo .ftmUnlock v
    match s.ftm with
    | .active | .blocked => s
    | _ => { s with ftm := if v = ~~~Config.devUid then FtmState.loaded s.now else FtmState.blocked }

/-- FTM_UNLOCK. -/
def execFtmUnlock (t : Time) (value : BitVec 64) (s : State) : Host.Outcome State Fault Refusal :=
  let s := s.at t
  done (if s.porst then s else s.ftmUnlock value)

/-- R386: FTM_CONFIRM: within 1 ms of a correct value; a late one blocks further attempts. -/
def State.ftmConfirm (s : State) : State :=
  if !s.ftmStrap then s.tapTo .bypass 0
  else
    let s := s.tapTo .ftmConfirm 0
    match s.ftm with
    | .loaded t0 => { s with ftm := if s.now ≤ t0 + ms then FtmState.active else FtmState.blocked }
    | .none | .blocked | .active => s

/-- FTM_CONFIRM. -/
def execFtmConfirm (t : Time) (s : State) : Host.Outcome State Fault Refusal :=
  let s := s.at t
  done (if s.porst then s else s.ftmConfirm)

/-- R471, R473: EXTEST: the cells drive, and the boundary register captures the balls. -/
def execExtest (t : Time) (s : State) : Host.Outcome State Fault Refusal :=
  let s := s.at t
  done (if s.porst then s else (s.tapTakes .extest).captureBoundary)

/-- R474: IDCODE. -/
def execIdcode (t : Time) (s : State) : Host.Outcome State Fault Refusal :=
  let s := s.at t
  done (s.tapTo .idcode (idcodeWord.setWidth 64))

/-- R471: SAMPLE/PRELOAD: the boundary register captures the levels of the pins; `cells` is what is shifted into it. -/
def execSamplePreload (t : Time) (cells : List (Nat × Bool)) (s : State) : Host.Outcome State Fault Refusal :=
  let s := s.at t
  done (if s.porst then s
    else
      let s := (s.tapTo .samplePreload 0).captureBoundary
      { s with tap := { s.tap with cells := cells.foldl (fun m e =>
          if e.1 < 2041 then Sparse.put (fun _ => false) m e.1 e.2 else m) s.tap.cells } })

/-- R473: CLAMP. -/
def execClamp (t : Time) (s : State) : Host.Outcome State Fault Refusal :=
  let s := s.at t
  done (s.tapTakes .clamp)

/-- R473: HIGHZ. -/
def execHighz (t : Time) (s : State) : Host.Outcome State Fault Refusal :=
  let s := s.at t
  done (s.tapTakes .highz)

/-- R471: BYPASS, and every undefined opcode. -/
def execBypass (t : Time) (s : State) : Host.Outcome State Fault Refusal :=
  let s := s.at t
  done (s.tapTo .bypass 0)

/-- R471: TAP_RESET: IDCODE is selected. -/
def execTapReset (t : Time) (s : State) : Host.Outcome State Fault Refusal :=
  let s := s.at t
  done (s.tapTo .idcode (idcodeWord.setWidth 64))

end Sys2Proof.Machine
end

