-- ==== Sys2Proof/Machine/View.lean ====
section
/-! DEFINITION. What a register reads (R54 to R60, R68, R73, and the register tables of every chapter): the fields that
show the state of a block are computed when they are read; every other field is a stored word. -/

namespace Sys2Proof.Machine

/-- The position (i, j) in a field's array of the register at a page offset. -/
def Fld.index? (f : Fld) (off : Nat) : Option (Nat × Nat) :=
  ((List.range f.n1).flatMap fun i => (List.range f.n2).map fun j => (i, j)).find? fun e =>
    f.off + e.1 * f.s1 + e.2 * f.s2 == off

/-- A signed value as a w-bit field shows it; one that the field cannot hold has no stated value (log 8). -/
def showInt (w free : Nat) (x : Int) : Nat :=
  if -(2 ^ (w - 1) : Nat) ≤ x ∧ x < (2 ^ (w - 1) : Nat) then unsign w x else free % 2 ^ w

/-- R110: the encoding of MEM STATE. -/
def MemState.code : MemState → Nat
  | .off => 0 | .training => 1 | .ready => 2 | .selfRefresh => 3 | .fault => 4

/-- R205: the encoding of a channel's state. -/
def FbState.code : FbState → Nat
  | .off => 0 | .service => 1 | .run => 2 | .fault => 3

/-- R240: the encoding of a scan state. -/
def ScanState.code : ScanState → Nat
  | .stopped => 0 | .waiting => 1 | .stepping => 2

/-- R173: the encoding of a link's bring-up. -/
def LinkState.code : LinkState → Nat
  | .down => 0 | .idle => 1 | .ident => 2 | .config => 3 | .run => 4

/-- R256: the encoding of an axis state. -/
def AxState.code : AxState → Nat
  | .off => 0 | .service => 1 | .disabled => 2 | .standstill => 3 | .moving => 4 | .homing => 5 | .stopping => 6
  | .fault => 7

/-- R311: the encoding of a Joist channel's state. -/
def ChState.code : ChState → Nat
  | .idle => 0 | .pending => 1 | .running => 2 | .halted => 3

/-- R336: the encoding of an Ethernet port's state. -/
def EthState.code : EthState → Nat
  | .disabled => 0 | .training => 1 | .up => 2 | .partialUp => 3

/-- R339: the encoding of a Bexgar link's state. -/
def BxState.code : BxState → Nat
  | .down => 0 | .hello => 1 | .up => 2

/-- R391: the encoding of Kingpost's state. -/
def KpsState.code : KpsState → Nat
  | .selftest => 0 | .hold => 1 | .run => 2 | .latched => 3

/-- R443: the encoding of the update slot's state. -/
def UpdState.code : UpdState → Nat
  | .free => 0 | .claimed => 1 | .erasing => 2 | .opened => 3 | .verifying => 4

/-- R422: the encoding of PHASE. -/
def CalPhase.code : CalPhase → Nat
  | .idle => 0 | .pending => 1 | .p1 => 2 | .p2 => 3 | .p3 => 4 | .p4 => 5

/-- R109: the encoding of RSTATE. -/
def RingState.code : RingState → Nat
  | .unconfigured => 0 | .run => 1 | .halted => 2 | .resync => 3

/-- R60: what STATE of a page reads. -/
def State.pageState (s : State) (p : Page) (inst : Nat) : Nat :=
  match p with
  | .dev => s.devOp.code
  | .seq => s.devState.code
  | .mem => s.mem.code
  | .ft => (s.port inst).st.code
  | .hl => (s.port inst).health.st.code
  | .lk => (s.port inst).link.code
  | .fbk => (s.chan inst).st.code
  | .ax0 => (s.axis inst).st.code
  | .mgp => bitOf (s.mgroup inst).vbusFault
  | .jst0 => match (s.engine inst).holder with
    | some c => 16 + c
    | none => 0
  | .eth => (s.eth inst).st.code
  | .hal0 => s.hal.servo.code
  | .lnk0 => bitOf s.lnk.on
  | .kps0 => s.kps.st.code
  | .thm => s.thm.level
  | .upd => s.upd.st.code
  | _ => 0

/-- A field and what it reads at a place of its array. -/
abbrev Shown := Fld × (Nat → Nat → Nat)

/-- A field outside an array and what it reads. -/
def one (f : Fld) (v : Nat) : Shown := (f, fun _ _ => v)

/-- R77: DEV. -/
def State.showDev (s : State) : List Shown :=
  [one Reg.DEV_STRAPS_FTM_ACTIVE (bitOf s.ftmActive), one Reg.DEV_STRAPS_FTM (bitOf s.ftmStrap),
   one Reg.DEV_STRAPS_PROFILE (bitOf s.ul24)]

/-- R104, R108: BND page 0: a port at which LOWFILL is present keeps its bit set (R68). -/
def State.showBnd0 (s : State) : List Shown :=
  [(Reg.BND_ATTN_ATTN, fun i _ => s.fget Reg.BND_ATTN_ATTN 0 i ||| s.lowMask i)]

/-- R109: BND page 1. -/
def State.showBnd (s : State) : List Shown :=
  let w (p : Nat) : Ptr := Ptr.ofPos (s.ring p).bytes (s.ring p).wpos
  let r (p : Nat) : Ptr := Ptr.ofPos (s.ring p).bytes (s.ring p).rpos
  [(Reg.BND_WPTR_WRAP, fun p _ => bitOf (w p).wrap), (Reg.BND_WPTR_OFFSET, fun p _ => (w p).off),
   (Reg.BND_RPTR_WRAP, fun p _ => bitOf (r p).wrap), (Reg.BND_RPTR_OFFSET, fun p _ => (r p).off),
   (Reg.BND_RSTAT_FILL, fun p _ => min 0xFFFF ((s.ring p).fill / 4096)),
   (Reg.BND_RSTAT_HDR_CODE, fun p _ => (s.ring p).hdrCode), (Reg.BND_RSTAT_RSTATE, fun p _ => (s.ring p).st.code)]

/-- R136 to R138: SCR of group g; a member with GEOM keeps its bit of ATTN set (R68). -/
def State.showScr (s : State) (g : Nat) : List Shown :=
  [one Reg.SCR_ATTN_ATTN (s.fget Reg.SCR_ATTN_ATTN g ||| s.badGeom g), one Reg.SCR_SLOT_USE_USE (s.slotUse g),
   (Reg.SCR_PSTAT_GEOM, fun m _ => bitOf !(s.geomOk (12 * g + m))),
   (Reg.SCR_PSTAT_SLOT, fun m _ => (s.flow (12 * g + m)).slot),
   (Reg.SCR_PSTAT_PHASE_Y, fun m _ => (s.flow (12 * g + m)).phaseY),
   (Reg.SCR_PSTAT_PHASE_X, fun m _ => (s.flow (12 * g + m)).phaseX)]

/-- R175: the pending copy of group g differs from the active one. -/
def State.planPending (s : State) (g : Nat) : Bool :=
  groupOffsets.any fun o => s.word (regAddr .ft (12 * g) o) != s.aword (regAddr .ft (12 * g) o)

/-- R175, R229, R230: the group's fields, which member 0's page shows. -/
def State.showGroup (s : State) (g : Nat) : List Shown :=
  let tick := (s.tickCount g - 1) % 2 ^ 48
  [one Reg.GRP_PLAN_PEND (bitOf (s.planPending g)),
   one Reg.GRP_PLAN_MISFIT (maskOf ((List.range 12).filter fun m => !s.fits (12 * g + m))),
   one Reg.GRP_PLAN_PEAK (planPeak (s.groupA g) (s.slots g)),
   one Reg.PL_GRP_TICK_LO_TICK (tick % 2 ^ 32), one Reg.PL_GRP_TICK_HI_TICK (tick / 2 ^ 32)]

/-- R174, R229: the fire-timing page of port p. Under media-position pacing PL_RESID.FIX shows its Reset value (DEDUCED,
log 29); so does PL_STAT.SLOW before the media reference has given a state (DEDUCED, log 33). -/
def State.showFt (s : State) (p : Nat) : List Shown :=
  let g := p / 12
  let fit := s.fitWord p
  let k : Nat := (s.dieRowList p).foldl (fun w e => w + min 7 (s.rowK p e.1 e.2).toNat * 8 ^ (2 * e.1 + e.2)) 0
  let fixed := s.fixedPace g
  let q := s.fixQ p
  let slow := !fixed && (s.obs g).tm != 0 && decide (absRat (s.obs g).v * 65536 < (s.aget Reg.PL_GRP_VMIN_VMIN (12 * g) : Nat))
  [one Reg.FT_SPAN_SPAN (min 0xFFFF (s.span p)),
   one Reg.FT_FIT_GAPQ (fit / 256 % 2), one Reg.FT_FIT_LINK (fit / 128 % 2), one Reg.FT_FIT_GRID (fit / 64 % 2),
   one Reg.FT_FIT_WINDOW (fit / 32 % 2), one Reg.FT_FIT_SPAN (fit / 16 % 2), one Reg.FT_FIT_PITCH (fit / 8 % 2),
   one Reg.FT_FIT_ORDER (fit / 4 % 2), one Reg.FT_FIT_CRED0 (fit / 2 % 2), one Reg.FT_FIT_FITS (fit % 2),
   one Reg.PL_DELAY_ROWSPAN (bitOf (s.rowSpan p)), one Reg.PL_DELAY_K k,
   one Reg.PL_RESID_FIX (if fixed then unsign 16 (satS 16 (fixInt 12 ((q - (q + 1 / 2).floor) * 32768))) else 0),
   one Reg.PL_RESID_ROW (satU 16 (fixInt 12 (s.rowResid p * 65536)).toNat),
   one Reg.PL_CENTER_CTR (showInt 32 s.drawn (fixInt 12 (s.rowCtr p * 65536))),
   one Reg.PL_STAT_REV_HOLD (bitOf (s.flow p).revHold), one Reg.PL_STAT_S_VALID (bitOf (s.sKnown p)),
   one Reg.PL_STAT_SLOW (bitOf slow), one Reg.PL_STAT_REF_OK (bitOf (s.refOk g)),
   one Reg.PL_AGE_AGE (s.stateAge p)] ++ (if p % 12 = 0 then s.showGroup g else [])

/-- R176: the link page of port p. -/
def State.showLk (s : State) (p : Nat) : List Shown :=
  let x := s.port p
  let pend := x.trimPend.length + (x.trimImm.filter fun k => !x.trimPend.contains k).length
  [one Reg.LK_STAT_PEND pend, one Reg.LK_STAT_TBANK x.bank,
   one Reg.LK_STAT_AGE_AGE (match x.statusLast with | some t => min 0xFFFF ((s.now - t) / us) | none => 0xFFFF)]

/-- R197: the energy page of port p. -/
def State.showEn (s : State) (p : Nat) : List Shown :=
  let x := s.port p
  [one Reg.EN_OVD_SUM_S (satU 32 (fixInt 12 ((x.budget.sum : Rat) / us)).toNat),
   one Reg.EN_STAT_FORCING (bitOf x.budget.forcing), one Reg.EN_STAT_THROT_REQ (bitOf x.budget.exhFrom.isSome),
   one Reg.EN_STAT_EXH (bitOf x.budget.exhFrom.isSome), one Reg.EN_STAT_COLD x.coldDies,
   one Reg.EN_STAT_CRIT x.critDies, one Reg.EN_STAT_HOT x.hotDies, one Reg.EN_STAT_RES_OK x.resDies]

/-- R251: the health page of port p. -/
def State.showHl (s : State) (p : Nat) : List Shown :=
  let h := (s.port p).health
  let g (q : Nat) : Nat := Sparse.get (fun _ => 0) h.cond q / 4096 % 65536
  [one Reg.HL_CURSOR_NEXT h.cursor, (Reg.HL_DRIFT_EVEN, fun i _ => g (2 * i)), (Reg.HL_DRIFT_ODD, fun i _ => g (2 * i + 1))]

/-- R204: FBK_RAW_SPEED of channel c, in 2⁻¹⁶ counts per µs: one count over the longer of the latest interval and the
time since; before a second count there is no interval, and it shows 0 (DEDUCED, log 30). -/
def State.rawSpeed (s : State) (c : Nat) : Int :=
  let x := s.chan c
  match x.lastCount, x.prevCount with
  | some a, some b =>
    let d := max (a - b) (s.now - a)
    let v : Int := if d = 0 then 2 ^ 31 - 1 else min (2 ^ 31 - 1) (fixInt 13 (65536 * (us : Rat) / (d : Nat)))
    if x.lastUp then v else -v
  | _, _ => 0

/-- R228: the page of channel c. -/
def State.showFbk (s : State) (c : Nat) : List Shown :=
  let x := s.chan c
  let pos := unsign 64 x.count
  let obs := showInt 64 s.drawn (fixInt 13 (x.x * 65536))
  [one Reg.FBK_POS_LO_POS (pos % 2 ^ 32), one Reg.FBK_POS_HI_POS (pos / 2 ^ 32),
   one Reg.FBK_RAW_SPEED_SPEED (unsign 32 (s.rawSpeed c)),
   one Reg.FBK_INPUTS_IBA (4 * bitOf x.i + 2 * bitOf x.b + bitOf x.a),
   one Reg.FBK_OBS_POS_LO_X (obs % 2 ^ 32), one Reg.FBK_OBS_POS_HI_X (obs / 2 ^ 32),
   one Reg.FBK_OBS_VEL_V (showInt 32 s.drawn (fixInt 13 (x.v * 65536))),
   one Reg.FBK_OBS_ACC_A (showInt 32 s.drawn (fixInt 13 (x.acc * 1000000 * 65536))),
   one Reg.FBK_OBS_TICK_TICK x.tick, one Reg.FBK_OBS_INNOV_E (showInt 32 s.drawn (fixInt 13 (x.innov * 65536)))]

/-- R284: page 0 of axis a. -/
def State.showAx0 (s : State) (a : Nat) : List Shown :=
  let x := s.axis a
  [one Reg.AX_POS_POS (unsign 32 x.p.floor), one Reg.AX_VEL_V (showInt 32 s.drawn (fixInt 14 x.v)),
   one Reg.AX_REMAIN_REMAIN (showInt 32 s.drawn (fixInt 6 x.remain)), one Reg.AX_STAT_ADDR x.addr,
   one Reg.AX_STAT_LA_VALID (bitOf x.lambdaV), one Reg.AX_STAT_PVT (bitOf x.pvt.isSome),
   one Reg.AX_STAT_SET (bitOf x.inSet.isSome), one Reg.AX_STAT_LIMP (bitOf (s.limActive a .limp)),
   one Reg.AX_STAT_LIMN (bitOf (s.limActive a .limn)), one Reg.AX_STAT_REMAIN_V (bitOf x.remainV),
   one Reg.AX_STAT_HOMED (bitOf x.homed), one Reg.AX_I_ACT_I_SET x.iSet]

/-- R285: page 1 of axis a; AX_PVT_AMAX and AX_PVT_STAT stand on a group's first axis alone. -/
def State.showAx1 (s : State) (a : Nat) : List Shown :=
  let x := s.axis a
  let first := a % 12 == 0
  [one Reg.AX_LOADANG_VALID (bitOf x.lambdaV), one Reg.AX_LOADANG_LAMBDA (unsign 10 (fixInt 14 x.lambda)),
   one Reg.AX_FERR_VAL_EF (if (s.encOf a).isSome then showInt 32 s.drawn (fixInt 14 (x.q - s.pe a)) else 0)] ++
  (if first then
    [one Reg.AX_PVT_STAT_RUN (bitOf x.pvt.isSome), one Reg.AX_PVT_STAT_BADSEG x.badSeg,
     one Reg.AX_PVT_STAT_CUR (match x.pvt with | some r => r.seg | none => 0)]
   else [one Reg.AX_PVT_AMAX_AMAX 0])

/-- R286: the page of motion group g. -/
def State.showMgp (s : State) (g : Nat) : List Shown :=
  [one Reg.MGP_ATTN_ATTN (s.mgAttn g), one Reg.MGP_VBUS_VBUS (satU 16 (fixInt 9 (s.mgroup g).vbus).toNat),
   (Reg.SET_STAT_REMAIN_V, fun k _ => bitOf (s.setRemainV g k)), (Reg.SET_STAT_ACTIVE, fun k _ => bitOf (s.mset g k).active),
   (Reg.SET_STAT_LEAD, fun k _ => (s.mset g k).lead)]

/-- R312: page 1 of Joist engine e. -/
def State.showJst1 (s : State) (e : Nat) : List Shown :=
  [(Reg.CH_CUR_PREF, fun c _ => bitOf (s.jchan e c).pref.isSome), (Reg.CH_CUR_INDEX, fun c _ => (s.jchan e c).cur)]

/-- R336: the page of Ethernet port e. -/
def State.showEth (s : State) (e : Nat) : List Shown :=
  [one Reg.ETH_LINKS_AN_DONE (s.eth e).anDone, one Reg.ETH_LINKS_UP (maskOf (s.eth e).up)]

/-- R337: HAL page 0. -/
def State.showHal0 (s : State) : List Shown :=
  let t := s.halTime
  let pend := if s.hal.stepPend then showInt 64 s.drawn (fixInt 11 ((s.pendAmount : Rat) / 2 ^ 24)) else 0
  [one Reg.HAL_INC_LO_INC (s.hal.inc % 2 ^ 32), one Reg.HAL_INC_HI_INC (s.hal.inc / 2 ^ 32 % 256),
   one Reg.HAL_ADJ_ADJ (showInt 32 s.drawn (fixInt 15 s.hal.adj)),
   one Reg.HAL_INTEG_INTEG (showInt 32 s.drawn (fixInt 15 s.hal.integ)),
   one Reg.HAL_TIME_SUB_FRAC (halFrac t / 2 ^ 24), one Reg.HAL_TIME_NS_NS (halNs t),
   one Reg.HAL_TIME_SEC_LO_SEC (halSec t % 2 ^ 32), one Reg.HAL_TIME_SEC_HI_SEC (halSec t / 2 ^ 32),
   one Reg.HAL_PEND_LO_STEP (pend % 2 ^ 32), one Reg.HAL_PEND_HI_STEP (pend / 2 ^ 32)]

/-- R338: HAL page 1; with nothing held, the head's fields show their Reset value (DEDUCED, log 31). -/
def State.showHal1 (s : State) : List Shown :=
  one Reg.HAL_TXTS_STAT_COUNT s.hal.stamps.length ::
  (match s.hal.stamps with
   | [] => []
   | x :: _ =>
     let sec := x.stamp / 256 / 1000000000
     [one Reg.HAL_TXTS_ID_SEQID x.seqId, one Reg.HAL_TXTS_ID_DOMAIN x.domain, one Reg.HAL_TXTS_ID_MTYPE x.msgType,
      one Reg.HAL_TXTS_ID_LINK x.link, one Reg.HAL_TXTS_SUB_FRAC (x.stamp % 256),
      one Reg.HAL_TXTS_NS_NS (x.stamp / 256 % 1000000000), one Reg.HAL_TXTS_SEC_LO_SEC (sec % 2 ^ 32),
      one Reg.HAL_TXTS_SEC_HI_SEC (sec / 2 ^ 32)])

/-- R339: LNK page 0. -/
def State.showLnk0 (s : State) : List Shown :=
  [(Reg.LNK_PEER_AGE, fun L _ => match (s.bx L).peerAt with
      | some t => min 0xFFFF ((s.now - t) / ms)
      | none => 0xFFFF)]

/-- R340: LNK page 1; with no entry held, the head's fields show their Reset value (log 31). -/
def State.showLnk1 (s : State) : List Shown :=
  [(Reg.TX_WPTR_WRAP, fun n _ => bitOf (s.txs n).wptr.wrap), (Reg.TX_WPTR_OFFSET, fun n _ => (s.txs n).wptr.off),
   (Reg.TX_RPTR_WRAP, fun n _ => bitOf (s.txs n).rptr.wrap), (Reg.TX_RPTR_OFFSET, fun n _ => (s.txs n).rptr.off),
   (Reg.TX_OFFS_OFFS, fun n _ => (s.txs n).offs), (Reg.TX_ACKED_OFFS, fun n _ => (s.txs n).acked),
   (Reg.RX_WPTR_WRAP, fun n _ => bitOf (s.rxs n).wptr.wrap), (Reg.RX_WPTR_OFFSET, fun n _ => (s.rxs n).wptr.off),
   (Reg.RX_RPTR_WRAP, fun n _ => bitOf (s.rxs n).rptr.wrap), (Reg.RX_RPTR_OFFSET, fun n _ => (s.rxs n).rptr.off),
   (Reg.RX_EXP_OFFS, fun n _ => (s.rxs n).exp), (Reg.RX_STAT_HALTED, fun n _ => bitOf (s.rxs n).halted),
   (Reg.RX_STAT_FULL, fun n _ => bitOf (s.rxs n).full), one Reg.EP_STAT_COUNT s.lnk.epochs.length] ++
  (match s.lnk.epochs with
   | [] => []
   | x :: _ =>
     [one Reg.EP_SRC_ID x.id, one Reg.EP_SRC_PORT x.port, one Reg.EP_PAGE_PAGE x.page,
      one Reg.EP_STAMP_LO_STAMP (x.stamp.toNat % 2 ^ 32), one Reg.EP_STAMP_HI_STAMP (x.stamp.toNat / 2 ^ 32)])

/-- R348 to R352: PEN. -/
def State.showPen (s : State) : List Shown :=
  [one Reg.PEN_SUM_LO_SUM (s.summary % 2 ^ 32), one Reg.PEN_SUM_HI_SUM (s.summary / 2 ^ 32),
   one Reg.PEN_ACT_LO_ACT (s.penAct % 2 ^ 32), one Reg.PEN_ACT_HI_ACT (s.penAct / 2 ^ 32),
   (Reg.PEN_PG_ATTN_ATTN, fun g _ => s.pgAttn g), (Reg.PEN_FB_ATTN_ATTN, fun g _ => s.fbAttn g),
   one Reg.PEN_LINK_BME (bitOf s.pcie.bme), one Reg.PEN_LINK_MSI_EN (bitOf s.pcie.msiEn),
   one Reg.PEN_LINK_UP (bitOf s.pcie.linkUp), one Reg.PEN_LINK_SPEED s.pcie.speed, one Reg.PEN_LINK_WIDTH s.pcie.width]

/-- R372: SEQ of the newest history entry; 0 before the first. -/
def Kps.newest (k : Kps) : Nat :=
  if k.nextSeq = 0 then (Sparse.get (fun _ => HistEntry.reset) k.hist 31).seqNo else k.nextSeq - 1

/-- R391: KPS page 0. -/
def State.showKps0 (s : State) : List Shown :=
  let k := s.kps
  let valid := (List.range 64).filter fun i => (k.slot i).valid
  [one Reg.KPS_STAT_SEQ k.newest, one Reg.KPS_STAT_UNACK valid.length, one Reg.KPS_STAT_FULL_PEND (bitOf k.fullPend),
   one Reg.KPS_STAT_DSAFE (bitOf k.dsafe), one Reg.KPS_STAT_MAXSEV ((valid.map fun i => (k.slot i).sev).foldl max 0),
   one Reg.KPS_DSAFE_MSG_MSG k.dsafeMsg.toNat,
   (Reg.KPS_PLATCH_LATCH, fun i _ => maskOf ((List.range 32).filter fun b => !k.portClear.contains (32 * i + b))),
   one Reg.KPS_MLATCH_LATCH (maskOf ((List.range 8).filter fun n => !k.motionClear.contains n))]

/-- R381, R394, R473: the readback of strobe x of port p. -/
def State.strobeRb (s : State) (p x : Nat) : Bool :=
  s.strobeBall p x || s.kps.readback.any fun e => e.1 == 3 * p + x && decide (s.now < e.2)

/-- R393: KPS page 2. -/
def State.showKps2 (s : State) : List Shown :=
  [(Reg.KPS_STB_RB_PWR, fun p _ => bitOf (s.powerBall p)),
   (Reg.KPS_STB_RB_STB, fun p _ => maskOf ((List.range 3).filter (s.strobeRb p)))]

/-- R448, R458: CLK: an island shows once it is up, its clock while it is locked. -/
def State.showClk (s : State) : List Shown :=
  let up := (List.range 30).filter s.islandOn
  [one Reg.CLK_ISL_ON_ON (maskOf up), one Reg.CLK_LOCK_LOCK (maskOf (up.filter (s.fget Reg.CLK_LOCK_LOCK).testBit))]

/-- R421: THM. -/
def State.showThm (s : State) : List Shown :=
  let t := s.thm
  [one Reg.THM_STAT_TCTL (unsign 16 t.tctl), one Reg.THM_STAT_HOTTEST t.hottest,
   one Reg.THM_STAT_PINNED (bitOf !t.pinned.isEmpty), one Reg.THM_STAT_FLOOR t.floor, one Reg.THM_STAT_LEVEL t.level,
   one Reg.THM_SFAIL_LO_FAIL (maskOf t.failed % 2 ^ 32), one Reg.THM_SFAIL_HI_FAIL (maskOf t.failed / 2 ^ 32),
   one Reg.THM_SHUT_RECENT (min 255 (t.restarts.filter fun r => decide (s.now < r + tenMin)).length),
   one Reg.THM_SHUT_OFF_LATCHED (bitOf t.offLatched), one Reg.THM_SHUT_ACTIVE (bitOf t.shutdown),
   (Reg.THM_TEMP_EVEN, fun i _ => unsign 16 (s.temp (2 * i))), (Reg.THM_TEMP_ODD, fun i _ => unsign 16 (s.temp (2 * i + 1)))]

/-- R422: CAL. -/
def State.showCal (s : State) : List Shown :=
  [(Reg.CAL_CSTAT_PHASE, fun i j => (s.cal (32 * i + j)).phase.code), (Reg.CAL_CSTAT_LAST, fun i j => (s.cal (32 * i + j)).last),
   (Reg.CAL_CSTAT_DEFERS, fun i j => (s.cal (32 * i + j)).defers)]

/-- R443: a slot as UPD_BOOT shows it: 0 none, 1 A, 2 B. -/
def slotCode (o : Option Nat) : Nat := match o with | some b => b + 1 | none => 0

/-- R443: VERSION of what slot or bank k holds, 0 while it is invalid. -/
def State.updVersion (s : State) (k : Nat) : Nat :=
  let d := s.upd.dir
  let (cls, b) := (k / 2 + 1, k % 2)
  let ok := if cls = 3 then d.rcpValid b else (d.entry cls).valid b
  if ok then (s.container (flashRegion cls b).1).version else 0

/-- R443: UPD, as master m sees it. -/
def State.showUpd (s : State) (m : Master) : List Shown :=
  let u := s.upd
  let d := u.dir
  [one Reg.UPD_CLAIM_RESULT (Sparse.get (fun _ => 0) u.claimRes m.code), one Reg.UPD_CLAIM_HELD (bitOf (u.st != .free)),
   one Reg.UPD_CLAIM_OWNER u.owner, one Reg.UPD_CLAIM_TOKEN u.token, one Reg.UPD_SESSION_CLASS u.cls,
   one Reg.UPD_SESSION_WRITTEN (u.written / 16), one Reg.UPD_BOOT_SF_TRIES d.safety.tries,
   one Reg.UPD_BOOT_SF_PEND (slotCode d.safety.pend), one Reg.UPD_BOOT_SF_RUN u.runSafety,
   one Reg.UPD_BOOT_MG_TRIES d.mgmt.tries, one Reg.UPD_BOOT_MG_PEND (slotCode d.mgmt.pend),
   one Reg.UPD_BOOT_MG_RUN u.runMgmt, one Reg.UPD_BOOT_FALLBACK (bitOf u.fallback),
   one Reg.UPD_BOOT_SF_REVERTED (bitOf d.safety.reverted), one Reg.UPD_BOOT_MG_REVERTED (bitOf d.mgmt.reverted),
   one Reg.UPD_RCP_STAGING (bitOf (match u.act with | some a => a.staging | none => false)),
   one Reg.UPD_RCP_PEND (bitOf (match u.act with | some a => !a.staging | none => false)),
   one Reg.UPD_RCP_PBANK (match u.act with | some a => a.bank | none => 0), one Reg.UPD_RCP_ACTIVE (d.active.getD 0),
   one Reg.UPD_RCP_VALID (bitOf d.rcp0 + 2 * bitOf d.rcp1), (Reg.UPD_VER_VERSION, fun k _ => s.updVersion k),
   (Reg.UPD_PARAM_PEND_PEND, fun i _ => maskOf ((List.range 32).filter fun k => (s.port (32 * i + k)).paramPend))]

/-- The fields of a page that show the state of its block. -/
def State.shows (s : State) (m : Master) (p : Page) (inst : Nat) : List Shown :=
  match p with
  | .dev => s.showDev | .bnd1 => s.showBnd | .scr => s.showScr inst | .ft => s.showFt inst | .lk => s.showLk inst
  | .en => s.showEn inst | .hl => s.showHl inst | .fbk => s.showFbk inst | .ax0 => s.showAx0 inst
  | .ax1 => s.showAx1 inst | .mgp => s.showMgp inst | .jst1 => s.showJst1 inst | .eth => s.showEth inst
  | .hal0 => s.showHal0 | .hal1 => s.showHal1 | .lnk0 => s.showLnk0 | .lnk1 => s.showLnk1 | .pen => s.showPen
  | .kps0 => s.showKps0 | .kps2 => s.showKps2 | .kps3 => [one Reg.KPS_FTM_ACTIVE (bitOf s.ftmActive)]
  | .thm => s.showThm | .cal => s.showCal | .upd => s.showUpd m
  | .clk => s.showClk
  | .kps1 | .seq | .mem | .hal2 | .hal3 | .jst0 => []
  | .bnd0 => s.showBnd0

/-- Two-bit fields, one for each number below n, in one word. -/
def twoBits (n : Nat) (v : Nat → Nat) : Word :=
  BitVec.ofNat 32 ((List.range n).foldl (fun w i => w + v i * 4 ^ i) 0)

/-- R392: a slot of the unacknowledged table. -/
def slotWord (x : Slot) : Word :=
  BitVec.ofNat 32 (x.source * 2 ^ 22 + x.kind * 2 ^ 16 + x.sev * 2 ^ 14 + bitOf x.valid * 2 ^ 13 + x.count)

/-- R373: word k of a history entry. -/
def histWord (x : HistEntry) (k : Nat) : Word :=
  match k with
  | 0 => x.msg
  | 1 => BitVec.ofNat 32 (x.seqNo * 2 ^ 16 + x.eff * 2 ^ 14 + bitOf x.esc * 2 ^ 13 + bitOf x.noslot * 2 ^ 12)
  | 2 => x.stamp.setWidth 32
  | _ => (x.stamp >>> 32).setWidth 32

/-- History slot j. -/
def State.histSlot (s : State) (j : Nat) : HistEntry := Sparse.get (fun _ => HistEntry.reset) s.kps.hist j

/-- The registers that are no stored word and no list of fields: windows into memories of Kingpost (R392), states of many
units in one word (R47, R311, R339), and what is write-only. -/
def State.windowWord (s : State) (p : Page) (inst off : Nat) : Option Word :=
  match p with
  | .seq => if 0x80 ≤ off ∧ off < 0xB0 then
      some (BitVec.ofNat 32 ((List.range 8).foldl (fun w k => w + (s.port (8 * ((off - 0x80) / 4) + k)).sq.code * 16 ^ k) 0))
    else none
  | .jst0 => if off = 0x40 then some (twoBits 16 fun c => (s.jchan inst c).st.code) else none
  | .lnk0 => if off = 0x64 then some (twoBits 8 fun L => (s.bx L).st.code) else none
  | .kps0 => if 0x100 ≤ off ∧ off < 0x200 then some (slotWord (s.kps.slot ((off - 0x100) / 4))) else none
  | .kps1 =>
    if off = 0x40 then some (BitVec.ofNat 32 s.kps.newest)
    else if 0x100 ≤ off ∧ off < 0x300 then some (histWord (s.histSlot ((off - 0x100) / 16)) (off % 16 / 4)) else none
  | .upd => if 0x800 ≤ off then some 0 else none
  | _ => none

/-- R56, R109, R393, R411: the register belongs to an absent port or channel inside a page that is present. -/
def State.absentPart (s : State) (p : Page) (off : Nat) : Bool :=
  match p with
  | .bnd1 => decide (0x40 ≤ off) && decide (s.portCount ≤ (off - 0x40) / 0x20)
  | .kps2 => decide (0x100 ≤ off) && decide (s.portCount ≤ (off - 0x100) / 4)
  | .cal => decide (0x100 ≤ off) && !s.calPresent (32 * ((off - 0x100) / 0x1C0) + (off - 0x100) % 0x1C0 / 16)
  | _ => false

/-- R73: SHADOW_CTL of port p. -/
def State.shadowCtl (s : State) (p : Nat) : Word :=
  let x := s.port p
  BitVec.ofNat 32 (bitOf x.nowRej * 2 ^ 10 + bitOf (s.busy p) * 2 ^ 9 + bitOf x.dirty * 2 ^ 8 + bitOf x.rdActive * 4 +
    bitOf x.hold * 2)

/-- R59: what a register of the common header reads. -/
def State.headerWord (s : State) (p : Page) (inst off : Nat) : Word :=
  match off with
  | 0x00 => BitVec.ofNat 32 (p.code * 2 ^ 16 + inst * 2 ^ 8 + p.index)
  | 0x04 => (Config.pageRev (16 * p.code + p.index)).setWidth 32
  | 0x08 => BitVec.ofNat 32 (s.pageState p inst)
  | 0x10 => s.statusWord p inst
  | 0x14 => s.cause p inst
  | 0x18 => s.word (regAddr p inst 0x18)
  | 0x1C => s.live p inst
  | 0x24 => if s.unlocked p inst then 1 else 0
  | 0x28 => if p = .ft then s.shadowCtl inst else 0
  | _ => 0

/-- R73, R175: the register is shadowed content of a port (UL-24: no screening page is present). -/
def isShadowed (p : Page) (off : Nat) : Bool := (fieldsAt p off).any (·.shadowed)

/-- What master m reads at a page offset of a page that is present. -/
def State.pageWord (s : State) (m : Master) (p : Page) (inst off : Nat) : Word :=
  if off < 0x40 then s.headerWord p inst off
  else if s.absentPart p off then 0
  else match s.windowWord p inst off with
    | some w => w
    | none =>
      let a := regAddr p inst off
      let w := if isShadowed p off && (s.port (shadowOwner p inst off)).rdActive then s.aword a else s.word a
      (s.shows m p inst).foldl (fun w e => match e.1.index? off with
        | some (i, j) => e.1.set w (e.2 i j)
        | none => w) w

end Sys2Proof.Machine
end

