-- ==== Sys2Proof/Machine/Bus.lean ====
section
/-! DEFINITION. The register space as its masters use it (R53 to R80): commands by page and code, writes and reads of
every register and table word, the wide fields of R58, factory-forced causes (R72), the UL-24 alias window (R78, R79),
and the serial management port (R353 to R356). -/

namespace Sys2Proof.Machine

/-- Every command of every page, by page and code: whether it needs a part that is clock-gated now (R403), and what R61
checks. -/
def State.commandOf (s : State) (m : Master) (p : Page) (i code arg : Nat) : Option (Bool × CmdSpec) :=
  let fire := s.gatedFire (i / 12)
  if code = 0 then some (false, nopSpec)
  else match p, code with
  | .dev, 0x01 => some (false, { eff := fun s => (s.fput Reg.DEV_UNMAPPED_COUNT 0).setWord Reg.DEV_UNMAPPED_ADDR_ADDR.addr 0 })
  | .bnd0, 0x01 => some (s.gatedRing arg, specRingReset s arg)
  | .bnd0, 0x02 => some (false, specRingFlush s arg)
  | .bnd0, 0x03 => some (false, specBndClrEcc)
  | .mem, 0x01 => some (false, specTrain s)
  | .mem, 0x02 => some (false, specSrEnter s)
  | .mem, 0x03 => some (false, specSrExit s)
  | .mem, 0x04 => some (false, specMemClrEcc)
  | .lnk0, 0x01 => some (false, specLnkOn s)
  | .lnk0, 0x02 => some (false, specLnkOff s)
  | .lnk0, 0x03 => some (false, specLinkReset s arg)
  | .lnk0, 0x04 => some (false, specLnkClrCnt)
  | .lnk1, 0x01 => some (false, specStreamReset s arg)
  | .lnk1, 0x02 => some (false, specEpochPop s)
  | .cal, 0x01 => some (arg.testBit 8 && s.gatedFire (calGroup (argField arg 7 0)), specCalRun s arg)
  | .cal, 0x02 => some (false, specCalCancel s arg)
  | .cal, 0x03 => some (false, specCalClrCnt)
  | .jst0, 0x01 => some (false, specJstStart s i arg)
  | .jst0, 0x02 => some (false, specJstAbort s i arg)
  | .jst0, 0x03 => some (false, specClear s i arg)
  | .jst0, 0x04 => some (false, specJstClrCnt i arg)
  | .fbk, 0x10 => some (false, specFbkSvcEnter s i)
  | .fbk, 0x13 => some (false, specFbkOff s i)
  | .fbk, 0x18 => some (false, specLoadPos s i)
  | .fbk, 0x11 => some (false, specFbkSvcLeave s i)
  | .fbk, 0x02 => some (false, specFbkClrCnt i)
  | .en, 0x01 => some (false, specEnClrCnt i)
  | .en, 0x02 => some (false, specBudgetReset s i)
  | .hl, 0x01 => some (fire, specScanStart s i arg)
  | .hl, 0x02 => some (false, specScanStop s i)
  | .hl, 0x03 => some (fire, specScanSvc s i)
  | .hl, 0x04 => some (false, specDriftReset i)
  | .hl, 0x05 => some (false, specHlClrCnt i)
  | .hl, 0x06 => some (false, specResReset s i)
  | .kps0, 0x01 => some (false, specKpsAck s arg)
  | .kps0, 0x02 => some (false, specAckAll arg)
  | .kps0, 0x03 => some (false, specDsafeRelease s)
  | .kps0, 0x04 => some (false, specKpsClrCnt)
  | .lk, 0x01 => some (fire, specIdReq s i)
  | .lk, 0x02 => some (false, specLkClrCnt i)
  | .ax0, 0x10 => some (false, specAxSvcEnter s i)
  | .ax0, 0x11 => some (false, specAxSvcLeave s i)
  | .ax0, 0x13 => some (false, specAxOff s i)
  | .ax0, 0x20 => some (s.gatedMotion (i / 12), specEnable s i)
  | .ax0, 0x21 => some (false, specDisable s i)
  | .ax0, 0x22 => some (false, specMove s i)
  | .ax0, 0x23 => some (false, specStopAxis s i .dec)
  | .ax0, 0x24 => some (false, specResume s i)
  | .ax0, 0x25 => some (false, specStopAxis s i .qdec)
  | .ax0, 0x26 => some (false, specHome s i)
  | .ax0, 0x27 => some (false, specPvtStart s i arg)
  | .ax0, 0x28 => some (false, specSetPos s i)
  | .ax0, 0x29 => some (false, specClrFault s i)
  | .mgp, 0x01 => some (s.gatedMotion i, specSetMove s i arg)
  | .mgp, 0x02 => some (false, specSetStop s i arg)
  | .mgp, 0x03 => some (s.gatedMotion i, specSetResume s i arg)
  | .mgp, 0x04 => some (false, specVbusClr s i)
  | .eth, 0x01 => some (s.gatedEth i, specEthEnable s i)
  | .eth, 0x02 => some (false, specEthDisable s i)
  | .eth, 0x03 => some (false, specEthClrCnt i)
  | .hal0, 0x01 => some (false, specOffset s)
  | .hal0, 0x02 => some (false, specSetTime s)
  | .hal0, 0x03 => some (false, specCancelStep s)
  | .hal0, 0x04 => some (false, specServoReset)
  | .hal1, 0x01 => some (false, specTxtsPop s)
  | .pen, 0x01 => some (false, specEoi)
  | .pen, 0x02 => some (false, specPenClrCnt)
  | .clk, 0x01 => some (false, specMgmtReset m)
  | .clk, 0x02 => some (false, specDevReset s m)
  | .seq, 0x01 => some (s.gatedArm, specArm s)
  | .seq, 0x02 => some (false, specStop s)
  | .seq, 0x03 => some (false, specAbort s)
  | .ft, 0x10 => some (fire, specSvcEnter s i arg)
  | .ft, 0x11 => some (fire, specPortSvcLeave s i)
  | .ft, 0x12 => some (fire, specReady s i)
  | .ft, 0x13 => some (fire, specPortOff s i)
  | .ft, 0x14 => some (fire, specSvcPower s i arg)
  | .ft, 0x20 => some (fire, specGrpApply s i)
  | .scr, 0x01 => some (s.gatedScreen i, specScrClrCnt i arg)
  | .scr, 0x02 => some (s.gatedScreen i, specNatImm i arg)
  | .thm, 0x01 => some (false, specSensClr arg)
  | .thm, 0x02 => some (false, specThmClrCnt)
  | .upd, 0x01 => some (false, specBegin s m arg)
  | .upd, 0x02 => some (false, specChunk s m arg)
  | .upd, 0x03 => some (false, specFinish s m)
  | .upd, 0x04 => some (false, specUpdAbort s m)
  | .upd, 0x05 => some (false, specRelease s m)
  | .upd, 0x06 => some (false, specActivate s arg)
  | .upd, 0x07 => some (false, specConfirm s arg)
  | .upd, 0x08 => some (false, specRevert s arg)
  | _, _ => none

/-- R428: a command on the UPD page counts for the claim before it is checked; the conditions of a channel's or an
axis's page are latched before a command may end them (R69). -/
def State.beforeCommand (s : State) (m : Master) (p : Page) (i : Nat) : State :=
  match p with
  | .upd => s.updTouch m
  | .fbk => s.onChan i id
  | .ax0 => s.onAxis i id
  | _ => s

/-- R59, R61: a master writes a word to CMD of a page. -/
def State.writeCmd (s : State) (m : Master) (p : Page) (i : Nat) (v : Word) : State :=
  let code := v.toNat % 256
  let arg := v.toNat / 256
  let s := s.beforeCommand m p i
  let c := s.commandOf m p i code arg
  s.command m p i code arg (match c with | some (g, _) => g | none => false) (c.map (·.2))

/-- The cause bits that a page defines. -/
def causeMask (p : Page) : Word :=
  (fieldsAt p 0x14).foldl (fun w f => if f.ty = .rw1c then w ||| f.mask else w) 0

/-- R69: CAUSE of a page is written: the bits written 1 that hold no present condition are cleared; a condition that is
present stays set, also after it has gone. -/
def State.causeClear (s : State) (p : Page) (i : Nat) (v : Word) : State :=
  s.setWord (regAddr p i 0x14) ((s.word (regAddr p i 0x14) &&& ~~~v) ||| s.live p i)

/-- What a forced cause sends: the class and instance of its source, its kind, its severity, and its detail where it does
not depend on what was detected. -/
structure Forced where
  cls : Nat
  inst : Nat
  kind : Nat
  sev : Nat
  detail : Option Nat
  deriving DecidableEq, Repr

/-- R71, R72, R365: the fault message of each cause that is also a Kingpost fault, where the reaction below does not send it. -/
def State.forcedMessages (s : State) (p : Page) (i : Nat) : List (Fld × Forced) :=
  match p with
  | .en => [(Reg.EN_CAUSE_CRITICAL, ⟨1, i, kindHeadCrit, 2, none⟩),
            (Reg.EN_CAUSE_DOWNCLASS, ⟨1, i, kindEnergy, 1, some 0⟩), (Reg.EN_CAUSE_ECC_UE, ⟨1, i, kindTableUe, 2, none⟩)]
  | .lk => [(Reg.LK_CAUSE_RT_LOSS, ⟨1, i, kindRtLoss, 2, some 0⟩),
            (Reg.LK_CAUSE_HEAD_FAULT, ⟨1, i, kindHeadFlag, flagSev (s.drawn % 16), some (s.drawn % 16)⟩)]
  | .scr => [(Reg.SCR_CAUSE_NAT_UE, ⟨1, 12 * i + s.drawn % 12, kindNatUe, 2, none⟩),
             (Reg.SCR_CAUSE_ECC_UE, ⟨0, 24 + i, kindDataUe, 1, none⟩)]
  | .bnd0 => [(Reg.BND0_CAUSE_ECC_UE, ⟨0, 13, kindDataUe, 1, none⟩)]
  | .mem => [(Reg.MEM_CAUSE_ECC_UE, ⟨0, 8, kindDataUe, 1, none⟩)]
  | .hal0 => [(Reg.HAL0_CAUSE_TIME_STEP, ⟨0, 9, kindTimeStep, 0, some 0⟩)]
  | .lnk0 => [(Reg.LNK0_CAUSE_LINK_FAIL, ⟨0, 12, kindBexgar, 1, none⟩)]
  | .kps0 => [(Reg.KPS0_CAUSE_SAFE_RB, ⟨0, 2, kindSafeRb, 3, none⟩)]
  | .thm => [(Reg.THM_CAUSE_LEVEL_UP, ⟨0, 3, kindThrottle, 0, none⟩), (Reg.THM_CAUSE_LEVEL_DOWN, ⟨0, 3, kindThrottle, 0, none⟩)]
  | .cal => [(Reg.CAL_CAUSE_CAL_REJECT, ⟨0, 4, kindCal, 0, none⟩), (Reg.CAL_CAUSE_CAL_SKIPPED, ⟨0, 4, kindCal, 0, none⟩)]
  | .upd => [(Reg.UPD_CAUSE_DONE, ⟨0, 5, kindUpdate, 0, some 0⟩), (Reg.UPD_CAUSE_FAIL, ⟨0, 5, kindUpdate, 0, none⟩)]
  | _ => []

/-- R72, R378: a forced cause sends its message, with its stop request; a detail that depends on what was detected is a
free value. -/
def State.sendForced (s : State) (x : Forced) : State :=
  let w := msgWord x.cls x.inst x.kind x.sev (x.detail.getD s.drawn)
  (s.drew.injectStop w).injectWord w

/-- R72: what the condition of a forced cause does beside its message (log 86): HOT_HOLD and its end, a channel's, an axis's or
a sensor's failure, a VBUS_FAULT, a reverse, a lost S, an abandoned slice, the end of a homing or PVT run, a lost line, and the
counts of the events. Where the condition is only evaluated in certain states, it acts in these. -/
def State.forcedEffect (s : State) (p : Page) (i : Nat) (hit : Fld → Bool) : State :=
  let on (s : State) (f : Fld) (ok : Bool) (g : State → State) : State := s.when (hit f && ok) g
  let count (s : State) (f c : Fld) : State := on s f true fun s => s.fadd c 1 i
  match p with
  | .dev => count s Reg.DEV_CAUSE_UNMAPPED Reg.DEV_UNMAPPED_COUNT
  | .bnd0 => count s Reg.BND0_CAUSE_ECC_CE Reg.BND_ECC_CE_ECC_CE
  | .mem => count s Reg.MEM_CAUSE_ECC_CE Reg.MEM_ECC_CE_COUNT
  | .ft =>
    let s := on s Reg.FT_CAUSE_REVERSE ((s.port i).inFlow && !s.fixedPace (i / 12) && !(s.flow i).revHold) fun s =>
      s.startReverse i (s.obs (i / 12)).count
    let s := on s Reg.FT_CAUSE_RATE (s.port i).inFlow fun s => s.dropLine i .rate
    let s := on s Reg.FT_CAUSE_PASSED (s.port i).inFlow fun s => s.dropLine i .passed
    let s := on s Reg.FT_CAUSE_LOST (s.port i).inFlow fun s => (s.fadd Reg.PL_LOST_CNT_COUNT 1 i).markDefect i
    let s := on s Reg.FT_CAUSE_CLIP true fun s => (s.fadd Reg.FT_CLIPS_COUNT 1 i).markDefect i
    let s := count s Reg.FT_CAUSE_LATE Reg.PL_LATE_CNT_COUNT
    on s Reg.FT_CAUSE_POS_LOST true fun s => s.loseS i
  | .lk =>
    let s := on s Reg.LK_CAUSE_NACK true fun s => (s.fadd Reg.LK_NACK_COUNT 1 i).markDefect i
    let s := on s Reg.LK_CAUSE_ACK_MISS true fun s => s.ackMissing i
    let s := on s Reg.LK_CAUSE_LINK_LATE (s.port i).inFlow fun s => s.dropLine i .link
    count s Reg.LK_CAUSE_RT_ERR Reg.LK_RT_ERR_COUNT
  | .en =>
    let s := on s Reg.EN_CAUSE_HOT ((s.port i).st == .printing) fun s => s.drew.enterHotHold i (s.drawn % 4)
    let s := on s Reg.EN_CAUSE_HOLD ((s.port i).st == .printing) fun s => s.drew.enterHotHold i (s.drawn % 4)
    let s := on s Reg.EN_CAUSE_RESUMED ((s.port i).st == .hotHold) fun s =>
      (s.modPort i fun x => { x with st := .printing }).noteLow i
    let s := count s Reg.EN_CAUSE_ECC_CE Reg.EN_ECC_CE_COUNT
    on s Reg.EN_CAUSE_DOWNCLASS true fun s => (s.fadd Reg.EN_DOWN_LINES_COUNT 1 i).markDefect i
  | .hl =>
    let s := count s Reg.HL_CAUSE_PASS_DONE Reg.HL_PASSES_COUNT
    let s := count s Reg.HL_CAUSE_NAT_UPD Reg.HL_NAT_UPD_COUNT
    let s := count s Reg.HL_CAUSE_RES_OVF Reg.HL_RES_LOST_COUNT
    on s Reg.HL_CAUSE_ABANDON (s.port i).health.sliceClose.isSome fun s => s.modPort i fun x => x.dropScan s.now
  | .fbk =>
    let s := on s Reg.FBK_CAUSE_DOUBLE true fun s =>
      (s.fadd Reg.FBK_ERR_DOUBLE_COUNT 1 i).modChan i fun x => { x with coast := true }
    let s := on s Reg.FBK_CAUSE_INDEX_GATE true fun s => s.indexGate i
    let s := on s Reg.FBK_CAUSE_INDEX_MISMATCH true fun s => s.indexMismatch i
    let s := on s Reg.FBK_CAUSE_LOSS true fun s => s.chanLoss i
    on s Reg.FBK_CAUSE_DOUBLE_EXCESS true fun s => s.chanLoss i
  | .ax0 =>
    let brake (s : State) : State := s.modAxis i fun x => x.beginStop .dec
    let s := on s Reg.AX0_CAUSE_FERR (s.axis i).enabled fun s => s.ferrTrip i
    let s := on s Reg.AX0_CAUSE_STALL (s.axis i).enabled fun s => s.stallTrip i
    let s := on s Reg.AX0_CAUSE_LIMIT ((s.axis i).st == .moving || (s.axis i).st == .stopping) fun s => s.limitTrip i
    let s := on s Reg.AX0_CAUSE_PVT_REJ (s.axis i).pvt.isSome brake
    let s := on s Reg.AX0_CAUSE_PVT_VEND (s.axis i).pvt.isSome brake
    let s := on s Reg.AX0_CAUSE_HOME_CHATTER ((s.axis i).st == .homing) fun s => s.homeFail i
    on s Reg.AX0_CAUSE_HOME_FAIL ((s.axis i).st == .homing) fun s => s.homeFail i
  | .mgp =>
    let s := on s Reg.MGP_CAUSE_VBUS_UV true fun s => s.vbusTrip i false
    on s Reg.MGP_CAUSE_VBUS_OV true fun s => s.vbusTrip i true
  | .jst0 => count s Reg.JST0_CAUSE_EV_LOST Reg.JST_EVLOST_COUNT
  | .eth =>
    count (count (count s Reg.ETH_CAUSE_FCS_ERR Reg.ETH_FCS_ERR_COUNT) Reg.ETH_CAUSE_RX_DROP Reg.ETH_RX_DROP_COUNT)
      Reg.ETH_CAUSE_PAUSE_RX Reg.ETH_PAUSE_RX_COUNT
  | .lnk0 => count (count s Reg.LNK0_CAUSE_PCRC_ERR Reg.LNK_PCRC_ERR_COUNT) Reg.LNK0_CAUSE_WRONG_DST Reg.LNK_DISCARD_COUNT
  | .hal0 => count s Reg.HAL0_CAUSE_TIME_STEP Reg.HAL_STEP_CNT_COUNT
  | .pen => count (count s Reg.PEN_CAUSE_AER_COR Reg.PEN_AER_COR_COUNT) Reg.PEN_CAUSE_AER_UNC Reg.PEN_AER_UNC_COUNT
  | .kps0 => count s Reg.KPS0_CAUSE_ESCALATED Reg.KPS_ESC_CNT_COUNT
  | .thm => on s Reg.THM_CAUSE_SENSOR_FAIL true fun s => s.drew.failSensor (s.drawn % 64)
  | .cal =>
    count (count (count s Reg.CAL_CAUSE_CAL_DONE Reg.CAL_RUNS_COUNT) Reg.CAL_CAUSE_CAL_REJECT Reg.CAL_REJECTS_COUNT)
      Reg.CAL_CAUSE_CAL_SKIPPED Reg.CAL_SKIPS_COUNT
  | _ => s

/-- R72: in factory test mode, forced bits set their causes, and act for one cycle as their conditions. -/
def State.causeForce (s : State) (p : Page) (i : Nat) (v : Word) : State :=
  if !s.ftmActive then s
  else
    let a := regAddr p i 0x14
    let bits := v &&& causeMask p
    let hit (f : Fld) : Bool := f.get bits == 1
    let s1 := s.setWord a (s.word a ||| bits)
    ((s.forcedMessages p i).foldl (fun s e => if hit e.1 then s.sendForced e.2 else s) s1).forcedEffect p i hit

/-- R73, R74: a write to SHADOW_CTL of port p. -/
def State.writeShadowCtl (s : State) (p : Nat) (v : Word) : State :=
  let s := s.modPort p fun x =>
    { x with rdActive := v.getLsbD 2, hold := v.getLsbD 1, nowRej := x.nowRej && !v.getLsbD 10 }
  s.when (v.getLsbD 0) fun s => s.shadowNow p

/-- A write to a register of the common header. -/
def State.writeHeader (s : State) (m : Master) (p : Page) (i off : Nat) (v : Word) : State :=
  match off with
  | 0x0C => s.writeCmd m p i v
  | 0x14 => s.causeClear p i v
  | 0x18 => s.setWord (regAddr p i 0x18) (v &&& causeMask p)
  | 0x20 => s.causeForce p i v
  | 0x24 => s.setLock p i (v == 0x5AFE)
  | 0x28 => if p = .ft then s.writeShadowCtl i v else s
  | _ => s

/-- R58: the lower registers of the fields that span two registers, by page offset. -/
def wideLow (p : Page) (off : Nat) : Bool :=
  match p with
  | .dev => off == 0x50
  | .pen => off == 0x40 || off == 0x54
  | .mem => off == 0x54
  | .hal0 => [0x44, 0x4C, 0x80, 0x88, 0x9C, 0xAC, 0xB8, 0xC0].contains off
  | .hal1 => off == 0x50
  | .eth => off == 0x44
  | .lnk0 => off == 0x48
  | .lnk1 => off == 0x44C
  | .jst1 => decide (0x40 ≤ off ∧ off < 0x440) && off % 0x40 == 4
  | .ft => [0x200, 0x254, 0x25C, 0x2C4, 0x2CC, 0x2DC].contains off
  | .fbk => [0x44, 0x4C, 0x54, 0x64, 0x7C, 0x408].contains off
  | _ => false

/-- R58: the upper registers. -/
def wideHigh (p : Page) (off : Nat) : Bool := decide (4 ≤ off) && wideLow p (off - 4)

/-- R175, R230: the register is one of a group's, which stand on member 0's page alone. -/
def groupReg (off : Nat) : Bool := decide (0x100 ≤ off ∧ off < 0x118) || decide (0x2C0 ≤ off ∧ off < 0x2E4)

/-- R47, R37: ports whose enable bit has been set may join a running device. -/
def State.joinAll (s : State) : State := s.forEach s.portList fun s p => s.tryJoin p

/-- The field's register stands at a page offset. -/
def Fld.here (f : Fld) (off : Nat) : Bool := f.at? off

/-- R475, R286, R251, R312: what keeps a write of a register from taking effect as a whole, with the cause that it sets. -/
def State.writeBlocked (s : State) (p : Page) (i off : Nat) : Option (Fld × Nat) :=
  match p with
  | .hl =>
    if (Reg.HL_RANGE_FIRST.here off || Reg.HL_SCAN_PITCH.here off || Reg.HL_TEMPL_EVEN.here off) &&
        (s.port i).health.st != .stopped
    then some (Reg.HL_CAUSE_CFG_WR, i) else none
  | .mgp =>
    if Reg.MGP_PWM_FREQ.here off && s.groupEnabled i then some (Reg.MGP_CAUSE_CFG_WR, i)
    else if Reg.SET_MEM_AXIS.here off && (s.mset i ((off - 0x400) / 0x40)).active then some (Reg.MGP_CAUSE_CMD_REJECT, i)
    else none
  | .jst1 =>
    if (Reg.CH_CFG_EVIDX.here off || Reg.CH_BASE_LO_BASE.here off || Reg.CH_BASE_HI_BASE.here off ||
        Reg.CH_SIZE_SIZE.here off) &&
        ((s.jchan i ((off - 0x40) / 0x40)).st == .pending || (s.jchan i ((off - 0x40) / 0x40)).st == .running)
    then some (Reg.JST0_CAUSE_CFG_WR, i) else none
  | _ => none

/-- R475: config fields of a register take writes now; and the cause that shows a write they did not take. -/
def State.configState (s : State) (p : Page) (i off : Nat) : Bool × Option (Fld × Nat) :=
  match p with
  | .ft => (s.portCfg i, some (Reg.FT_CAUSE_CFG_WR, i))
  | .lk => (s.portCfg i, some (Reg.LK_CAUSE_CFG_WR, i))
  | .fbk => ((s.chan i).st == .off || (s.chan i).st == .service, some (Reg.FBK_CAUSE_CFG_WR, i))
  | .ax0 | .ax1 => ((s.axis i).st == .off || (s.axis i).st == .service, some (Reg.AX0_CAUSE_CFG_WR, i))
  | .lnk1 =>
    (if off < 0x240 then !s.fbit Reg.TX_CFG_EN 0 ((off - 0x40) / 0x20) else !s.fbit Reg.RX_CFG_EN 0 ((off - 0x240) / 0x20),
     some (Reg.LNK0_CAUSE_CFG_WR, 0))
  | _ => (true, none)

/-- A word is stored in a register that has no effect of its own beyond its fields. -/
def State.storeReg (s : State) (p : Page) (i off : Nat) (v : Word) : State :=
  match s.writeBlocked p i off with
  | some (f, j) => s.raise f j
  | none =>
    let c := s.configState p i off
    s.writeReg p i off (s.profileWord p off v) c.1 c.2

/-- R58, R66, R475, R312: a write of a register would take effect now: nothing blocks it, its page is unlocked where it
holds a locked field, and its owner is in a config state where it holds a config field. -/
def State.takesWrite (s : State) (p : Page) (i off : Nat) : Bool :=
  (s.writeBlocked p i off).isNone &&
  (s.unlocked p i || !(fieldsAt p off).any fun f => f.ty == .rwl) &&
  ((s.configState p i off).1 || !(fieldsAt p off).any (·.config))

/-- R58: a word goes to a register: the lower half of a wide field is held, and its upper half takes a held lower half
with it. A lower half that a lock or a state shuts out is ignored at once, with the cause of such a write (DEDUCED,
log 144), and a held one is tested again when the upper half applies it. -/
def State.storeWide (s : State) (m : Master) (p : Page) (i off : Nat) (v : Word) : State :=
  if wideLow p off then (if s.takesWrite p i off then s.hold m (regAddr p i off) v else s.storeReg p i off v)
  else if wideHigh p off then
    let lo := regAddr p i (off - 4)
    match s.heldAt m lo with
    | some w => ((s.storeReg p i (off - 4) w).storeReg p i off v).unhold m lo
    | none => s.storeReg p i off v
  else s.storeReg p i off v

/-- A write to a block-specific register of a page that is present. -/
def State.writeBlock (s : State) (m : Master) (p : Page) (i off : Nat) (v : Word) : State :=
  let a := regAddr p i off
  if isShadowed p off then
    if wideLow p off then s.hold m a v
    else if s.ul24 && Reg.PL_ROWOFS_O.here off && p == .ft then s
    else s.putShadowReg m a v
  else match p with
  | .ft =>
    if groupReg off && i % 12 != 0 then s
    else if off = 0x4C then s.planWrite i .slot v
    else if off = 0x50 then s.planWrite i .seq v
    else (s.latchPort i).storeWide m p i off v
  | .lk => (s.latchPort i).storeWide m p i off v
  | .en =>
    if off = 0x74 then (s.latchPort i).budgetWrite i .win v
    else if off = 0x78 then (s.latchPort i).budgetWrite i .budget v
    else ((s.latchPort i).storeWide m p i off v).when (Reg.EN_OVD_REL_REL.here off) fun s => s.exhaust i
  | .ax1 => if Reg.AX_PVT_AMAX_AMAX.here off && i % 12 != 0 then s else s.storeWide m p i off v
  | .lnk1 =>
    if Reg.TX_WPTR_OFFSET.here off then s.txWptr ((off - 0x40) / 0x20) (Ptr.ofWord v)
    else if Reg.RX_RPTR_OFFSET.here off then s.rxRptr ((off - 0x240) / 0x20) (Ptr.ofWord v)
    else s.storeWide m p i off v
  | .bnd1 =>
    let q := (off - 0x40) / 0x20
    if Reg.BND_WPTR_OFFSET.here off then s.advanceW q (Ptr.ofWord v)
    else (((s.noteLow q).storeWide m p i off v).pace q).noteLow q
  | .hal0 =>
    let s := (s.latch .hal0 0).storeWide m p i off v
    if off = 0x48 then s.retime else if off = 0x5C then s.holdAdj.retime else s
  | .seq => (s.storeWide m p i off v).joinAll
  | .upd => if off = 0x40 then s.updClaim m v else if 0x800 ≤ off then s.setWord a v else s.storeWide m p i off v
  | .kps3 => if off = 0x44 then s.injMsg v else if off = 0x48 then s.injHw v else s.storeWide m p i off v
  | .cal =>
    if off < 0x100 then s.storeWide m p i off v
    else s.calResultWrite (32 * ((off - 0x100) / 0x1C0) + (off - 0x100) % 0x1C0 / 16) (off % 16 / 4) v
  | _ => (s.latch p i).storeWide m p i off v

/-- A master writes a 32-bit word to a page offset. -/
def State.writePage (s : State) (m : Master) (p : Page) (i off : Nat) (v : Word) : State :=
  if !s.present p i then s
  else if off < 0x40 then (s.writeHeader m p i off v).serveStops
  else if s.absentPart p off then s
  else (s.writeBlock m p i off v).serveStops

/-- A master writes a 32-bit word to a naturally aligned BAR0 address. -/
def State.poke (s : State) (m : Master) (a : Nat) (v : Word) : State :=
  match s.place a with
  | .reg p i off => s.writePage m p i off v
  | .nat p j => s.onPort p fun s => s.natWrite m p j v
  | .mask g b => s.maskWrite g (b / 0x10000) (b % 0x10000 / 4) v
  | .width p k => s.onPort p fun s => s.widthWrite p k v
  | .pvt g k => s.pvtWrite g k v
  | .sine g k => s.sineWrite g k v
  | .unmapped => s.unmapped m 0 (s.native a) true

/-- R58, R337, R392: the registers that a read of a page offset captures for the reading master. -/
def capturedBy (p : Page) (off : Nat) : List Nat :=
  if p = .hal0 ∧ off = 0xA4 then [0xA8, 0xAC, 0xB0]
  else if p = .kps1 ∧ 0x100 ≤ off ∧ off < 0x300 ∧ off % 16 = 0 then [off + 4, off + 8, off + 12]
  else if wideLow p off then [off + 4] else []

/-- A master reads a register of a page: its word, and what the read captures. A capture serves one read. -/
def State.readPage (s : State) (m : Master) (p : Page) (i off : Nat) : Word × State :=
  if !s.present p i then (0, s)
  else match s.captured m (regAddr p i off) with
    | some v => (v, s.uncapture m (regAddr p i off))
    | none =>
      (s.pageWord m p i off,
        ((capturedBy p off).foldl (fun t o => t.capture m (regAddr p i o) (s.pageWord m p i o)) s).when
          (decide (0x40 ≤ off)) State.drew)

/-- R35: a read of a table word through BAR0: a correctable error is corrected and counted; what an uncorrectable word reads
as is not stated (log 147). -/
def State.readTable (s : State) (k : Store) (w : Nat) (v : Word) : Word × State :=
  if s.isUe k w then (BitVec.ofNat 32 s.drawn, s.drew) else (v, s.correct k [w])

/-- A master reads the 32-bit word at a BAR0 address. -/
def State.peek (s : State) (m : Master) (a : Nat) : Word × State :=
  match s.place a with
  | .reg p i off =>
    let r := s.readPage m p i off
    if windowBase ≤ a ∧ p = .dev ∧ off = 0x40 ∧ s.present p i then (0x24, r.2) else r
  | .nat p j =>
    let w := (12288 * p + j) / 2
    if !s.hasPort p then (0, s)
    else if (s.port p).rdActive then s.readTable .nat w (s.natA p j) else s.readTable .natShadow w (s.natS p j)
  | .mask g b =>
    let a := 0x80000 * g + b / 4 * 4
    if s.present .scr g then s.readTable .mask (a / 8) (BitVec.ofNat 32 (leNat (memBytes 0 s.masks a 4))) else (0, s)
  | .width p k =>
    let w := (128 * p + k) / 2
    if !(s.hasPort p && decide (k < 97)) then (0, s)
    else if (s.port p).rdActive then s.readTable .width w (s.widthA p k) else s.readTable .widthShadow w (s.widthS p k)
  | .pvt g k =>
    if s.present .mgp g then s.readTable .pvt ((1024 * g + k) / 2) (s.pvtWord g k) else (0, s)
  | .sine g k => (if s.present .mgp g then Sparse.get sineDefault s.sine (512 * g + k) else 0, s)
  | .unmapped => (0, s.unmapped m 0 (s.native a) false)

/-- R57, R75: the port at which an access of master m to a BAR0 address must wait: behind an earlier access of that master
to the page, or for the end of a shadow transfer of the content it reaches. -/
def State.waitsFor (s : State) (m : Master) (a : Nat) : Option Nat :=
  let for? (p : Nat) : Option Nat := if s.hasPort p && s.waits p then some p else none
  match s.place a with
  | .reg p i off =>
    (s.behind m p i).orElse fun _ =>
      if s.present p i && isShadowed p off then for? (shadowOwner p i off) else none
  | .nat p _ => for? p
  | .width p _ => for? p
  | _ => none

/-- R54, R55, R344: a piece of a write: a whole word acts; less than a word is ignored, but counted at an unmapped
address. -/
def State.putPiece (s : State) (m : Master) (a : Nat) (bs : List Byte) : State :=
  if bs.length = 4 then s.poke m a (BitVec.ofNat 32 (leNat bs))
  else if s.place a = .unmapped then s.unmapped m 0 (s.native a) true
  else s

/-- R54, R57, R344: the pieces of a write act one after another; from the first that must wait, they wait together. What each
does to PEN_ACT counts (R351); the last one's is counted where its command ends. -/
def State.putPieces (s : State) (m : Master) : List (Nat × List Byte) → State
  | [] => s
  | (a, bs) :: r =>
    match s.waitsFor m a with
    | some q => s.stall q (.write m ((a, bs) :: r))
    | none => ((s.putPiece m a bs).when (!r.isEmpty) State.settle).putPieces m r

/-- R54, R57, R344: the pieces of a read, in the same way; each brings the addressed bytes of its word. -/
def State.getPieces (s : State) (m : Master) : List (Nat × Nat) → State
  | [] => s
  | (a, n) :: r =>
    match s.waitsFor m a with
    | some q => s.stall q (.read m ((a, n) :: r))
    | none =>
      let x := s.peek m a
      (x.2.answer m (x.2.readData m ++ ((leBytes 4 x.1.toNat).drop (a % 4)).take n)).getPieces m r

/-- R54, R55, R57, R344: a master writes bytes from a BAR0 address on. -/
def State.busWrite (s : State) (m : Master) (a : Nat) (bs : List Byte) : State := s.putPieces m (writePieces a bs)

/-- A master writes a 32-bit word. -/
def State.busWord (s : State) (m : Master) (a : Nat) (v : Word) : State := s.busWrite m a (leBytes 4 v.toNat)

/-- R54, R55, R57, R344: a master reads n bytes from a BAR0 address on. -/
def State.busRead (s : State) (m : Master) (a n : Nat) : State := (s.answer m []).getPieces m (pieces a n)

/-- R75: what has waited at port p completes. -/
def State.finishAccess (s : State) (p : Nat) (w : Stalled) : State :=
  match w with
  | .write m l => s.putPieces m l
  | .read m l => s.getPieces m l
  | _ => s.finishOwn p w

/-- R57, R75: everything that waits at port p completes, in order, once BUSY is clear. -/
def State.resumeAccesses (s : State) (p : Nat) : State :=
  if s.busy p then s
  else
    let l := (s.port p).stalled
    l.foldl (fun s w => s.finishAccess p w) (s.modPort p fun x => { x with stalled := [] })

/-! ### The rows -/

/-- REGISTER_WRITE: a value of `size` bytes, the lowest first, from an address on; a memory request of the host may be
longer than a word (R344). -/
def execRegisterWrite (t : Time) (m : Master) (addr size value : Nat) (s : State) : Host.Outcome State Fault Refusal :=
  let s := s.at t
  done (s.by m fun s => s.busWrite m addr (leBytes size value))

/-- R55, R92: UNMAPPED_ACCESS, in BAR0 or handed on from BAR2. -/
def execUnmappedAccess (t : Time) (m : Master) (bar2 : Bool) (addr : Nat) (write : Bool) (s : State) :
    Host.Outcome State Fault Refusal :=
  let s := s.at t
  let there := if bar2 then decide (s.bandBytes ≤ addr) else decide (s.place addr = .unmapped)
  done (s.by m fun s =>
    if !there then s
    else
      let s := s.unmapped m (if bar2 then 1 else 0) (if bar2 then addr else s.native addr) write
      if write then s else s.answer m [0, 0, 0, 0])

/-- R78, R79: ALIAS_ACCESS from a forerunner offset on: a write of bytes, or a read. -/
def execAliasAccess (t : Time) (m : Master) (r : Span) (write : Option (List Byte)) (s : State) :
    Host.Outcome State Fault Refusal :=
  let s := s.at t
  done (s.by m fun s => match write with
    | some bs => s.busWrite m (windowBase + r.addr) bs
    | none => s.busRead m (windowBase + r.addr) r.len)

/-- R66: LOCK_WRITE. -/
def execLockWrite (t : Time) (m : Master) (page : Page) (inst : Nat) (value : Word) (s : State) :
    Host.Outcome State Fault Refusal :=
  let s := s.at t
  done (s.by m fun s => s.ordered m page inst 0x24 value fun s => s.writePage m page inst 0x24 value)

/-- R69: CAUSE_CLEAR. -/
def execCauseClear (t : Time) (m : Master) (page : Page) (inst : Nat) (value : Word) (s : State) :
    Host.Outcome State Fault Refusal :=
  let s := s.at t
  done (s.by m fun s => s.ordered m page inst 0x14 value fun s => s.writePage m page inst 0x14 value)

/-- R72: CAUSE_FORCE. -/
def execCauseForce (t : Time) (m : Master) (page : Page) (inst : Nat) (value : Word) (s : State) :
    Host.Outcome State Fault Refusal :=
  let s := s.at t
  done (s.by m fun s => s.ordered m page inst 0x20 value fun s => s.writePage m page inst 0x20 value)

/-- R58: WIDE_LOWER_WRITE. -/
def execWideLowerWrite (t : Time) (m : Master) (addr : Nat) (value : Word) (s : State) :
    Host.Outcome State Fault Refusal :=
  let s := s.at t
  done (s.by m fun s => s.busWord m addr value)

/-- R58: WIDE_UPPER_WRITE. -/
def execWideUpperWrite (t : Time) (m : Master) (addr : Nat) (value : Word) (s : State) :
    Host.Outcome State Fault Refusal :=
  let s := s.at t
  done (s.by m fun s => s.busWord m addr value)

/-- R54, R58: WIDE_LOWER_READ: a read of some bytes; of the lower register of a wide field, of both its registers, or of
any other. -/
def execWideLowerRead (t : Time) (m : Master) (r : Span) (s : State) : Host.Outcome State Fault Refusal :=
  let s := s.at t
  done (s.by m fun s => s.busRead m r.addr r.len)

/-- R337: HAL_TIME_CAPTURE: a read of HAL_TIME_SUB. -/
def execHalTimeCapture (t : Time) (m : Master) (s : State) : Host.Outcome State Fault Refusal :=
  let s := s.at t
  done (s.by m fun s => s.busRead m Reg.HAL_TIME_SUB_FRAC.addr 4)

/-- R392: HISTORY_ENTRY_CAPTURE: a read of word 0 of a history entry. -/
def execHistoryEntryCapture (t : Time) (m : Master) (slot : Nat) (s : State) : Host.Outcome State Fault Refusal :=
  let s := s.at t
  done (s.by m fun s => if slot < 32 then s.busRead m (regAddr .kps1 0 (0x100 + 16 * slot)) 4 else s)

/-- SHADOW_ACCESS_RESUME. -/
def execShadowAccessResume (t : Time) (port : Nat) (s : State) : Host.Outcome State Fault Refusal :=
  let s := s.at t
  done (s.onPort port fun s => s.resumeAccesses port)

/-- R53, R120: the address of entry j of port p's NAT window. -/
def natAddr (p j : Nat) : Nat := 0x1000000 + 0x10000 * p + 4 * j

/-- R53, R183: the address of word k of port p's width block. -/
def widthAddr (p k : Nat) : Nat := 0x2400000 + 0x200 * p + 4 * k

/-- NAT_WRITE. -/
def execNatWrite (t : Time) (m : Master) (port entry : Nat) (value : Word) (s : State) :
    Host.Outcome State Fault Refusal :=
  let s := s.at t
  done (s.by m fun s => s.busWord m (natAddr port entry) value)

/-- WIDTH_TABLE_WRITE. -/
def execWidthTableWrite (t : Time) (m : Master) (port word : Nat) (value : Word) (s : State) :
    Host.Outcome State Fault Refusal :=
  let s := s.at t
  done (s.by m fun s => s.busWord m (widthAddr port word) value)

/-- R64: NOP. -/
def execNop (t : Time) (m : Master) (page : Page) (inst : Nat) (s : State) : Host.Outcome State Fault Refusal :=
  let s := s.at t
  done ((s.beforeCommand m page inst).command m page inst 0 0 false (some nopSpec))

/-- R77: CLR_UNMAPPED. -/
def execClrUnmapped (t : Time) (m : Master) (s : State) : Host.Outcome State Fault Refusal :=
  let s := s.at t
  done (s.by m fun s => s.writePage m .dev 0 0x0C 0x01)

/-- R403: PART_WAKE: a gated part that a command has woken is awake, and the oldest command that waits on the page is
checked. -/
def execPartWake (t : Time) (page : Page) (inst : Nat) (s : State) : Host.Outcome State Fault Refusal :=
  let s := s.at t
  done (match s.waking.find? fun w => w.page == page && w.inst == inst with
    | some w =>
      if !s.present page inst then s
      else
        let s := ({ s with waking := s.waking.erase w }).setExec page inst false
        (s.judge page inst ((s.commandOf w.m page inst w.code w.arg).map (·.2))).serveStops
    | none => s)

/-! ### The serial management port -/

/-- R355: the status byte. -/
def Smp.status (x : Smp) : Byte :=
  BitVec.ofNat 8 (bitOf x.busy * 128 + bitOf x.rdValid * 64 + bitOf x.crcErr * 32 + bitOf x.overrun * 16 + x.seqNo % 16)

/-- Change the port's state. -/
def State.modSmp (s : State) (f : Smp → Smp) : State := { s with smp := f s.smp }

/-- R354: the transactions. -/
inductive SmpOp where
  | write | read | poll
  deriving DecidableEq, Repr

/-- R354: the opcode of byte 0. -/
def smpOp (sdi : List Byte) : Option SmpOp :=
  match sdi with
  | 0x02 :: _ => some .write
  | 0x0B :: _ => some .read
  | 0x05 :: _ => some .poll
  | _ => none

/-- R354: the bytes of a transaction. -/
def SmpOp.length : SmpOp → Nat
  | .write => 13
  | .read => 9
  | .poll => 10

/-- R353: a number from bytes, most significant first. -/
def beNat (bs : List Byte) : Nat := leNat bs.reverse

/-- The four bytes of a word, most significant first. -/
def beBytes (w : Word) : List Byte := (leBytes 4 w.toNat).reverse

/-- R354: the CRC of a WRITE or READ is that of the bytes before it; a POLL has none. -/
def SmpOp.crcOk (o : SmpOp) (sdi : List Byte) : Bool :=
  let n := o.length
  o == .poll || beBytes (crc32c (sdi.take (n - 4))) == (sdi.take n).drop (n - 4)

/-- R354: the SDI bytes of a WRITE. -/
def smpWriteBytes (addr : Nat) (v : Word) : List Byte :=
  let b : List Byte := 0x02 :: beBytes (BitVec.ofNat 32 addr) ++ beBytes v
  b ++ beBytes (crc32c b)

/-- R354: the SDI bytes of a POLL; those behind the opcode mean nothing. -/
def smpPollBytes : List Byte := 0x05 :: List.replicate 9 0

/-- R354: the SDI bytes of a READ. -/
def smpReadBytes (addr : Nat) : List Byte :=
  let b : List Byte := 0x0B :: beBytes (BitVec.ofNat 32 addr)
  b ++ beBytes (crc32c b)

/-- R354, R355: what SMP_SDO carries in a transaction of n bytes: the status byte, and after it 0s, or what a POLL
answers. -/
def Smp.sdoOf (x : Smp) (o : Option SmpOp) (n : Nat) : List Byte :=
  let body := x.status :: beBytes x.rbuf
  let full := x.status :: (if o = some .poll then body ++ beBytes (crc32c body) else [])
  (List.range n).map fun i => full.getD i 0

/-- R356: a WRITE or READ is not carried out for its CRC; PEN shows it where its island is out of reset. -/
def State.smpNote (s : State) (f : Fld) : State := s.when (s.islandOn 0) fun s => s.raise f

/-- R57: an access of the serial port waits. -/
def State.smpWaits (s : State) : Bool :=
  s.ports.any fun e => e.2.stalled.any fun w =>
    match w with
    | .write n _ => n == .smp
    | .read n _ => n == .smp
    | _ => false

/-- R354, R355: an accepted WRITE or READ. -/
def State.smpAccept (s : State) (o : SmpOp) (sdi : List Byte) : State :=
  let addr := beNat ((sdi.drop 1).take 4)
  let s := s.modSmp fun x => { x with
    busy := true, crcErr := false, overrun := false, seqNo := (x.seqNo + 1) % 16, reading := o == .read
    rdValid := x.rdValid && o != .read }
  match o with
  | .write => s.busWord .smp addr (BitVec.ofNat 32 (beNat ((sdi.drop 5).take 4)))
  | .read => s.busRead .smp addr 4
  | .poll => s

/-- R355, R356: a WRITE or READ has arrived while BUSY. -/
def State.smpOverrun (s : State) : State := (s.modSmp fun x => { x with overrun := true }).smpNote Reg.PEN_SMP_CAUSE_OVERRUN

/-- R353 to R356: a transaction of the serial management port, at the rise of SMP_CS_N, from the whole bytes on SMP_SDI:
each case of R356 that holds sets its bit, and a transaction in none of them is carried out. -/
def State.smpTransact (s : State) (sdi : List Byte) : State :=
  if s.porst || !s.islandOn 29 then s
  else
    let o := smpOp sdi
    let s := s.modSmp fun x => { x with sdo := x.sdoOf o sdi.length }
    match o with
    | none => s.smpNote Reg.PEN_SMP_CAUSE_FRAME_ERR
    | some o =>
      if sdi.length < o.length then
        let s := s.smpNote Reg.PEN_SMP_CAUSE_FRAME_ERR
        s.when (o != .poll && s.smp.busy) State.smpOverrun
      else if o = .poll then s
      else if o.crcOk sdi && !s.smp.busy then s.smpAccept o sdi
      else
        let late := s.smp.busy
        let s := s.when (!o.crcOk sdi) fun s =>
          (s.modSmp fun x => { x with crcErr := true }).smpNote Reg.PEN_SMP_CAUSE_CRC_ERR
        s.when late State.smpOverrun

/-- SMP_WRITE: the bytes of the transaction: its opcode and ADDR, and those behind them. -/
def execSmpWrite (t : Time) (head rest : List Byte) (s : State) : Host.Outcome State Fault Refusal :=
  let s := s.at t
  done (s.pins fun s => s.smpTransact (head ++ rest))

/-- SMP_READ: the access is made at the rise of SMP_CS_N, and its data arrives when it is done. -/
def execSmpRead (t : Time) (sdi : List Byte) (s : State) : Host.Outcome State Fault Refusal :=
  let s := s.at t
  done (s.pins fun s => s.smpTransact sdi)

/-- SMP_POLL. -/
def execSmpPoll (t : Time) (s : State) : Host.Outcome State Fault Refusal :=
  let s := s.at t
  done (s.pins fun s => s.smpTransact smpPollBytes)

/-- R355: SMP_ACCESS_DONE: an access that does not wait (R75) is done. -/
def execSmpAccessDone (t : Time) (s : State) : Host.Outcome State Fault Refusal :=
  let s := s.at t
  done (if s.smp.busy && !s.smpWaits then
      let w := s.readBy .smp
      s.modSmp fun x =>
        if x.reading then { x with busy := false, reading := false, rbuf := w, rdValid := true }
        else { x with busy := false }
    else s)

/-- SMP_REJECT: the bytes of a transaction that R356 does not carry out. -/
def execSmpReject (t : Time) (sdi : List Byte) (s : State) : Host.Outcome State Fault Refusal :=
  let s := s.at t
  done (s.pins fun s => s.smpTransact sdi)

end Sys2Proof.Machine
end

