-- ==== Sys2Proof/Machine/Boot.lean ====
section
/-! DEFINITION. The end of a boot (R437, R438, R442, R448, R451, R453): the records and the recipe that management
firmware applies, and DEV_OP. -/

namespace Sys2Proof.Machine

/-- R435: the entries of a REGS payload, applied in order as register writes of the management cluster. -/
def State.applyRegs (s : State) (bs : List Byte) : State :=
  (paramPairs (wordsOf bs)).foldl (fun s e => s.busWord .mgmt e.1 e.2) s

/-- R437: the format of the set that stands beside the running firmware's own, while its class awaits CONFIRM. -/
def State.retainedFormat (s : State) (own : Nat) : Nat :=
  if s.upd.dir.mgmt.pend.isNone then 0
  else match s.newestSet fun r => r.sfmt != own with
    | some (_, r) => r.sfmt
    | none => 0

/-- R438: firmware that cannot use any set that stands: LIMITED. -/
def State.enterLimited (s : State) : State := { s.raise Reg.UPD_CAUSE_CONVERT_FAIL with devOp := DevOp.limited }

/-- R438: every REGS entry names a BAR0 offset that is mapped (log 133). -/
def State.mappable (s : State) (bs : List Byte) : Bool :=
  (paramPairs (wordsOf bs)).all fun e => s.place e.1 != .unmapped

/-- R437, R438: a set is applied, and DEV_OP becomes RUN; `kept` is the old format that is retained beside it. -/
def State.applySet (s : State) (kept : Nat) (r : RecordSet) : State :=
  if s.mappable r.regs then { (s.fput Reg.UPD_SFMT_RETAINED kept).applyRegs r.regs with devOp := DevOp.run }
  else s.enterLimited

/-- R437: the sequence number of a new set. -/
def State.nextSseq (s : State) : Nat := match s.newestSet fun _ => true with | some (_, x) => x.sseq + 1 | none => 0

/-- R437, R438: the newest set of an older format, in area a, is converted, written to the other area and applied. A set
that cannot be mapped is not written. -/
def State.convertSet (s : State) (own a : Nat) (old : RecordSet) : State :=
  match Config.convertRecords own (s.flashBytes (areaBase a) areaSize) with
  | none => s.enterLimited
  | some bs =>
    match (setOf bs).filter fun r => r.sfmt == own && s.mappable r.regs with
    | none => s.enterLimited
    | some r =>
      match s.putSet (1 - a) s.nextSseq bs r with
      | none => s.enterLimited
      | some s => s.applySet old.sfmt r

/-- R437, R438: the settings of this boot. Old firmware that boots after REVERT or the counter first erases what newer
firmware has written. -/
def State.applyRecords (s : State) : State :=
  let own := s.fget Reg.UPD_SFMT_RUN
  let e := s.upd.dir.mgmt
  let s := s.when (e.reverted && e.pend.isNone) fun s => s.eraseOther own
  match s.newestSet fun r => r.sfmt == own with
  | some (_, r) => s.applySet (s.retainedFormat own) r
  | none =>
    match s.newestSet fun r => decide (r.sfmt < own) with
    | some (a, r) => s.convertSet own a r
    | none => if (s.newestSet fun _ => true).isSome then s.enterLimited else { s with devOp := DevOp.run }

/-- R442: the ACTIVE bank's sections go into every present port; each MASK section goes into its slot. -/
def State.loadActive (s : State) : State :=
  match s.upd.dir.active with
  | none => s
  | some b =>
    let base := (flashRegion 3 b).1 + 64
    let secs := sectionsOf fun o n => s.flashBytes (base + o) n
    secs.foldl (fun s x =>
      let data := s.flashBytes (base + x.offset) x.length
      match x.type with
      | 1 => if x.index < s.portCount then s.loadWidth x.index (wordsOf data) else s
      | 2 => if x.index < s.portCount then s.loadNat x.index (wordsOf data) else s
      | 3 =>
        if s.ul24 ∨ 64 ≤ x.index then s
        else
          let a := 0x80000 * (x.index / 8) + 0x10000 * (x.index % 8)
          { s with masks := memPut 0 s.masks a (data.take 65536) }
      | 4 => if x.index < s.portCount then s.putParams x.index (wordsOf data) else s
      | _ => s) s

/-- R448, R453: the management firmware has finished its boot. -/
def State.bootDone (s : State) : State :=
  if s.devOp ≠ .boot ∨ s.kps.st = .selftest ∨ s.upd.runMgmt = 0 then s
  else
    let s := if s.appliesRecords then s.applyRecords.loadActive else { s with devOp := s.devOpBack }
    (s.fput Reg.CLK_BOOT_T_BOOT (min 65535 ((s.now - s.bootFrom) / ms))).raise Reg.CLK_CAUSE_BOOT_DONE

/-- BOOT_DONE. -/
def execBootDone (t : Time) (s : State) : Host.Outcome State Fault Refusal :=
  let s := s.at t
  done (s.onIsland isleMgmt State.bootDone)

end Sys2Proof.Machine
end

