-- ==== Sys2Proof/Machine/Dispatch.lean ====
section
/-! DEFINITION. One arm per command: its meaning. -/

namespace Sys2Proof.Machine

/-- The effect of a command on everything but the queue. -/
def exec (i : Instr) (s : State) : Host.Outcome State Fault Refusal :=
  match i with
  | .porstNAssert t => Sys2Proof.Machine.execPorstNAssert t s
  | .porstNRelease t profileHigh ftmHigh => Sys2Proof.Machine.execPorstNRelease t profileHigh ftmHigh s
  | .registerWrite t m addr size value => Sys2Proof.Machine.execRegisterWrite t m addr size value s
  | .unmappedAccess t m bar2 addr write => Sys2Proof.Machine.execUnmappedAccess t m bar2 addr write s
  | .aliasAccess t m r write => Sys2Proof.Machine.execAliasAccess t m r write s
  | .lockWrite t m page inst value => Sys2Proof.Machine.execLockWrite t m page inst value s
  | .causeClear t m page inst value => Sys2Proof.Machine.execCauseClear t m page inst value s
  | .causeForce t m page inst value => Sys2Proof.Machine.execCauseForce t m page inst value s
  | .wideLowerWrite t m addr value => Sys2Proof.Machine.execWideLowerWrite t m addr value s
  | .wideUpperWrite t m addr value => Sys2Proof.Machine.execWideUpperWrite t m addr value s
  | .wideLowerRead t m r => Sys2Proof.Machine.execWideLowerRead t m r s
  | .halTimeCapture t m => Sys2Proof.Machine.execHalTimeCapture t m s
  | .historyEntryCapture t m slot => Sys2Proof.Machine.execHistoryEntryCapture t m slot s
  | .nop t m page inst => Sys2Proof.Machine.execNop t m page inst s
  | .clrUnmapped t m => Sys2Proof.Machine.execClrUnmapped t m s
  | .shadowNow t m port => Sys2Proof.Machine.execShadowNow t m port s
  | .nowTransferDone t port => Sys2Proof.Machine.execNowTransferDone t port s
  | .shadowAccessResume t port => Sys2Proof.Machine.execShadowAccessResume t port s
  | .natWrite t m port entry value => Sys2Proof.Machine.execNatWrite t m port entry value s
  | .widthTableWrite t m port word value => Sys2Proof.Machine.execWidthTableWrite t m port word value s
  | .maskSlotWrite t m g slot word value => Sys2Proof.Machine.execMaskSlotWrite t m g slot word value s
  | .sineTableWrite t m g word value => Sys2Proof.Machine.execSineTableWrite t m g word value s
  | .pvtSegmentWrite t m g word value => Sys2Proof.Machine.execPvtSegmentWrite t m g word value s
  | .planWrite t m port reg value => Sys2Proof.Machine.execPlanWrite t m port reg value s
  | .budgetCfgWrite t m port reg value => Sys2Proof.Machine.execBudgetCfgWrite t m port reg value s
  | .calResultWrite t m ch reg value => Sys2Proof.Machine.execCalResultWrite t m ch reg value s
  | .bar2Write t off data => Sys2Proof.Machine.execBar2Write t off data s
  | .bar2Read t off len => Sys2Proof.Machine.execBar2Read t off len s
  | .bar4Access t off len write => Sys2Proof.Machine.execBar4Access t off len write s
  | .poisonedWrite t => Sys2Proof.Machine.execPoisonedWrite t s
  | .wptrWrite t m port value => Sys2Proof.Machine.execWptrWrite t m port value s
  | .ringReset t m arg => Sys2Proof.Machine.execRingReset t m arg s
  | .ringFlush t m arg => Sys2Proof.Machine.execRingFlush t m arg s
  | .bndClrEcc t m arg => Sys2Proof.Machine.execBndClrEcc t m arg s
  | .bandHeader t port => Sys2Proof.Machine.execBandHeader t port s
  | .resyncBlock t port => Sys2Proof.Machine.execResyncBlock t port s
  | .screenDeadline t port => Sys2Proof.Machine.execScreenDeadline t port s
  | .historyStage t port => Sys2Proof.Machine.execHistoryStage t port s
  | .train t m => Sys2Proof.Machine.execTrain t m s
  | .trainComplete t pass => Sys2Proof.Machine.execTrainComplete t pass s
  | .srEnter t m => Sys2Proof.Machine.execSrEnter t m s
  | .srExit t m => Sys2Proof.Machine.execSrExit t m s
  | .memClrEcc t m => Sys2Proof.Machine.execMemClrEcc t m s
  | .scrubBlock t => Sys2Proof.Machine.execScrubBlock t s
  | .arm t m => Sys2Proof.Machine.execArm t m s
  | .stop t m => Sys2Proof.Machine.execStop t m s
  | .abort t m => Sys2Proof.Machine.execAbort t m s
  | .boundaryEntry t port => Sys2Proof.Machine.execBoundaryEntry t port s
  | .boundaryComplete t port => Sys2Proof.Machine.execBoundaryComplete t port s
  | .portSvcEnter t m port arg => Sys2Proof.Machine.execPortSvcEnter t m port arg s
  | .serviceEntryLand t port => Sys2Proof.Machine.execServiceEntryLand t port s
  | .svcPower t m port arg => Sys2Proof.Machine.execSvcPower t m port arg s
  | .portSvcLeave t m port => Sys2Proof.Machine.execPortSvcLeave t m port s
  | .portOff t m port => Sys2Proof.Machine.execPortOff t m port s
  | .ready t m port => Sys2Proof.Machine.execReady t m port s
  | .grpApply t m port => Sys2Proof.Machine.execGrpApply t m port s
  | .lineClockTick t g => Sys2Proof.Machine.execLineClockTick t g s
  | .observerTick t ch => Sys2Proof.Machine.execObserverTick t ch s
  | .stateArrival t port => Sys2Proof.Machine.execStateArrival t port s
  | .placementCompare t port => Sys2Proof.Machine.execPlacementCompare t port s
  | .phaseStart t port k => Sys2Proof.Machine.execPhaseStart t port k s
  | .strobeDelayedRise t port => Sys2Proof.Machine.execStrobeDelayedRise t port s
  | .phaseMarker t port => Sys2Proof.Machine.execPhaseMarker t port s
  | .lineFrameSend t port => Sys2Proof.Machine.execLineFrameSend t port s
  | .trimFrameSend t port => Sys2Proof.Machine.execTrimFrameSend t port s
  | .idReq t m port => Sys2Proof.Machine.execIdReq t m port s
  | .lkClrCnt t m port => Sys2Proof.Machine.execLkClrCnt t m port s
  | .ackFrame t port lseq result => Sys2Proof.Machine.execAckFrame t port lseq result s
  | .ackDeadline t port => Sys2Proof.Machine.execAckDeadline t port s
  | .statusFrame t port sseq hflags t0 t1 t2 t3 => Sys2Proof.Machine.execStatusFrame t port sseq hflags t0 t1 t2 t3 s
  | .identFrame t port id => Sys2Proof.Machine.execIdentFrame t port id s
  | .cfgAckFrame t port result => Sys2Proof.Machine.execCfgAckFrame t port result s
  | .cfgAckTimeout t port => Sys2Proof.Machine.execCfgAckTimeout t port s
  | .rtFrameError t port => Sys2Proof.Machine.execRtFrameError t port s
  | .rtLoss t port => Sys2Proof.Machine.execRtLoss t port s
  | .ovdBinBoundary t port => Sys2Proof.Machine.execOvdBinBoundary t port s
  | .graceExpiry t port => Sys2Proof.Machine.execGraceExpiry t port s
  | .enClrCnt t m port => Sys2Proof.Machine.execEnClrCnt t m port s
  | .budgetReset t m port => Sys2Proof.Machine.execBudgetReset t m port s
  | .scrClrCnt t m g arg => Sys2Proof.Machine.execScrClrCnt t m g arg s
  | .natImm t m g arg => Sys2Proof.Machine.execNatImm t m g arg s
  | .countTransition t ch sa sb => Sys2Proof.Machine.execCountTransition t ch sa sb s
  | .doubleTransition t ch sa sb => Sys2Proof.Machine.execDoubleTransition t ch sa sb s
  | .indexEvent t x => Sys2Proof.Machine.execIndexEvent t x s
  | .fbkSvcEnter t m ch => Sys2Proof.Machine.execFbkSvcEnter t m ch s
  | .fbkOff t m ch => Sys2Proof.Machine.execFbkOff t m ch s
  | .loadPos t m ch => Sys2Proof.Machine.execLoadPos t m ch s
  | .fbkSvcLeave t m ch => Sys2Proof.Machine.execFbkSvcLeave t m ch s
  | .fbkClrCnt t m ch => Sys2Proof.Machine.execFbkClrCnt t m ch s
  | .scanStart t m port arg => Sys2Proof.Machine.execScanStart t m port arg s
  | .scanStop t m port => Sys2Proof.Machine.execScanStop t m port s
  | .scanSvc t m port => Sys2Proof.Machine.execScanSvc t m port s
  | .driftReset t m port => Sys2Proof.Machine.execDriftReset t m port s
  | .hlClrCnt t m port => Sys2Proof.Machine.execHlClrCnt t m port s
  | .resReset t m port => Sys2Proof.Machine.execResReset t m port s
  | .scanStep t port => Sys2Proof.Machine.execScanStep t port s
  | .scanStepDone t port base window => Sys2Proof.Machine.execScanStepDone t port base window s
  | .driftMeasure t port k y => Sys2Proof.Machine.execDriftMeasure t port k y s
  | .axSvcEnter t m ax => Sys2Proof.Machine.execAxSvcEnter t m ax s
  | .axSvcLeave t m ax => Sys2Proof.Machine.execAxSvcLeave t m ax s
  | .axOff t m ax => Sys2Proof.Machine.execAxOff t m ax s
  | .enable t m ax => Sys2Proof.Machine.execEnable t m ax s
  | .disable t m ax => Sys2Proof.Machine.execDisable t m ax s
  | .move t m ax => Sys2Proof.Machine.execMove t m ax s
  | .axStop t m ax => Sys2Proof.Machine.execAxStop t m ax s
  | .qstop t m ax => Sys2Proof.Machine.execQstop t m ax s
  | .resume t m ax => Sys2Proof.Machine.execResume t m ax s
  | .home t m ax => Sys2Proof.Machine.execHome t m ax s
  | .pvtStart t m ax arg => Sys2Proof.Machine.execPvtStart t m ax arg s
  | .setPos t m ax => Sys2Proof.Machine.execSetPos t m ax s
  | .clrFault t m ax => Sys2Proof.Machine.execClrFault t m ax s
  | .profileTick t g => Sys2Proof.Machine.execProfileTick t g s
  | .pwmPeriod t g vbusCode => Sys2Proof.Machine.execPwmPeriod t g vbusCode s
  | .snsEdge t ax => Sys2Proof.Machine.execSnsEdge t ax s
  | .limitQualify t ax which level => Sys2Proof.Machine.execLimitQualify t ax which level s
  | .setMove t m g arg => Sys2Proof.Machine.execSetMove t m g arg s
  | .setStop t m g arg => Sys2Proof.Machine.execSetStop t m g arg s
  | .setResume t m g arg => Sys2Proof.Machine.execSetResume t m g arg s
  | .vbusClr t m g => Sys2Proof.Machine.execVbusClr t m g s
  | .jstStart t m e arg => Sys2Proof.Machine.execJstStart t m e arg s
  | .jstAbort t m e arg => Sys2Proof.Machine.execJstAbort t m e arg s
  | .clear t m e arg => Sys2Proof.Machine.execClear t m e arg s
  | .jstClrCnt t m e arg => Sys2Proof.Machine.execJstClrCnt t m e arg s
  | .engineGrant t e => Sys2Proof.Machine.execEngineGrant t e s
  | .descriptorFetch t e c host => Sys2Proof.Machine.execDescriptorFetch t e c host s
  | .descriptorStart t e c host => Sys2Proof.Machine.execDescriptorStart t e c host s
  | .descriptorComplete t e c => Sys2Proof.Machine.execDescriptorComplete t e c s
  | .descriptorError t e c code => Sys2Proof.Machine.execDescriptorError t e c code s
  | .ethEnable t m e => Sys2Proof.Machine.execEthEnable t m e s
  | .ethDisable t m e => Sys2Proof.Machine.execEthDisable t m e s
  | .ethClrCnt t m e => Sys2Proof.Machine.execEthClrCnt t m e s
  | .ethLinkUp t e k => Sys2Proof.Machine.execEthLinkUp t e k s
  | .ethLinkDown t e k => Sys2Proof.Machine.execEthLinkDown t e k s
  | .ethFrameRx t link f => Sys2Proof.Machine.execEthFrameRx t link f s
  | .pairMiss t => Sys2Proof.Machine.execPairMiss t s
  | .ptpFrameTx t link lane oneStep f => Sys2Proof.Machine.execPtpFrameTx t link lane oneStep f s
  | .offset t m => Sys2Proof.Machine.execOffset t m s
  | .holdoverTimeout t => Sys2Proof.Machine.execHoldoverTimeout t s
  | .timeStep t => Sys2Proof.Machine.execTimeStep t s
  | .setTime t m => Sys2Proof.Machine.execSetTime t m s
  | .cancelStep t m => Sys2Proof.Machine.execCancelStep t m s
  | .servoReset t m => Sys2Proof.Machine.execServoReset t m s
  | .txtsPop t m => Sys2Proof.Machine.execTxtsPop t m s
  | .lnkOn t m => Sys2Proof.Machine.execLnkOn t m s
  | .lnkOff t m => Sys2Proof.Machine.execLnkOff t m s
  | .linkReset t m arg => Sys2Proof.Machine.execLinkReset t m arg s
  | .lnkClrCnt t m => Sys2Proof.Machine.execLnkClrCnt t m s
  | .streamReset t m arg => Sys2Proof.Machine.execStreamReset t m arg s
  | .epochPop t m => Sys2Proof.Machine.execEpochPop t m s
  | .txWptrWrite t m stream value => Sys2Proof.Machine.execTxWptrWrite t m stream value s
  | .rxRptrWrite t m stream value => Sys2Proof.Machine.execRxRptrWrite t m stream value s
  | .bxBadFrame t f => Sys2Proof.Machine.execBxBadFrame t f s
  | .bxDataRx t link header body => Sys2Proof.Machine.execBxDataRx t link header body s
  | .bxAckRx t link octets => Sys2Proof.Machine.execBxAckRx t link octets s
  | .bxNackRx t link header body => Sys2Proof.Machine.execBxNackRx t link header body s
  | .bxIdentRx t link header body => Sys2Proof.Machine.execBxIdentRx t link header body s
  | .bxStatusRx t link header payload pcrc pad => Sys2Proof.Machine.execBxStatusRx t link header payload pcrc pad s
  | .bxEpochRx t link header payload pcrc pad => Sys2Proof.Machine.execBxEpochRx t link header payload pcrc pad s
  | .bxDataTx t link => Sys2Proof.Machine.execBxDataTx t link s
  | .bxAckTx t link => Sys2Proof.Machine.execBxAckTx t link s
  | .bxIdentTx t link => Sys2Proof.Machine.execBxIdentTx t link s
  | .bxStatusTx t => Sys2Proof.Machine.execBxStatusTx t s
  | .bxRetryResend t link => Sys2Proof.Machine.execBxRetryResend t link s
  | .rto t link => Sys2Proof.Machine.execRto t link s
  | .bxLinkTimeout t link => Sys2Proof.Machine.execBxLinkTimeout t link s
  | .pcieLinkUp t speed width => Sys2Proof.Machine.execPcieLinkUp t speed width s
  | .pcieReset t kind => Sys2Proof.Machine.execPcieReset t kind s
  | .aerError t r => Sys2Proof.Machine.execAerError t r s
  | .eoi t m => Sys2Proof.Machine.execEoi t m s
  | .penClrCnt t m => Sys2Proof.Machine.execPenClrCnt t m s
  | .msiSend t => Sys2Proof.Machine.execMsiSend t s
  | .smpWrite t head rest => Sys2Proof.Machine.execSmpWrite t head rest s
  | .smpRead t sdi => Sys2Proof.Machine.execSmpRead t sdi s
  | .smpPoll t => Sys2Proof.Machine.execSmpPoll t s
  | .smpAccessDone t => Sys2Proof.Machine.execSmpAccessDone t s
  | .smpReject t sdi => Sys2Proof.Machine.execSmpReject t sdi s
  | .faultIntake t => Sys2Proof.Machine.execFaultIntake t s
  | .msgLost t path => Sys2Proof.Machine.execMsgLost t path s
  | .stbStuck t port x => Sys2Proof.Machine.execStbStuck t port x s
  | .stbRogue t port x => Sys2Proof.Machine.execStbRogue t port x s
  | .lockstep t => Sys2Proof.Machine.execLockstep t s
  | .clkLoss t island detail => Sys2Proof.Machine.execClkLoss t island detail s
  | .kpsWdog t => Sys2Proof.Machine.execKpsWdog t s
  | .heartbeat t => Sys2Proof.Machine.execHeartbeat t s
  | .mgmtWdog t => Sys2Proof.Machine.execMgmtWdog t s
  | .safeRb t latch => Sys2Proof.Machine.execSafeRb t latch s
  | .periodicSelftest t pass code => Sys2Proof.Machine.execPeriodicSelftest t pass code s
  | .cfgCrcUpdate t => Sys2Proof.Machine.execCfgCrcUpdate t s
  | .selftestDone t pass code => Sys2Proof.Machine.execSelftestDone t pass code s
  | .kpsAck t m arg => Sys2Proof.Machine.execKpsAck t m arg s
  | .ackAll t m arg => Sys2Proof.Machine.execAckAll t m arg s
  | .dsafeRelease t m => Sys2Proof.Machine.execDsafeRelease t m s
  | .kpsClrCnt t m => Sys2Proof.Machine.execKpsClrCnt t m s
  | .kpsInjMsg t m value => Sys2Proof.Machine.execKpsInjMsg t m value s
  | .testRb t m value => Sys2Proof.Machine.execTestRb t m value s
  | .testClk t m value => Sys2Proof.Machine.execTestClk t m value s
  | .testLs t m value => Sys2Proof.Machine.execTestLs t m value s
  | .ftmUnlock t value => Sys2Proof.Machine.execFtmUnlock t value s
  | .ftmConfirm t => Sys2Proof.Machine.execFtmConfirm t s
  | .extest t => Sys2Proof.Machine.execExtest t s
  | .idcode t => Sys2Proof.Machine.execIdcode t s
  | .samplePreload t cells => Sys2Proof.Machine.execSamplePreload t cells s
  | .clamp t => Sys2Proof.Machine.execClamp t s
  | .highz t => Sys2Proof.Machine.execHighz t s
  | .bypass t => Sys2Proof.Machine.execBypass t s
  | .tapReset t => Sys2Proof.Machine.execTapReset t s
  | .sensorReading t readings => Sys2Proof.Machine.execSensorReading t readings s
  | .partWake t page inst => Sys2Proof.Machine.execPartWake t page inst s
  | .refclkLoss t => Sys2Proof.Machine.execRefclkLoss t s
  | .refclkReturn t => Sys2Proof.Machine.execRefclkReturn t s
  | .compensationUpdate t => Sys2Proof.Machine.execCompensationUpdate t s
  | .thermalRestart t => Sys2Proof.Machine.execThermalRestart t s
  | .sensClr t m arg => Sys2Proof.Machine.execSensClr t m arg s
  | .thmClrCnt t m => Sys2Proof.Machine.execThmClrCnt t m s
  | .calRun t m arg => Sys2Proof.Machine.execCalRun t m arg s
  | .calCancel t m arg => Sys2Proof.Machine.execCalCancel t m arg s
  | .calClrCnt t m => Sys2Proof.Machine.execCalClrCnt t m s
  | .calAttemptStart t g kind => Sys2Proof.Machine.execCalAttemptStart t g kind s
  | .calTakeover t ch => Sys2Proof.Machine.execCalTakeover t ch s
  | .calTrimDone t ch res => Sys2Proof.Machine.execCalTrimDone t ch res s
  | .calCheck t ch measured => Sys2Proof.Machine.execCalCheck t ch measured s
  | .calCommit t ch => Sys2Proof.Machine.execCalCommit t ch s
  | .calDefer t ch => Sys2Proof.Machine.execCalDefer t ch s
  | .updClaim t m value => Sys2Proof.Machine.execUpdClaim t m value s
  | .begin t m arg => Sys2Proof.Machine.execBegin t m arg s
  | .eraseComplete t => Sys2Proof.Machine.execEraseComplete t s
  | .chunk t m arg => Sys2Proof.Machine.execChunk t m arg s
  | .finish t m => Sys2Proof.Machine.execFinish t m s
  | .verifyComplete t => Sys2Proof.Machine.execVerifyComplete t s
  | .updAbort t m => Sys2Proof.Machine.execUpdAbort t m s
  | .release t m => Sys2Proof.Machine.execRelease t m s
  | .claimTimeout t => Sys2Proof.Machine.execClaimTimeout t s
  | .flashError t => Sys2Proof.Machine.execFlashError t s
  | .activate t m arg => Sys2Proof.Machine.execActivate t m arg s
  | .stagingComplete t ok => Sys2Proof.Machine.execStagingComplete t ok s
  | .recipePortLoad t port => Sys2Proof.Machine.execRecipePortLoad t port s
  | .confirm t m arg => Sys2Proof.Machine.execConfirm t m arg s
  | .revert t m arg => Sys2Proof.Machine.execRevert t m arg s
  | .devReset t m => Sys2Proof.Machine.execDevReset t m s
  | .mgmtReset t m => Sys2Proof.Machine.execMgmtReset t m s
  | .configurationRequest t req => Sys2Proof.Machine.execConfigurationRequest t req s
  | .bootDone t => Sys2Proof.Machine.execBootDone t s
  | .chunkProgrammed t => Sys2Proof.Machine.execChunkProgrammed t s
  | .recentRestartExpiry t => Sys2Proof.Machine.execRecentRestartExpiry t s

end Sys2Proof.Machine
end

