-- ==== Sys2Proof/WellFormed.lean ====
section
/-! DEFINITION. The operand ranges of the commands: what a bus, a link or a pin can bring at all (R1, R14, R53, R61,
R120, R126, R183, R262, R277, R476). -/

namespace Sys2Proof

/-- A command whose operands lie in the ranges that the hardware can present. -/
def Instr.wf : Instr → Bool
  | .porstNAssert .. | .porstNRelease .. | .unmappedAccess .. | .halTimeCapture .. | .clrUnmapped ..
    | .poisonedWrite .. | .train .. | .srEnter .. | .srExit ..
    | .memClrEcc .. | .scrubBlock .. | .arm .. | .stop .. | .abort .. | .pairMiss .. | .offset ..
    | .holdoverTimeout .. | .timeStep .. | .setTime .. | .cancelStep .. | .servoReset .. | .txtsPop ..
    | .lnkOn .. | .lnkOff .. | .lnkClrCnt .. | .epochPop .. | .bxStatusTx .. | .pcieReset .. | .eoi ..
    | .penClrCnt .. | .msiSend .. | .smpWrite .. | .smpRead .. | .smpPoll .. | .smpAccessDone .. | .smpReject ..
    | .faultIntake .. | .lockstep .. | .kpsWdog .. | .heartbeat .. | .mgmtWdog .. | .periodicSelftest ..
    | .cfgCrcUpdate .. | .selftestDone .. | .dsafeRelease .. | .kpsClrCnt .. | .kpsInjMsg .. | .testRb ..
    | .testClk .. | .testLs .. | .ftmUnlock .. | .ftmConfirm .. | .extest .. | .idcode .. | .samplePreload ..
    | .clamp .. | .highz .. | .bypass .. | .tapReset .. | .sensorReading .. | .refclkLoss .. | .refclkReturn ..
    | .compensationUpdate .. | .thermalRestart .. | .thmClrCnt .. | .calClrCnt .. | .updClaim ..
    | .eraseComplete .. | .finish .. | .verifyComplete .. | .updAbort .. | .release .. | .claimTimeout ..
    | .flashError .. | .stagingComplete .. | .devReset .. | .mgmtReset .. | .bootDone .. | .chunkProgrammed .. | .recentRestartExpiry .. =>
    true
  | .registerWrite _ _ addr size value =>
    decide (1 ≤ size) && decide (addr + size ≤ 0x4000000) && decide (value < 256 ^ size)
  | .aliasAccess _ _ r w =>
    decide (r.addr + r.len ≤ 0x800000) && (match w with | some bs => bs.length == r.len | none => true)
  | .wideLowerRead _ _ r =>
    decide (1 ≤ r.len) && decide (r.addr + r.len ≤ 0x4000000)
  | .bar2Write _ off data =>
    decide (off + data.length ≤ 0x10000000)
  | .bar2Read _ off len =>
    decide (off + len ≤ 0x10000000)
  | .bar4Access _ off len _ =>
    decide (off + len ≤ 0x100000000)
  | .pcieLinkUp _ speed width =>
    decide (1 ≤ speed ∧ speed ≤ 5) && [1, 2, 4, 8].contains width
  | .aerError _ r =>
    r.header.length == 4
  | .configurationRequest _ req =>
    match req with
    | .maxPayload n | .maxReadReq n => [128, 256, 512, 1024, 2048, 4096].contains n
    | .bar n _ | .read (.bar n) => decide (n < 6)
    | .read (.aerHeader n) => decide (n < 4)
    | _ => true
  | .lockWrite _ _ page inst _ | .causeClear _ _ page inst _ | .causeForce _ _ page inst _ | .nop _ _ page inst
    | .partWake _ page inst =>
    decide (inst < page.count)
  | .wideLowerWrite _ _ addr _ | .wideUpperWrite _ _ addr _ =>
    decide (addr < 0x4000000)
  | .historyEntryCapture _ _ slot =>
    decide (slot < 32)
  | .shadowNow _ _ port | .nowTransferDone _ port | .shadowAccessResume _ port | .planWrite _ _ port _ _
    | .budgetCfgWrite _ _ port _ _ | .wptrWrite _ _ port _ | .bandHeader _ port | .resyncBlock _ port
    | .screenDeadline _ port | .historyStage _ port | .boundaryEntry _ port | .boundaryComplete _ port
    | .serviceEntryLand _ port | .portSvcLeave _ _ port | .portOff _ _ port | .ready _ _ port
    | .grpApply _ _ port | .stateArrival _ port | .placementCompare _ port | .strobeDelayedRise _ port
    | .phaseMarker _ port | .lineFrameSend _ port | .trimFrameSend _ port | .idReq _ _ port | .lkClrCnt _ _ port
    | .ackDeadline _ port | .cfgAckTimeout _ port | .rtFrameError _ port | .rtLoss _ port
    | .ovdBinBoundary _ port | .graceExpiry _ port | .enClrCnt _ _ port | .budgetReset _ _ port
    | .scanStop _ _ port | .scanSvc _ _ port | .driftReset _ _ port | .hlClrCnt _ _ port | .resReset _ _ port
    | .scanStep _ port | .scanStepDone _ port _ _ | .recipePortLoad _ port =>
    decide (port < 96)
  | .natWrite _ _ port entry _ =>
    decide (port < 96) && decide (entry < 12288)
  | .widthTableWrite _ _ port word _ =>
    decide (port < 96) && decide (word < 128)
  | .maskSlotWrite _ _ g slot word _ =>
    decide (g < 8) && decide (slot < 8) && decide (word < 16384)
  | .sineTableWrite _ _ g word _ =>
    decide (g < 8) && decide (word < 512)
  | .pvtSegmentWrite _ _ g word _ =>
    decide (g < 8) && decide (word < 1024)
  | .calResultWrite _ _ ch _ _ | .calTakeover _ ch | .calTrimDone _ ch _ | .calCheck _ ch _ | .calCommit _ ch
    | .calDefer _ ch =>
    decide (ch < 256) && decide (ch % 32 < 26)
  | .ringReset _ _ arg | .ringFlush _ _ arg | .bndClrEcc _ _ arg | .linkReset _ _ arg | .streamReset _ _ arg
    | .kpsAck _ _ arg | .ackAll _ _ arg | .sensClr _ _ arg | .calRun _ _ arg | .calCancel _ _ arg
    | .begin _ _ arg | .chunk _ _ arg | .activate _ _ arg | .confirm _ _ arg | .revert _ _ arg =>
    decide (arg < 0x1000000)
  | .trainComplete _ pass =>
    decide (pass < 16)
  | .portSvcEnter _ _ port arg | .svcPower _ _ port arg | .scanStart _ _ port arg =>
    decide (port < 96) && decide (arg < 0x1000000)
  | .lineClockTick _ g | .profileTick _ g | .vbusClr _ _ g | .calAttemptStart _ g _ =>
    decide (g < 8)
  | .observerTick _ ch | .countTransition _ ch _ _ | .doubleTransition _ ch _ _
    | .fbkSvcEnter _ _ ch | .fbkOff _ _ ch | .loadPos _ _ ch | .fbkSvcLeave _ _ ch | .fbkClrCnt _ _ ch =>
    decide (ch < 96)
  | .indexEvent _ x =>
    decide (x.ch < 96)
  | .phaseStart _ port k | .driftMeasure _ port k _ =>
    decide (port < 96) && decide (k < 16)
  | .ackFrame _ port lseq result =>
    decide (port < 96) && decide (lseq < 0x10000) && decide (result < 256)
  | .statusFrame _ port sseq hflags _ _ _ _ =>
    decide (port < 96) && decide (sseq < 256) && decide (hflags < 0x10000)
  | .identFrame _ port id =>
    decide (port < 96) && decide (id.dies < 16) && decide (id.rateMax < 4) && decide (id.nozzles < 0x10000)
  | .cfgAckFrame _ port result =>
    decide (port < 96) && decide (result < 256)
  | .scrClrCnt _ _ g arg | .natImm _ _ g arg | .setMove _ _ g arg | .setStop _ _ g arg | .setResume _ _ g arg =>
    decide (g < 8) && decide (arg < 0x1000000)
  | .axSvcEnter _ _ ax | .axSvcLeave _ _ ax | .axOff _ _ ax | .enable _ _ ax | .disable _ _ ax | .move _ _ ax
    | .axStop _ _ ax | .qstop _ _ ax | .resume _ _ ax | .home _ _ ax | .setPos _ _ ax | .clrFault _ _ ax
    | .snsEdge _ ax | .limitQualify _ ax _ _ =>
    decide (ax < 96)
  | .pvtStart _ _ ax arg =>
    decide (ax < 96) && decide (arg < 0x1000000)
  | .pwmPeriod _ g vbusCode =>
    decide (g < 8) && decide (vbusCode < 4096)
  | .jstStart _ _ e arg | .jstAbort _ _ e arg | .clear _ _ e arg | .jstClrCnt _ _ e arg =>
    decide (e < 8) && decide (arg < 0x1000000)
  | .engineGrant _ e =>
    decide (e < 8)
  | .descriptorFetch _ e c _ | .descriptorStart _ e c _ | .descriptorComplete _ e c | .descriptorError _ e c _ =>
    decide (e < 8) && decide (c < 16)
  | .ethEnable _ _ e | .ethDisable _ _ e | .ethClrCnt _ _ e =>
    decide (e < 2)
  | .ethLinkUp _ e k | .ethLinkDown _ e k =>
    decide (e < 2) && decide (k < 4)
  | .ethFrameRx _ link f =>
    decide (link < 8) && decide (f.lane < 4)
  | .ptpFrameTx _ link lane _ _ =>
    decide (link < 8) && decide (lane < 4)
  | .bxBadFrame _ f =>
    decide (f.link < 8)
  | .bxDataRx _ link _ _ | .bxAckRx _ link _ | .bxNackRx _ link _ _ | .bxIdentRx _ link _ _
    | .bxStatusRx _ link _ _ _ _ | .bxEpochRx _ link _ _ _ _ | .bxDataTx _ link | .bxAckTx _ link | .bxIdentTx _ link
    | .bxRetryResend _ link | .rto _ link | .bxLinkTimeout _ link =>
    decide (link < 8)
  | .txWptrWrite _ _ stream _ | .rxRptrWrite _ _ stream _ =>
    decide (stream < 16)
  | .msgLost _ path =>
    decide (path < 30)
  | .stbStuck _ port x | .stbRogue _ port x =>
    decide (port < 96) && decide (x.strobe < 3)
  | .clkLoss _ island _ =>
    decide (island < 30)
  | .safeRb _ latch =>
    decide (latch < 128)

end Sys2Proof
end

