-- ==== Sys2Proof/Safety.lean ====
section
/-! DEFINITION. The terms that statements about the machine use: a command and the next state it gives, a page that takes
commands, what a command leaves alone, the canonical form of the memories, and what a safety latch holds off. -/

namespace Sys2Proof.Machine

/-! ### Commands and what they give -/

/-- A command answers a next state, and that state is as said. -/
abbrev Gives (c : Instr) (s : State) (P : State → Prop) : Prop := ∃ u, exec c s = .next u ∧ P u

/-- R56, R57, R342: the page is present and answers this master, none of whose earlier accesses to it waits. -/
abbrev State.answers (s : State) (m : Master) (p : Page) (i : Nat) : Prop :=
  s.present p i = true ∧ s.shutTo m = false ∧ s.behind m p i = none

/-- R61: the page takes a command: it answers, and no command is carried out in it. -/
abbrev State.takes (s : State) (m : Master) (p : Page) (i : Nat) : Prop :=
  s.answers m p i ∧ s.exec? p i = false

/-- R66: the page takes a command that needs unlock. -/
abbrev State.takesUnlocked (s : State) (m : Master) (p : Page) (i : Nat) : Prop :=
  s.takes m p i ∧ s.unlocked p i = true

/-- R59: RESULT of CMD_STATUS. -/
def State.result (s : State) (p : Page) (i : Nat) : Nat := (s.word (statusAddr p i)).toNat / 256 % 8

/-- R59: SEQNO of CMD_STATUS. -/
def State.cmdSeq (s : State) (p : Page) (i : Nat) : Nat := (s.word (statusAddr p i)).toNat / 2 ^ 24

/-- R59: CODE of CMD_STATUS. -/
def State.cmdCode (s : State) (p : Page) (i : Nat) : Nat := (s.word (statusAddr p i)).toNat % 256

/-- R59: the page has counted a command of this code. -/
abbrev State.counted (s u : State) (p : Page) (i code : Nat) : Prop :=
  u.cmdSeq p i = (s.cmdSeq p i + 1) % 256 ∧ u.cmdCode p i = code

/-- R59, R61: the page has carried out a command of this code: RESULT OK. -/
abbrev State.carriedOut (s u : State) (p : Page) (i code : Nat) : Prop :=
  s.counted u p i code ∧ u.result p i = resOk

/-- R360: every stop-request line has been served. It holds between commands. -/
abbrev State.stopsServed (s : State) : Prop := s.kps.stops = []

/-- Every register of every page but those named reads as before. -/
abbrev State.wordsKept (s u : State) (pages : List Page) : Prop :=
  ∀ a, (∀ p ∈ pages, pageAt a ≠ some p) → u.word a = s.word a

/-! ### The memories -/

/-- The canonical form of a byte memory whose unlisted bytes read as d: addresses rising, no listed byte equal to d. -/
def Memory.wf (d : Byte) (m : List Host.Cell) : Bool := Sparse.wf (fun _ => d) m

/-- Every byte of the Band Store, the spool, the mask slots and the flash reads as before. -/
abbrev State.bytesKept (s u : State) : Prop :=
  (∀ a, memGet 0 u.band a = memGet 0 s.band a) ∧ (∀ a, memGet 0 u.spool a = memGet 0 s.spool a) ∧
  (∀ a, memGet 0 u.masks a = memGet 0 s.masks a) ∧ (∀ a, memGet 0xFF u.flash a = memGet 0xFF s.flash a)

/-- The four byte memories are in canonical form (Band Store, spool and mask slots read 0 where nothing is listed, the
flash 0xFF). -/
def State.memoriesWf (s : State) : Bool :=
  Memory.wf 0 s.band && Memory.wf 0 s.spool && Memory.wf 0 s.masks && Memory.wf 0xFF s.flash

/-! ### What a command leaves alone -/

/-- The command changes the clock, the host interface's own record, the commands that wait for a gated part, the parts
that `parts` takes from the next state, and no register word but those listed (and, of PEN, the MSI counter and the
latched causes, R351). -/
abbrev Only (c : Instr) (s : State) (words : List Nat) (parts : State → State → State) : Prop :=
  ∀ u, exec c s = .next u →
    u = parts { s with now := u.now, regs := u.regs, pcie := u.pcie, waking := u.waking } u ∧
    ∀ a, a ∉ words → a ≠ Reg.PEN_MSI_CNT_COUNT.addr → a ≠ regAddr .pen 0 0x14 → u.word a = s.word a

/-- The words that every command of a page may change: CMD_STATUS and the latched causes. -/
def cmdWords (p : Page) (i : Nat) : List Nat := [statusAddr p i, regAddr p i 0x14]

/-- A write of a register can reach every table, also one that has waited (R75) or comes from the serial port; a soft
command of a page can be in it (R54, R61). So can a table write whose port or entry lies outside the table (R53). -/
def anyWrite (c : Instr) : Bool :=
  match c with
  | .registerWrite .. | .wideLowerWrite .. | .wideUpperWrite .. | .aliasAccess .. | .smpWrite .. | .smpRead .. | .smpPoll ..
    | .smpReject .. | .shadowAccessResume .. | .bootDone .. => true
  | .natWrite _ _ port entry _ => decide (96 ≤ port ∨ 16384 ≤ entry)
  | .widthTableWrite _ _ port word _ => decide (96 ≤ port ∨ 128 ≤ word)
  | _ => false

/-- Everything volatile is lost: PORST_N goes low, or the hardware shuts down or restarts (R407, R409, R446). -/
def losesAll (c : Instr) : Bool :=
  match c with
  | .porstNAssert .. | .sensorReading .. | .thermalRestart .. => true
  | _ => false

/-- The command moves a descriptor's data, or may end one (R292, R306, R347, R403). -/
def movesData (c : Instr) : Bool :=
  match c with
  | .descriptorStart .. | .descriptorComplete .. | .descriptorError .. | .jstAbort .. | .pcieReset .. | .partWake .. => true
  | _ => false

/-- The commands that may store to the Band Store. -/
def storesBand (c : Instr) : Bool :=
  anyWrite c || losesAll c || movesData c ||
  match c with
  | .bar2Write .. | .scanStepDone .. => true
  | _ => false

/-- The commands that may store to the spool, or lose it. -/
def storesSpool (c : Instr) : Bool :=
  anyWrite c || losesAll c || movesData c ||
  match c with
  | .bar4Access .. | .bxBadFrame .. | .bxDataRx .. | .bxAckRx .. | .bxNackRx .. | .bxIdentRx .. | .bxStatusRx ..
    | .bxEpochRx .. | .bxDataTx .. | .stagingComplete .. | .train .. | .devReset .. => true
  | _ => false

/-- The commands that may store to the mask slots. -/
def storesMasks (c : Instr) : Bool :=
  anyWrite c || losesAll c ||
  match c with
  | .maskSlotWrite .. | .stagingComplete .. => true
  | _ => false

/-- The commands that may change the flash. -/
def storesFlash (c : Instr) : Bool :=
  match c with
  | .eraseComplete .. | .chunkProgrammed .. | .verifyComplete .. | .bootDone .. | .thermalRestart ..
    | .sensorReading .. => true
  | _ => false

/-! ### Latches and Device Safe -/

/-- R48, R154: a port that is held dark: OFF or SAFE, with PWR_EN low. -/
abbrev Port.dark (x : Port) : Prop := (x.st = .off ∨ x.st = .safe) ∧ x.pwrEn = false

/-- What the safety latches guarantee between commands. -/
structure State.Guarded (s : State) : Prop where
  /-- R374, R375: a port whose latch is set is dark; so is a port that the profile has not -/
  latched : ∀ p, s.portCount ≤ p ∨ p ∉ s.kps.portClear → (s.port p).dark
  /-- R48, R154: PWR_EN is low in OFF and SAFE -/
  power : ∀ p, (s.port p).st = .off ∨ (s.port p).st = .safe → (s.port p).pwrEn = false
  /-- R37, R48, R456: outside its page flow a port's sequencer is IDLE, and no SVC_ENTER is deferred -/
  flow : ∀ p, (s.port p).inFlow = false → (s.port p).sq = .idle ∧ (s.port p).svcPend = .none
  /-- R376: while Device Safe is held every latch stays set, no axis is enabled, and Kingpost is not in RUN -/
  held : s.kps.dsafe = true →
    s.kps.deviceLatch = true ∧ s.kps.portClear = [] ∧ s.kps.motionClear = [] ∧ s.kps.st ≠ .run ∧
    ∀ a, a < 96 → (s.axis a).enabled = false
  /-- R385, R446: Device Safe is held while PORST_N is low -/
  porst : s.porst = true → s.kps.dsafe = true
  /-- R281: a member of a set is an axis that the set moves -/
  sets : ∀ k, ∀ e ∈ (s.mset (k / 2) (k % 2)).members,
    e.2.1 < 96 ∧ (s.axis e.2.1).st = .moving ∧ (s.axis e.2.1).inSet = some k

end Sys2Proof.Machine
end

