-- ==== Sys2Proof/Certificates/Slice0/Obligations.lean ====
section
/-! DEFINITION. The statements for the provers, each a Prop whose docstring names the rules of the spec it rests on. -/

open Sys2Proof Sys2Proof.Machine

/-- R54, R59, R64, R66, R69, R77: the common header of any present page, as its masters write it. PEN alone may change
beside the page (the MSI counter and latch, R351). The field types of R20 are shown on the pages whose registers have no
effect of their own when written.
Completes, on hypotheses about the state and the operands alone: REGISTER_WRITE, LOCK_WRITE, CAUSE_CLEAR, NOP,
CLR_UNMAPPED. -/
def Obligations.RegisterCommandsAct : Prop :=
  ∀ (s : State) (t : Time) (m : Master) (p : Page) (i : Nat), s.answers m p i → s.stopsServed →
    (∀ v : Word, Gives (.registerWrite t m (regAddr p i 0x18) 4 v.toNat) s fun u =>
      u.word (regAddr p i 0x18) = v &&& causeMask p ∧
      ∀ a, pageAt a ≠ some .pen → a ≠ regAddr p i 0x18 → u.word a = s.word a) ∧
    (∀ v : Word, Gives (.lockWrite t m p i v) s fun u =>
      u.unlocked p i = (v == 0x5AFE) ∧
      ∀ a, pageAt a ≠ some .pen → a ≠ regAddr p i 0x24 → u.word a = s.word a) ∧
    (∀ v : Word, Gives (.causeClear t m p i v) s fun u =>
      u.cause p i &&& v = ((s.at t).live p i ||| u.live p i) &&& v ∧
      ∀ a, pageAt a ≠ some .pen → a ≠ regAddr p i 0x14 → u.word a = s.word a) ∧
    (s.exec? p i = false → Gives (.nop t m p i) s fun u => s.carriedOut u p i 0) ∧
    (s.answers m .dev 0 → s.exec? .dev 0 = false → Gives (.clrUnmapped t m) s fun u =>
      s.carriedOut u .dev 0 1 ∧ u.fget Reg.DEV_UNMAPPED_COUNT = 0 ∧ u.word Reg.DEV_UNMAPPED_ADDR_ADDR.addr = 0) ∧
    (∀ (off : Nat) (v : Word), p ∈ [Page.thm, .kps2, .clk, .dev] → 0x40 ≤ off → off < 0x1000 → off % 4 = 0 →
      wideLow p off = false → wideHigh p off = false → s.absentPart p off = false →
      Gives (.registerWrite t m (regAddr p i off) 4 v.toNat) s fun u =>
        (∀ f ∈ fieldsAt p off, f.get (u.word (regAddr p i off)) =
          match f.ty with
          | .rw | .rws => f.get v
          | .rwl => if s.unlocked p i then f.get v else f.get (s.word (regAddr p i off))
          | .ro | .wo => f.get (s.word (regAddr p i off))
          | .rw1c => f.get (s.word (regAddr p i off) &&& ~~~v)) ∧
        (s.unlocked p i = false → (∃ f ∈ fieldsAt p off, f.ty = .rwl ∧ f.get (s.word (regAddr p i off)) ≠ f.get v) →
          (u.word (regAddr p i 0x14)).getLsbD 30 = true) ∧
        ∀ a, a ≠ regAddr p i off → a ≠ regAddr p i 0x14 → a ≠ Reg.PEN_MSI_CNT_COUNT.addr → a ≠ regAddr .pen 0 0x14 →
          u.word a = s.word a)

/-- R54, R55, R77, R78, R79.
The model's choices, not the spec's words: the address recorded for an access through the alias window is the native
one (log 153).
Completes, on hypotheses about the state and the operands alone: UNMAPPED_ACCESS, ALIAS_ACCESS, REGISTER_WRITE. -/
def Obligations.UnmappedAndAliasAccesses : Prop :=
  (∀ (s : State) (t : Time) (m : Master) (bar2 write : Bool) (addr : Nat), s.porst = false → s.shutTo m = false →
    (if bar2 then s.bandBytes ≤ addr else s.place addr = .unmapped) →
    Gives (.unmappedAccess t m bar2 addr write) s fun u =>
      u.fget Reg.DEV_UNMAPPED_COUNT = min (s.fget Reg.DEV_UNMAPPED_COUNT + 1) (2 ^ Reg.DEV_UNMAPPED_COUNT.width - 1) ∧
      u.word Reg.DEV_UNMAPPED_ADDR_ADDR.addr = BitVec.ofNat 32
        (m.code * 2 ^ 30 + (if write then 2 ^ 29 else 0) + (if bar2 then 1 else 0) * 2 ^ 26 + (if bar2 then addr else s.native addr) % 2 ^ 26) ∧
      u.fbit Reg.DEV_CAUSE_UNMAPPED = true ∧ (write = false → u.readBy m = 0)) ∧
  (∀ (s : State) (t : Time) (m : Master) (f b n : Nat) (v : Word), s.ul24 = true → f < 0x800000 → f % 4 = 0 →
    aliasOf f = some b → (s.at t).waitsFor m b = none →
    (Gives (.aliasAccess t m ⟨f, n⟩ (some (leBytes 4 v.toNat))) s fun u =>
      exec (.registerWrite t m b 4 v.toNat) s = .next u) ∧
    (b ≠ 0x40 → Gives (.aliasAccess t m ⟨f, 4⟩ none) s fun u => exec (.wideLowerRead t m ⟨b, 4⟩) s = .next u)) ∧
  (∀ (s : State) (t : Time) (m : Master) (f n : Nat) (v : Word), s.ul24 = false → f % 4 = 0 →
    Gives (.aliasAccess t m ⟨f, n⟩ (some (leBytes 4 v.toNat))) s fun u =>
      exec (.unmappedAccess t m false (windowBase + f) true) s = .next u) ∧
  (∀ (s : State) (t : Time) (m : Master) (addr n v : Nat), addr % 4 + n ≤ 4 → n < 4 →
    s.place addr ≠ .unmapped → (s.at t).waitsFor m addr = none →
    exec (.registerWrite t m addr n v) s = .next (s.at t).settle) ∧
  (∀ (s : State) (t : Time) (m : Master) (addr v : Nat), s.porst = false → s.shutTo m = false →
    s.place addr = .unmapped → Gives (.registerWrite t m addr 1 v) s fun u =>
      u.fbit Reg.DEV_CAUSE_UNMAPPED = true ∧
      u.fget Reg.DEV_UNMAPPED_COUNT = min (s.fget Reg.DEV_UNMAPPED_COUNT + 1) (2 ^ Reg.DEV_UNMAPPED_COUNT.width - 1))

/-- R54, R57, R58, R337, R392: the fields that span registers. That a lower half which a lock or a state shuts out is not
held is the model's choice (log 144). The frame of a group register of R175 on a page other than its first
member's is the subject of other rules, so those are left out of the first clause.
Completes, on hypotheses about the state and the operands alone: WIDE_LOWER_WRITE, WIDE_UPPER_WRITE, WIDE_LOWER_READ,
HAL_TIME_CAPTURE, HISTORY_ENTRY_CAPTURE. -/
def Obligations.WideFieldsHoldAndCapture : Prop :=
  ∀ (s : State) (t : Time) (m : Master), s.stopsServed →
    (∀ (p : Page) (i off : Nat) (v : Word), s.answers m p i → 0x40 ≤ off → off < 0x1000 → wideLow p off = true →
      s.absentPart p off = false → ¬ (p = .ft ∧ groupReg off = true ∧ i % 12 ≠ 0) →
      (s.at t).waitsFor m (regAddr p i off) = none →
      Gives (.wideLowerWrite t m (regAddr p i off) v) s fun u =>
        (isShadowed p off = true ∨ s.takesWrite p i off = true → u.heldAt m (regAddr p i off) = some v) ∧
        (isShadowed p off = false → s.takesWrite p i off = false →
          u.heldAt m (regAddr p i off) = s.heldAt m (regAddr p i off)) ∧
        u.word (regAddr p i off) = s.word (regAddr p i off)) ∧
    (∀ (c off : Nat) (v w : Word), s.answers m .fbk c → (s.chan c).st = .off ∨ (s.chan c).st = .service →
      off < 0x1000 → wideHigh .fbk off = true → s.heldAt m (regAddr .fbk c (off - 4)) = some w →
      Gives (.wideUpperWrite t m (regAddr .fbk c off) v) s fun u =>
        u.heldAt m (regAddr .fbk c (off - 4)) = none ∧
        (∀ f ∈ fieldsAt .fbk (off - 4), f.ty = .rw → f.get (u.word (regAddr .fbk c (off - 4))) = f.get w) ∧
        (∀ f ∈ fieldsAt .fbk off, f.ty = .rw → f.get (u.word (regAddr .fbk c off)) = f.get v)) ∧
    (∀ (p : Page) (i off b n : Nat), s.answers m p i → 0x40 ≤ off → off < 0x1000 → off % 4 = 0 → 0 < n → b + n ≤ 4 →
      (s.at t).waitsFor m (regAddr p i off) = none → s.captured m (regAddr p i off) = none →
      Gives (.wideLowerRead t m ⟨regAddr p i off + b, n⟩) s fun u =>
        u.readData m = ((leBytes 4 ((s.at t).pageWord m p i off).toNat).drop b).take n ∧
        (wideLow p off = true → u.captured m (regAddr p i (off + 4)) = some ((s.at t).pageWord m p i (off + 4)))) ∧
    (s.answers m .hal0 0 → s.captured m (regAddr .hal0 0 0xA4) = none → Gives (.halTimeCapture t m) s fun u =>
      u.readBy m = (s.at t).pageWord m .hal0 0 0xA4 ∧
      ∀ o ∈ [0xA8, 0xAC, 0xB0], u.captured m (regAddr .hal0 0 o) = some ((s.at t).pageWord m .hal0 0 o)) ∧
    (∀ slot, slot < 32 → s.answers m .kps1 0 → s.captured m (regAddr .kps1 0 (0x100 + 16 * slot)) = none →
      Gives (.historyEntryCapture t m slot) s fun u =>
        u.readBy m = histWord (s.histSlot slot) 0 ∧
        ∀ k ∈ [1, 2, 3], u.captured m (regAddr .kps1 0 (0x100 + 16 * slot + 4 * k)) = some (histWord (s.histSlot slot) k))

/-- R353 to R356: the serial management port. SMP_WRITE, SMP_READ, SMP_POLL, SMP_ACCESS_DONE and SMP_REJECT complete here.
The model's choices, not the spec's words: each case of R356 that holds sets its bit, CRC_ERR and OVERRUN stay until
the next good transaction, and PEN shows the causes only with its island on (log 117).
Completes, on hypotheses about the state and the operands alone: SMP_WRITE, SMP_READ, SMP_POLL, SMP_ACCESS_DONE,
SMP_REJECT. -/
def Obligations.SerialPortCarriesAccesses : Prop :=
  ∀ (s : State) (t : Time), s.porst = false → s.islandOn 29 = true → s.tap.disconnected = false →
    let zeros (n : Nat) : List Byte := s.smp.status :: List.replicate n 0
    (∀ (p : Page) (i : Nat) (v : Word) (head rest : List Byte), s.present p i = true → s.behind .smp p i = none → s.stopsServed →
      s.smp.busy = false → head ++ rest = smpWriteBytes (regAddr p i 0x18) v → Gives (.smpWrite t head rest) s fun u =>
        u.word (regAddr p i 0x18) = v &&& causeMask p ∧
        u.smp = { s.smp with
          busy := true, crcErr := false, overrun := false, seqNo := (s.smp.seqNo + 1) % 16, reading := false
          sdo := zeros 12 }) ∧
    (∀ (p : Page) (i : Nat), s.present p i = true → s.behind .smp p i = none →
      s.captured .smp (regAddr p i 0x18) = none → s.smp.busy = false →
      Gives (.smpRead t (smpReadBytes (regAddr p i 0x18))) s fun u =>
        u.readBy .smp = s.word (regAddr p i 0x18) ∧
        u.smp = { s.smp with
          busy := true, crcErr := false, overrun := false, seqNo := (s.smp.seqNo + 1) % 16, reading := true
          rdValid := false, sdo := zeros 8 }) ∧
    (Gives (.smpPoll t) s fun u =>
        u.smp = { s.smp with sdo := s.smp.status :: (s.smp.status :: beBytes s.smp.rbuf ++ beBytes (crc32c (s.smp.status :: beBytes s.smp.rbuf))) }) ∧
    (s.smp.busy = true → s.smpWaits = false → Gives (.smpAccessDone t) s fun u =>
        u.smp = if s.smp.reading then
            { s.smp with busy := false, reading := false, rbuf := s.readBy .smp, rdValid := true }
          else { s.smp with busy := false }) ∧
    (∀ sdi o, smpOp sdi = some o → o ≠ .poll → o.length ≤ sdi.length → o.crcOk sdi = false ∨ s.smp.busy = true →
      Gives (.smpReject t sdi) s fun u =>
        u.smp = { s.smp with
          crcErr := s.smp.crcErr || !o.crcOk sdi, overrun := s.smp.overrun || s.smp.busy, sdo := zeros (sdi.length - 1) } ∧
        (s.islandOn 0 = true → (o.crcOk sdi = false → u.fbit Reg.PEN_SMP_CAUSE_CRC_ERR = true) ∧
          (s.smp.busy = true → u.fbit Reg.PEN_SMP_CAUSE_OVERRUN = true)) ∧
        ∀ a, pageAt a ≠ some .pen → u.word a = s.word a) ∧
    (∀ sdi, (∀ o, smpOp sdi = some o → sdi.length < o.length) → Gives (.smpReject t sdi) s fun u =>
        u.smp = { s.smp with
          sdo := u.smp.sdo
          overrun := s.smp.overrun || (s.smp.busy && (smpOp sdi == some .write || smpOp sdi == some .read)) } ∧
        (s.islandOn 0 = true → u.fbit Reg.PEN_SMP_CAUSE_FRAME_ERR = true) ∧
        ∀ a, pageAt a ≠ some .pen → u.word a = s.word a)

/-- R61, R403: shown on CLR_CNT of SCR (R136), a command that needs no further condition.
Completes, on hypotheses about the state and the operands alone: SCR_CLR_CNT, PART_WAKE. -/
def Obligations.WokenPartTakesWaitingCommand : Prop :=
  ∀ (s : State) (t : Time) (m : Master) (g k : Nat), k < 12 →
    (s.takes m .scr g → s.gatedScreen g = true → Gives (.scrClrCnt t m g k) s fun u =>
      s.counted u .scr g 1 ∧ u.exec? .scr g = true ∧ u.waking = s.waking ++ [⟨m, .scr, g, 1, k⟩]) ∧
    (∀ w : Waking, s.waking.find? (fun w => w.page == .scr && w.inst == g) = some w → w.code = 1 → w.arg = k →
      s.present .scr g = true → s.exec? .scr g = true → s.stopsServed → Gives (.partWake t .scr g) s fun u =>
        u.waking = s.waking.erase w ∧ u.exec? .scr g = false ∧ u.result .scr g = resOk ∧
        u.fget Reg.SCR_SUBST_CNT_COUNT g k = 0 ∧ u.fget Reg.SCR_SPREAD_CNT_COUNT g k = 0 ∧
        u.fget Reg.SCR_LOST_CNT_COUNT g k = 0 ∧ u.fget Reg.SCR_COLLIDE_CNT_COUNT g k = 0)

/-- R73, R75, R119, R120, R122, R136, R183, R195: the per-port tables of the data regions.
Completes, on hypotheses about the state and the operands alone: NAT_WRITE, WIDTH_TABLE_WRITE, NAT_IMM, SCR_CLR_CNT. -/
def Obligations.ShadowedTablesTakeWrites : Prop :=
  ∀ (s : State) (t : Time) (m : Master) (p : Nat), s.hasPort p = true → s.shutTo m = false → s.stopsServed →
    (∀ (j : Nat) (v : Word), j < 12288 → (s.at t).waits p = false →
      Gives (.natWrite t m p j v) s fun u =>
        u.natS p j = v &&& 0xFFFF3FFF ∧ (u.port p).dirty = true ∧ u.natActive = s.natActive ∧
        ∀ q k, 12288 * q + k ≠ 12288 * p + j → u.natS q k = s.natS q k) ∧
    (∀ (j : Nat) (v : Word), j < 12288 → (s.at t).waits p = true → Gives (.natWrite t m p j v) s fun u =>
        (u.port p).stalled = (s.port p).stalled ++ [.write m [(natAddr p j, leBytes 4 v.toNat)]] ∧ u.natShadow = s.natShadow ∧ u.natActive = s.natActive) ∧
    (∀ (k : Nat) (v : Word), k < 128 → (s.at t).waits p = false →
      Gives (.widthTableWrite t m p k v) s fun u =>
        (k < 96 → u.widthS p k = v ∧ (u.port p).dirty = true) ∧
        (k = 96 → s.ul24 = false → u.widthS p k = v &&& 0xFFFF ∧ (u.port p).dirty = true) ∧
        (97 ≤ k ∨ k = 96 ∧ s.ul24 = true → u.widthShadow = s.widthShadow) ∧ u.widthActive = s.widthActive ∧
        ∀ q i, 128 * q + i ≠ 128 * p + k → u.widthS q i = s.widthS q i) ∧
    (∀ (g k j : Nat), k < 12 → j < 12288 → p = 12 * g + k → s.takes m .scr g → s.gatedScreen g = false →
      (s.at t).waits p = false →
      Gives (.natImm t m g (16 * j + k)) s fun u =>
        s.carriedOut u .scr g 2 ∧ u.natS p j = s.word (Reg.SCR_IMM_DATA_DATA.addr g) &&& 0xFFFF3FFF ∧
        u.natA p j = s.word (Reg.SCR_IMM_DATA_DATA.addr g) &&& 0xFFFF3FFF) ∧
    (∀ (g k j : Nat), k < 12 → j < 12288 → p = 12 * g + k → s.takes m .scr g → s.gatedScreen g = false →
      (s.at t).waits p = true → Gives (.natImm t m g (16 * j + k)) s fun u =>
        s.counted u .scr g 2 ∧ u.exec? .scr g = true ∧ u.natShadow = s.natShadow ∧ u.natActive = s.natActive ∧
        (u.port p).stalled = (s.port p).stalled ++ [.natImm j (s.word (Reg.SCR_IMM_DATA_DATA.addr g))]) ∧
    (∀ (g k : Nat), k < 12 ∨ k = 15 → s.takes m .scr g → s.gatedScreen g = false →
      Gives (.scrClrCnt t m g k) s fun u =>
        s.carriedOut u .scr g 1 ∧ ∀ n, n < 12 → k = n ∨ k = 15 →
          u.fget Reg.SCR_SUBST_CNT_COUNT g n = 0 ∧ u.fget Reg.SCR_SPREAD_CNT_COUNT g n = 0 ∧
          u.fget Reg.SCR_LOST_CNT_COUNT g n = 0 ∧ u.fget Reg.SCR_COLLIDE_CNT_COUNT g n = 0)

/-- R57, R73, R74, R75, R122: a shadow transfer on request. SHADOW_NOW, NOW_TRANSFER_DONE and SHADOW_ACCESS_RESUME complete
here, each under conditions on the state and its operands alone.
The model's choices, not the spec's words: nothing of the active copy changes until NOW_TRANSFER_DONE, which copies
all of it in one step (log 43).
Completes, on hypotheses about the state and the operands alone: SHADOW_NOW, NOW_TRANSFER_DONE, SHADOW_ACCESS_RESUME. -/
def Obligations.ShadowTransferOnRequest : Prop :=
  ∀ (s : State) (t : Time) (m : Master) (p : Nat), s.hasPort p = true → s.stopsServed →
    (s.answers m .ft p → (s.port p).sq = .idle → Gives (.shadowNow t m p) s fun u =>
      (u.port p).busyNow = true ∧ u.busy p = true ∧ u.natActive = s.natActive ∧ u.widthActive = s.widthActive ∧
      u.active = s.active) ∧
    (s.answers m .ft p → (s.port p).sq ≠ .idle → Gives (.shadowNow t m p) s fun u =>
      (u.port p).nowRej = true ∧ (u.port p).busyNow = (s.port p).busyNow ∧ u.fbit Reg.FT_CAUSE_CMD_REJECT p = true ∧
      u.natActive = s.natActive ∧ u.widthActive = s.widthActive) ∧
    ((s.port p).busyNow = true → Gives (.nowTransferDone t p) s fun u =>
      (∀ j, j < 12288 → u.natA p j = s.natS p j) ∧ (∀ k, k < 128 → u.widthA p k = s.widthS p k) ∧
      (∀ a ∈ shadowedAddrs p, u.aword a = s.word a) ∧
      (∀ q j, j < 12288 → q ≠ p → u.natA q j = s.natA q j) ∧ (∀ q k, k < 128 → q ≠ p → u.widthA q k = s.widthA q k) ∧
      (u.port p).dirty = false ∧ (u.port p).busyNow = false ∧ u.natShadow = s.natShadow ∧ u.widthShadow = s.widthShadow) ∧
    (∀ (j k i : Nat) (v w x : Word), (s.at t).busy p = false → p < 96 → j < 12288 → k < 96 → i < 12288 → i ≠ j →
      (s.port p).stalled = [.write m [(natAddr p j, leBytes 4 v.toNat)], .write m [(widthAddr p k, leBytes 4 w.toNat)],
        .natImm i x, .read m [(natAddr p j, 4)]] → (s.port p).rdActive = false → s.readData m = [] →
      Gives (.shadowAccessResume t p) s fun u =>
        u.natS p j = v &&& 0xFFFF3FFF ∧ u.widthS p k = w ∧ u.natS p i = x &&& 0xFFFF3FFF ∧ u.natA p i = x &&& 0xFFFF3FFF ∧
        u.readBy m = v &&& 0xFFFF3FFF ∧ u.exec? .scr (p / 12) = false ∧ (u.port p).stalled = []) ∧
    ((s.at t).busy p = true → exec (.shadowAccessResume t p) s = .next (s.at t).settle)

/-- R126, R262, R277, R280, R420: tables of screening groups, motion groups and the calibration page.
Completes, on hypotheses about the state and the operands alone: MASK_SLOT_WRITE, SINE_TABLE_WRITE, PVT_SEGMENT_WRITE,
CAL_RESULT_WRITE. -/
def Obligations.GroupTablesTakeWrites : Prop :=
  ∀ (s : State) (t : Time) (m : Master) (g : Nat) (v : Word), s.shutTo m = false →
    (∀ slot k, slot < 8 → k < 16384 → s.present .scr g = true → (s.slotUse g).testBit slot = false →
      Gives (.maskSlotWrite t m g slot k v) s fun u =>
        memBytes 0 u.masks (0x80000 * g + 0x10000 * slot + 4 * k) 4 = leBytes 4 v.toNat ∧
        ∀ a, a < 0x80000 * g + 0x10000 * slot + 4 * k ∨ 0x80000 * g + 0x10000 * slot + 4 * k + 4 ≤ a →
          memGet 0 u.masks a = memGet 0 s.masks a) ∧
    (∀ slot k, slot < 8 → k < 16384 → s.present .scr g = true → (s.slotUse g).testBit slot = true →
      Gives (.maskSlotWrite t m g slot k v) s fun u => u.masks = s.masks ∧ u.fbit Reg.SCR_CAUSE_SLOT_BUSY g = true) ∧
    (∀ k, k < 512 → s.present .mgp g = true → s.groupEnabled g = false → Gives (.sineTableWrite t m g k v) s fun u =>
        Sparse.get sineDefault u.sine (512 * g + k) = v ∧
        ∀ a, a ≠ 512 * g + k → Sparse.get sineDefault u.sine a = Sparse.get sineDefault s.sine a) ∧
    (∀ k, k < 512 → s.present .mgp g = true → s.groupEnabled g = true → Gives (.sineTableWrite t m g k v) s fun u =>
        u.sine = s.sine ∧ u.fbit Reg.MGP_CAUSE_TBL_BUSY g = true) ∧
    (∀ k, k < 1024 → s.present .mgp g = true → (s.axis (12 * g)).pvt = none →
      Gives (.pvtSegmentWrite t m g k v) s fun u =>
        u.pvtWord g k = v &&& pvtMask k ∧ ∀ h i, 1024 * h + i ≠ 1024 * g + k → u.pvtWord h i = s.pvtWord h i) ∧
    (∀ k r, k < 1024 → s.present .mgp g = true → (s.axis (12 * g)).pvt = some r → r.seg = k / 4 →
      Gives (.pvtSegmentWrite t m g k v) s fun u => u.pvtTab = s.pvtTab ∧ u.fbit Reg.AX0_CAUSE_PVT_WR (12 * g) = true) ∧
    (∀ c r, r < 3 → s.present .cal 0 = true → s.calPresent c = true → s.calWritable c = true →
      Gives (.calResultWrite t m c r v) s fun u => u.word (resAddr c r) = v &&& calMask c r) ∧
    (∀ c r, r < 4 → s.present .cal 0 = true → s.calPresent c = true → s.calWritable c = false →
      Gives (.calResultWrite t m c r v) s fun u =>
        u.fbit Reg.CAL_CAUSE_CFG_WR = true ∧ u.word (resAddr c r) = s.word (resAddr c r))

/-- R66, R149, R150, R192, R475.
Completes, on hypotheses about the state and the operands alone: PLAN_WRITE, BUDGET_CFG_WRITE. -/
def Obligations.PlanAndBudgetRegistersTakeWrites : Prop :=
  ∀ (s : State) (t : Time) (m : Master) (p : Nat) (v : Word), s.hasPort p = true → p < 96 → s.shutTo m = false →
    s.stopsServed →
    (∀ (reg : PlanReg), s.portCfg p = true →
      let new : SlotCfg := match reg with
        | .slot => ⟨s.fget Reg.FT_SEQ_CRED p, Reg.FT_SLOT_OFS.get v, Reg.FT_SLOT_WIN.get v⟩
        | .seq => ⟨Reg.FT_SEQ_CRED.get v, s.fget Reg.FT_SLOT_OFS p, s.fget Reg.FT_SLOT_WIN p⟩
      let plan := (members (p / 12)).map fun q => if q = p then new else s.slotOf q
      (planOk (s.groupA (p / 12)) plan = true → Gives (.planWrite t m p reg v) s fun u =>
        u.slotOf p = new ∧ (reg = .seq → u.fget Reg.FT_SEQ_GAP p = Reg.FT_SEQ_GAP.get v) ∧
        ∀ q, q < 96 → q ≠ p → u.slotOf q = s.slotOf q) ∧
      (planOk (s.groupA (p / 12)) plan = false → Gives (.planWrite t m p reg v) s fun u =>
        (∀ q, q < 96 → u.slotOf q = s.slotOf q) ∧ u.fbit Reg.FT_CAUSE_SLOT_REJ p = true)) ∧
    (∀ (reg : BudgetReg), s.unlocked .en p = true → Gives (.budgetCfgWrite t m p reg v) s fun u =>
      (match reg with
        | .win => u.fget Reg.EN_OVD_WIN_WIN p = Reg.EN_OVD_WIN_WIN.get v
        | .budget => u.fget Reg.EN_OVD_BUDGET_BUDGET p = Reg.EN_OVD_BUDGET_BUDGET.get v) ∧
      (u.port p).budget.bins = [] ∧ (u.port p).budget.binFrom = max s.now t) ∧
    (∀ (reg : BudgetReg), s.unlocked .en p = false → Gives (.budgetCfgWrite t m p reg v) s fun u =>
      u.fget Reg.EN_OVD_WIN_WIN p = s.fget Reg.EN_OVD_WIN_WIN p ∧
      u.fget Reg.EN_OVD_BUDGET_BUDGET p = s.fget Reg.EN_OVD_BUDGET_BUDGET p ∧
      (u.port p).budget = (s.port p).budget ∧ u.fbit Reg.EN_CAUSE_LOCKED p = true)

/-- R35, R55, R90, R92, R107: the host's windows into the Band Store and the spool.
The model's choices, not the spec's words: a BAR4 read of a word with an uncorrectable error returns the stored bytes
(log 63).
Completes, on hypotheses about the state and the operands alone: BAR2_WRITE, BAR2_READ, BAR4_ACCESS. -/
def Obligations.HostReachesBandStoreAndSpool : Prop :=
  ∀ (s : State) (t : Time), s.porst = false → s.islandOn isleMemory = true → s.pcie.d0 = true → s.stopsServed →
    (∀ (off : Nat) (data : List Byte), off + data.length ≤ s.bandBytes → off < s.bandBytes →
      (∀ q, q < s.portCount → ∀ i, i < data.length → (s.ring q).committed (off + i) = false ∧
        ((s.ring q).spoolOnly = true → (s.ring q).holds (off + i) = false)) →
      Gives (.bar2Write t off data) s fun u =>
        memBytes 0 u.band off data.length = data ∧
        ∀ a, a < off ∨ off + data.length ≤ a → memGet 0 u.band a = memGet 0 s.band a) ∧
    (∀ (off q i : Nat) (data : List Byte), off + data.length ≤ s.bandBytes → q < s.portCount → i < data.length →
      (s.ring q).committed (off + i) = true →
      Gives (.bar2Write t off data) s fun u => u.band = s.band ∧ u.fbit Reg.BND_RSTAT_OVERWRITE 0 q = true) ∧
    (∀ (off q i : Nat) (data : List Byte), off + data.length ≤ s.bandBytes → q < s.portCount → i < data.length →
      (s.ring q).spoolOnly = true → (s.ring q).holds (off + i) = true →
      Gives (.bar2Write t off data) s fun u => u.band = s.band ∧ u.fbit Reg.BND_RSTAT_DENY 0 q = true) ∧
    (∀ (off len : Nat), off < s.bandBytes → (∀ w, off / 8 ≤ w → 8 * w < off + len → s.isUe .band w = false) → off % 8 = 0 →
      len % 8 = 0 → Gives (.bar2Read t off len) s fun u =>
        u.bar2Data = some (memBytes 0 s.band off len) ∧ u.band = s.band) ∧
    (∀ (off len : Nat), off < s.bandBytes → 0 < len → s.isUe .band (off / 8) = true → Gives (.bar2Read t off len) s fun u =>
        u.bar2Data = none ∧ u.band = s.band ∧ u.fbit Reg.BND0_CAUSE_ECC_UE = true) ∧
    (∀ (off : Nat) (data : List Byte), s.mem = .ready →
      0x40000000 * s.fget Reg.MEM_AP_BASE_BASE + off + data.length ≤ s.spoolSize →
      Gives (.bar4Access t off 0 (some data)) s fun u =>
        memBytes 0 u.spool (0x40000000 * s.fget Reg.MEM_AP_BASE_BASE + off) data.length = data ∧
        ∀ a, a < 0x40000000 * s.fget Reg.MEM_AP_BASE_BASE + off ∨
          0x40000000 * s.fget Reg.MEM_AP_BASE_BASE + off + data.length ≤ a → memGet 0 u.spool a = memGet 0 s.spool a) ∧
    (∀ (off len : Nat), s.mem = .ready → 0x40000000 * s.fget Reg.MEM_AP_BASE_BASE + off + len ≤ s.spoolSize →
      Gives (.bar4Access t off len none) s fun u =>
        u.bar2Data = some (memBytes 0 s.spool (0x40000000 * s.fget Reg.MEM_AP_BASE_BASE + off) len) ∧ u.spool = s.spool) ∧
    (∀ (off len : Nat) (w : Option (List Byte)), s.mem ≠ .ready → Gives (.bar4Access t off len w) s fun u =>
        u.spool = s.spool ∧ u.fbit Reg.MEM_CAUSE_NOT_READY = true ∧
        (w = none → u.bar2Data = some (List.replicate len 0))) ∧
    (∀ (off : Nat) (data : List Byte), s.mem = .ready →
      s.spoolSize < 0x40000000 * s.fget Reg.MEM_AP_BASE_BASE + off + data.length →
      Gives (.bar4Access t off 0 (some data)) s fun u => u.spool = s.spool ∧ u.fbit Reg.MEM_CAUSE_AP_OOR = true) ∧
    (∀ (off len : Nat), s.mem = .ready → s.spoolSize < 0x40000000 * s.fget Reg.MEM_AP_BASE_BASE + off + len →
      Gives (.bar4Access t off len none) s fun u => u.spool = s.spool ∧ u.fbit Reg.MEM_CAUSE_AP_OOR = true ∧
        u.bar2Data = some (List.replicate len 0))

/-- R86, R87, R88, R97, R108: the commands of the producer of a ring.
Completes, on hypotheses about the state and the operands alone: WPTR_WRITE, RING_RESET, RING_FLUSH, BND_CLR_ECC. -/
def Obligations.RingProducerCommands : Prop :=
  ∀ (s : State) (t : Time) (m : Master) (p : Nat), p < s.portCount →
    (∀ v : Word, s.answers m .bnd1 0 →
      let r := s.ring p
      let w : Ptr := ⟨v.toNat % 2 ^ 28, v.getLsbD 31⟩
      let d := (Ptr.ofPos r.bytes r.wpos).ahead w r.bytes
      (r.st ≠ .unconfigured → w.off < r.bytes → w.off % 64 = 0 → 0 < d → r.fill + d ≤ r.bytes →
        Gives (.wptrWrite t m p v) s fun u => (u.ring p).wpos = r.wpos + d ∧ (u.ring p).st = r.st ∧
          ∀ q, q ≠ p → u.ring q = s.ring q) ∧
      (r.st = .unconfigured ∨ r.bytes ≤ w.off ∨ w.off % 64 ≠ 0 ∨ d = 0 ∨ r.bytes < r.fill + d →
        Gives (.wptrWrite t m p v) s fun u => u.rings = s.rings ∧ u.fbit Reg.BND_RSTAT_WPTR_ERR 0 p = true)) ∧
    (s.takesUnlocked m .bnd0 0 → s.gatedRing p = false → (s.port p).sq = .idle → s.ringOk p = true →
      Gives (.ringReset t m p) s fun u =>
        s.carriedOut u .bnd0 0 1 ∧ (u.ring p).st = .run ∧ (u.ring p).base = s.fget Reg.BND_RCFG_BASE 0 p ∧
        (u.ring p).size = s.fget Reg.BND_RCFG_SIZE 0 p ∧ (u.ring p).cols = s.fget Reg.BND_RCOLS_COLS 0 p ∧
        (u.ring p).spoolOnly = s.fbit Reg.BND_RCFG_SPOOL 0 p ∧ (u.ring p).wpos = 0 ∧ (u.ring p).rpos = 0 ∧
        (u.ring p).hpos = 0 ∧ (u.ring p).bands = [] ∧ (u.ring p).pages = [] ∧ (u.ring p).met = none ∧
        u.fget Reg.BND_RLOST_LOST 0 p = 0 ∧ (∀ q, q ≠ p → u.ring q = s.ring q) ∧ u.band = s.band) ∧
    (s.takes m .bnd0 0 → (s.ring p).st ≠ .unconfigured → Gives (.ringFlush t m p) s fun u =>
        s.carriedOut u .bnd0 0 2 ∧ (u.ring p).st = .resync ∧ (u.ring p).wpos = (s.ring p).wpos ∧
        (u.ring p).rpos = (s.ring p).wpos ∧ (u.ring p).hpos = (s.ring p).wpos ∧ (u.ring p).bands = [] ∧
        (∀ q, q ≠ p → u.ring q = s.ring q) ∧ u.band = s.band) ∧
    (∀ arg, s.takes m .bnd0 0 → Gives (.bndClrEcc t m arg) s fun u =>
        s.carriedOut u .bnd0 0 3 ∧ u.fget Reg.BND_ECC_CE_ECC_CE = 0 ∧ u.fget Reg.BND_ECC_UE_ADDR_ECC_UE_ADDR = 0 ∧
        u.rings = s.rings)

/-- R93 to R97: BAND_HEADER and RESYNC_BLOCK.
The model's choices, not the spec's words: a committed header is taken whether or not the rows before it have been
used (log 47).
Completes, on hypotheses about the state and the operands alone: BAND_HEADER, RESYNC_BLOCK. -/
def Obligations.ReaderChecksBandHeaders : Prop :=
  ∀ (s : State) (t : Time) (p : Nat), s.hasPort p = true → s.islandOn isleMemory = true → s.stopsServed →
    let r := s.ring p
    let bs := s.ringBytes p r.hpos 64
    let h := parseHdr bs
    let code := if s.check16 p bs (s.ringUe p r.hpos).isSome ≠ 0 then s.check16 p bs (s.ringUe p r.hpos).isSome
      else r.check710 h
    r.hpos + 64 ≤ r.wpos → r.cols % 512 = 0 →
    (r.st = .run → s.discards? p h.page = false → code = 0 → Gives (.bandHeader t p) s fun u =>
      (u.ring p).hpos = r.hpos + 64 + (if h.format = 0 then h.lines / 2 else h.lines) * h.rowBytes ∧
      (u.ring p).expSeq = some ((h.seqNo + 1) % 65536) ∧ (u.ring p).wpos = r.wpos ∧ u.band = s.band) ∧
    (r.st = .run → s.discards? p h.page = false → (s.at t).hasPassed p h.page = false → code ≠ 0 → Gives (.bandHeader t p) s fun u =>
      (u.ring p).st = .halted ∧ (u.ring p).hdrCode = code ∧ (u.ring p).hpos = r.hpos ∧ (u.ring p).rpos = r.rpos ∧
      u.fbit Reg.BND_RSTAT_HDR_ERR 0 p = true ∧ u.band = s.band) ∧
    (r.st = .resync → s.check16 p bs (s.ringUe p r.hpos).isSome ≠ 0 → Gives (.resyncBlock t p) s fun u =>
      (u.ring p).st = .resync ∧ (u.ring p).hpos = r.hpos + 64 ∧ (u.ring p).rpos = r.hpos + 64 ∧ u.band = s.band) ∧
    (r.st = .resync → s.check16 p bs (s.ringUe p r.hpos).isSome = 0 → r.curInfo = none →
      h.geometryOk r.cols none = true → Gives (.resyncBlock t p) s fun u =>
      (u.ring p).st = .run ∧ (u.ring p).hpos = r.hpos + 64 + (if h.format = 0 then h.lines / 2 else h.lines) * h.rowBytes)

/-- R105, R106, R110: the LPDDR5X controller. That the spool's content is lost is R110's; what it reads as then is the model's
choice (log 4) and no part of this statement; that MEM_CAP is 0 after a TRAIN that failed is the model's (log 145).
The model's choices, not the spec's words: SR_EXIT is READY in the same step (log 21); MEM_CAP is 0 after a TRAIN that
failed (log 145).
Completes, on hypotheses about the state and the operands alone: TRAIN, TRAIN_COMPLETE, SR_ENTER, SR_EXIT,
MEM_CLR_ECC, SCRUB_BLOCK. -/
def Obligations.MemoryControllerStates : Prop :=
  ∀ (s : State) (t : Time) (m : Master),
    (s.takesUnlocked m .mem 0 → s.mem = .off ∨ s.mem = .fault →
      (channelsOf (s.fget Reg.MEM_CFG_CH_EN)).isSome = true → 1 ≤ s.fget Reg.MEM_CFG_DENSITY → s.fget Reg.MEM_CFG_DENSITY ≤ 5 →
      Gives (.train t m) s fun u => s.carriedOut u .mem 0 1 ∧ u.mem = .training ∧ u.memCfg = s.word (regAddr .mem 0 0x40) ∧ u.band = s.band) ∧
    (∀ pass, s.porst = false → s.islandOn isleMemory = true → s.stopsServed → s.mem = .training →
      Gives (.trainComplete t pass) s fun u =>
        let en := Reg.MEM_CFG_CH_EN.get s.memCfg
        u.fget Reg.MEM_TRAIN_STAT_PASS = (pass &&& en) % 16 ∧
        (pass &&& en = en →
          u.mem = .ready ∧ u.fget Reg.MEM_CAP_CAP = s.capUnits % 2 ^ Reg.MEM_CAP_CAP.width ∧
          u.fbit Reg.MEM_CAUSE_TRAIN_DONE = true) ∧
        (pass &&& en ≠ en →
          u.mem = .fault ∧ u.fget Reg.MEM_CAP_CAP = 0 ∧ u.fbit Reg.MEM_CAUSE_TRAIN_FAIL = true)) ∧
    (s.takes m .mem 0 → s.mem = .ready → Gives (.srEnter t m) s fun u =>
      s.carriedOut u .mem 0 2 ∧ u.mem = .selfRefresh ∧ u.spool = s.spool) ∧
    (s.takes m .mem 0 → s.mem = .selfRefresh → Gives (.srExit t m) s fun u =>
      s.carriedOut u .mem 0 3 ∧ u.mem = .ready ∧ u.spool = s.spool) ∧
    (s.takes m .mem 0 → Gives (.memClrEcc t m) s fun u =>
      s.carriedOut u .mem 0 4 ∧ u.fget Reg.MEM_ECC_CE_COUNT = 0 ∧ u.word (regAddr .mem 0 0x54) = 0 ∧
      u.word (regAddr .mem 0 0x58) = 0 ∧ u.mem = s.mem ∧ u.spool = s.spool) ∧
    (s.porst = false → s.islandOn isleMemory = true → s.stopsServed → s.mem = .ready →
      Reg.MEM_CFG_SCRUB_EN.get s.memCfg = 1 → 0 < s.spoolSize →
      s.scrubbed + max 1 (s.fget Reg.MEM_SCRUB_INTERVAL) * us ≤ max s.now t → Gives (.scrubBlock t) s fun u =>
        u.scrubAt = (s.scrubAt + 4096) % s.spoolSize ∧ u.scrubbed = max s.now t ∧ u.spool = s.spool ∧ u.mem = .ready ∧
        (s.spoolEcc = true → ∀ w, s.scrubAt / 8 ≤ w → 8 * w < s.scrubAt + 4096 → u.isCe .spool w = false))

/-- R37, R40, R47, R188.
The model's choices, not the spec's words: a port whose S is unknown or lost stays in IDLE at ARM (log 36); the shadow
content is taken within the step of BOUNDARY_ENTRY (log 43); a port with a HOT die goes to HOT_HOLD at ARM (log 53).
Completes, on hypotheses about the state and the operands alone: ARM, STOP, ABORT, BOUNDARY_ENTRY, BOUNDARY_COMPLETE. -/
def Obligations.SequencerCommandsMovePorts : Prop :=
  ∀ (s : State) (t : Time) (m : Master),
    (s.takes m .seq 0 → s.gatedArm = false → s.devState = .idle → s.portList.any s.armable = true → s.devOp ≠ .limited →
      s.stopsServed → (s.ue = [] ∨ ∀ g, s.fixedPace g = false) → Gives (.arm t m) s fun u => s.carriedOut u .seq 0 1 ∧
        ∀ p, p < s.portCount →
          (s.mayLeaveIdle p = true → (u.port p).sq ≠ .idle ∧ (s.fixedPace (p / 12) = false → (u.port p).sq = .armed) ∧
            (u.port p).st = (if (s.port p).hotDies = 0 then .printing else .hotHold)) ∧
          (s.mayLeaveIdle p = false → u.port p = { s.port p with begun := none })) ∧
    (s.takes m .seq 0 → s.devState ≠ .idle → Gives (.stop t m) s fun u => s.carriedOut u .seq 0 2 ∧
        (u.stopPending = true ∨ u.devState = .idle) ∧
        ∀ p, p < s.portCount → ((s.port p).sq = .armed → (u.port p).sq = .idle) ∧
          ((s.port p).sq = .printing → (u.port p).sq = .printing)) ∧
    (s.takes m .seq 0 → s.devState ≠ .idle → Gives (.abort t m) s fun u => s.carriedOut u .seq 0 3 ∧
        ∀ p, p < s.portCount → (s.port p).sq = .printing →
          (u.port p).sq = .draining ∧ (u.flow p).total = (s.flow p).sendM) ∧
    (∀ p, s.hasPort p = true → s.stopsServed → (s.port p).sq = .draining → (s.flow p).ended = true →
      Gives (.boundaryEntry t p) s fun u =>
        (u.port p).sq = .boundary ∧ (u.port p).hist = [] ∧ (u.port p).carry = [] ∧ (u.port p).toggle = [] ∧
        (u.flow p).cur = none ∧ (u.port p).b4Until = max s.now t + 1500 * ns ∧
        ((s.port p).hold = false → s.upd.act = none → (u.port p).dirty = false ∧ ∀ j, j < 12288 → u.natA p j = s.natS p j)) ∧
    (∀ p, s.hasPort p = true → s.stopsServed → (s.port p).sq = .boundary → (s.flow p).boundaryEnd = none →
      (s.port p).svcPend = .none →
      (s.stopPending = true → (s.port p).inFlow = true → Gives (.boundaryComplete t p) s fun u =>
        (u.port p).sq = .idle ∧ (u.port p).st = .ready) ∧
      (s.stopPending = false → s.enabledPort p = true → (s.ring p).pages ≠ [] → s.sKnown p = true →
        (s.ue = [] ∨ s.fixedPace (p / 12) = false) → Gives (.boundaryComplete t p) s fun u =>
          (u.port p).sq ≠ .boundary ∧ (s.fixedPace (p / 12) = false → (u.port p).sq = .armed) ∧
          (u.flow p).boundaryEnd = some (max s.now t)))

/-- R48, R154, R173, R374, R456.
Completes, on hypotheses about the state and the operands alone: PORT_SVC_ENTER, SERVICE_ENTRY_LAND, SVC_POWER,
PORT_SVC_LEAVE, READY, PORT_OFF. -/
def Obligations.PortStateCommandsMovePorts : Prop :=
  ∀ (s : State) (t : Time) (m : Master) (p : Nat), s.hasPort p = true →
    (∀ arg, s.takes m .ft p → s.gatedFire (p / 12) = false →
      ((s.port p).st = .standby ∨ (s.port p).st = .ready ∨ (s.port p).st = .hotHold ∨
        ((s.port p).st = .off ∧ (s.kps.dsafe = false ∧ s.kps.portClear.contains p = true ∨ s.portAcked p = true)) ∨
        ((s.port p).st = .safe ∧ s.portAcked p = true ∧ (s.port p).recipeLoad = false) →
        Gives (.portSvcEnter t m p arg) s fun u =>
          s.carriedOut u .ft p 0x10 ∧ (u.port p).st = .service ∧
          ((s.port p).st = .off ∨ (s.port p).st = .safe → u.kps.portClear.contains p = true) ∧
          ∀ q, q ≠ p → (u.port q).st = (s.port q).st) ∧
      ((s.port p).st = .printing → (s.port p).svcPend = .none → Gives (.portSvcEnter t m p arg) s fun u =>
          s.carriedOut u .ft p 0x10 ∧ (u.port p).st = .printing ∧
          (u.port p).svcPend = (if arg.testBit 0 then .afterLine else .boundary))) ∧
    (s.stopsServed → (s.port p).inFlow = true →
      ((s.port p).svcPend = .boundary ∧ (s.port p).sq = .boundary ∨
        (s.port p).svcPend = .afterLine ∧ s.lineEnd p ≤ max s.now t) →
      Gives (.serviceEntryLand t p) s fun u => (u.port p).st = .service ∧ (u.port p).sq = .idle ∧
        (u.port p).svcPend = .none) ∧
    (∀ arg, s.takes m .ft p → s.gatedFire (p / 12) = false → (s.port p).st = .service →
      Gives (.svcPower t m p arg) s fun u => s.carriedOut u .ft p 0x14 ∧ (u.port p).st = .service ∧
        (arg.testBit 0 = true → (s.port p).pwrEn = false →
          (u.port p).pwrEn = true ∧ (u.port p).link = .idle ∧ u.fbit Reg.LK_STAT_IDENT_OK p = false) ∧
        (arg.testBit 0 = false → (u.port p).pwrEn = false ∧ (u.port p).link = .down)) ∧
    (s.takes m .ft p → s.gatedFire (p / 12) = false → (s.port p).st = .service → s.devOp ≠ .limited →
      (s.port p).recipeLoad = false → s.fbit Reg.LK_STAT_IDENT_OK p = true → (s.port p).link ≠ .down → s.fits p = true →
      Gives (.portSvcLeave t m p) s fun u => s.carriedOut u .ft p 0x11 ∧ (u.port p).st = .standby ∧
        (u.port p).link = .config ∧ (u.port p).pwrEn = (s.port p).pwrEn) ∧
    (s.takes m .ft p → s.gatedFire (p / 12) = false → (s.port p).st = .standby → (s.port p).statusSeen = true →
      (s.port p).hotDies = 0 → s.devState = .idle → Gives (.ready t m p) s fun u =>
        s.carriedOut u .ft p 0x12 ∧ (u.port p).st = .ready ∧ ∀ q, q ≠ p → u.port q = s.port q) ∧
    (s.takes m .ft p → s.gatedFire (p / 12) = false →
      (s.port p).st = .service ∨ (s.port p).st = .standby ∨ (s.port p).st = .ready →
      Gives (.portOff t m p) s fun u => s.carriedOut u .ft p 0x13 ∧ (u.port p).st = .off ∧ (u.port p).pwrEn = false ∧
        (u.port p).link = .down ∧ (u.port p).health.st = .stopped)

/-- R150, R153, R175.
Completes, on hypotheses about the state and the operands alone: GRP_APPLY. -/
def Obligations.GroupPlanApplies : Prop :=
  ∀ (s : State) (t : Time) (m : Master) (p : Nat), s.takes m .ft p → s.gatedFire (p / 12) = false →
    (p % 12 = 0 → (∀ q ∈ members (p / 12), (s.port q).sq = .idle) → s.groupUsable (p / 12) = true →
      s.planFits (p / 12) = true → Gives (.grpApply t m p) s fun u =>
        s.carriedOut u .ft p 0x20 ∧ (∀ off ∈ groupOffsets, u.aword (regAddr .ft p off) = s.word (regAddr .ft p off)) ∧
        (u.groupA (p / 12)) = s.groupP (p / 12) ∧
        u.clock (p / 12) = (if (s.groupP (p / 12)).fixed
          then (max s.now t + us, (s.groupP (p / 12)).int * 2 ^ 32 + (s.groupP (p / 12)).frac) else (0, 0)) ∧
        u.tickCount (p / 12) = 0) ∧
    (p % 12 ≠ 0 → Gives (.grpApply t m p) s fun u =>
        u.result .ft p = resArg ∧ u.active = s.active ∧ u.clocks = s.clocks)

/-- R32, R144, R159, R160, R170, R179, R188: stages 2 to 4 of a line.
The model's choices, not the spec's words: a line lost with UNDERRUN still sends its LINE frame (log 35); the link is
occupied from the instant of the event or the end of the frame before, on no symbol grid (log 37).
Completes, on hypotheses about the state and the operands alone: SCREEN_DEADLINE, HISTORY_STAGE, LINE_FRAME_SEND. -/
def Obligations.LineStagesAdvance : Prop :=
  ∀ (s : State) (t : Time) (p : Nat) (pg : PageInfo), s.hasPort p = true → s.stopsServed → (s.flow p).cur = some pg →
    (∀ l, (s.flow p).lines.find? (fun l => l.m == (s.flow p).stageM) = some l → l.lost = none → pg.blank = false →
      l.m < pg.pageLines → (s.flow p).schedM ≤ l.m → (s.port p).st = .printing →
      Gives (.screenDeadline t p) s fun u =>
        u.fget Reg.PL_LOST_CNT_COUNT p = min (s.fget Reg.PL_LOST_CNT_COUNT p + 1) (2 ^ Reg.PL_LOST_CNT_COUNT.width - 1) ∧
        ∀ y ∈ (u.flow p).lines, y.m = l.m → y.lost = some .underrun ∧ y.codes = []) ∧
    (∀ l, (s.flow p).lines.find? (fun l => l.m == (s.flow p).stageM) = some l → (s.flow p).stageM < (s.flow p).fetchM →
      s.ue = [] → Gives (.historyStage t p) s fun u =>
        (u.flow p).stageM = (s.flow p).stageM + 1 ∧
        ∀ y ∈ (u.flow p).lines, y.m = l.m → y.widths = s.lineWidths p ∧ y.env = s.lineEnv p (s.lineWidths p)) ∧
    ((s.flow p).sendM < (s.flow p).stageM → (s.port p).st = .printing → (s.port p).linkFreeAt ≤ max s.now t →
      s.trimFirst p = false → Gives (.lineFrameSend t p) s fun u =>
        (u.flow p).sendM = (s.flow p).sendM + 1 ∧
        (u.port p).linkFreeAt =
          (s.port p).cutEnd (max s.now t) (max s.now t + s.symPs p (8 + 390 * (s.port p).cfgDies.length)) ∧
        (u.port p).lseq = ((s.port p).lseq + 1) % 65536 ∧
        (∀ l, (s.flow p).lines.find? (fun l => l.m == (s.flow p).sendM) = some l → (u.port p).sent = [s.lineFrame p l] ∧
          (s.lineFrame p l).bytes.length + 4 = 2 * (8 + 390 * (s.port p).cfgDies.length)) ∧
        (u.port p).ackWait = (s.port p).ackWait ++ [((s.port p).lseq, none)] ∧
        ((s.port p).sq = .printing →
          (u.port p).sq = (if (s.flow p).total ≤ (s.flow p).sendM + 1 then .draining else .printing))) ∧
    ((s.flow p).sendM < (s.flow p).stageM → (s.port p).st = .hotHold → Gives (.lineFrameSend t p) s fun u =>
        (u.flow p).sendM = (s.flow p).sendM + 1 ∧ (u.port p).lseq = (s.port p).lseq ∧
        (u.port p).linkFreeAt = (s.port p).linkFreeAt)

/-- R37, R153, R212, R219, R220, R226.
Completes, on hypotheses about the state and the operands alone: STATE_ARRIVAL, LINE_CLOCK_TICK, PLACEMENT_COMPARE. -/
def Obligations.PlacementStartsPagesAndLines : Prop :=
  ∀ (s : State) (t : Time),
    (∀ (p : Nat) (pg : PageInfo) (rest : List PageInfo), s.hasPort p = true → s.stopsServed →
      s.fixedPace (p / 12) = false → (s.port p).sq = .armed → s.sKnown p = true → (s.ring p).pages = pg :: rest →
      s.due p pg.start 0 = true → s.ue = [] → Gives (.stateArrival t p) s fun u =>
        (u.flow p).cur = some pg ∧ u.fget Reg.SEQ_PPAGE_PAGE 0 p = pg.page % 2 ^ 32 ∧
        (u.port p).sq = (if pg.pageLines + s.kmax p = 0 then .draining else .printing)) ∧
    (∀ p, s.hasPort p = true → s.stopsServed → s.fixedPace (p / 12) = true →
      exec (.stateArrival t p) s = .next (s.at t).settle) ∧
    (∀ g, s.porst = false → s.islandOn (9 + g) = true → s.fixedPace g = true → (s.clock g).2 ≠ 0 →
      Gives (.lineClockTick t g) s fun u => u.tickCount g = s.tickCount g + 1 ∧ u.clock g = s.clock g) ∧
    (∀ g, s.stopsServed → s.fixedPace g = false ∨ (s.clock g).2 = 0 →
      exec (.lineClockTick t g) s = .next (s.at t).settle) ∧
    (∀ (p : Nat) (pg : PageInfo) (l : Line) (t0 : Time), s.hasPort p = true → s.stopsServed →
      (s.flow p).lines.find? (·.t0.isSome) = some l → l.t0 = some t0 → (s.flow p).cur = some pg →
      (s.port p).st = .printing → Gives (.placementCompare t p) s fun u =>
        u.fget Reg.FT_LINES_COUNT p = min (s.fget Reg.FT_LINES_COUNT p + 1) (2 ^ Reg.FT_LINES_COUNT.width - 1) ∧
        (u.flow p).lastT0 = some t0 ∧ (u.flow p).firing = some l ∧ (u.flow p).phase = 0) ∧
    (∀ p, s.stopsServed → (s.port p).st = .hotHold → exec (.placementCompare t p) s = .next (s.at t).settle)

/-- R139, R143, R148, R151, R156, R188.
The model's choices, not the spec's words: a marker starts at once or at the end of the frame, and the link is free
again on no symbol grid (log 37).
Completes, on hypotheses about the state and the operands alone: PHASE_START, STROBE_DELAYED_RISE, PHASE_MARKER. -/
def Obligations.PhasesRaiseStrobes : Prop :=
  ∀ (s : State) (t : Time) (p : Nat), s.hasPort p = true → s.stopsServed →
    (∀ (k : Nat) (l : Line) (t0 : Time), s.ul24 = false → (s.port p).health.stepT0 = none → (s.flow p).firing = some l →
      l.t0 = some t0 → (s.flow p).phase + 1 = k → k < 16 → Gives (.phaseStart t p k) s fun u =>
        (u.flow p).phase = k ∧
        (u.flow p).pulses = clipPulses (s.phaseStart p t0 k + 250 * s.fget Reg.FT_SLOT_WIN p)
          (phasePlan (s.fget Reg.FT_SEQ_CRED p) (250 * s.fget Reg.FT_SEQ_GAP p) l.env (s.phaseStart p t0 k)
            (l.strobes (s.ord p k)))) ∧
    (Gives (.strobeDelayedRise t p) s fun u => (u.flow p).delayed = (s.flow p).delayed.tail) ∧
    (∀ k, (s.port p).pwrEn = true → s.nextMarker p = some k → k.due ≤ max s.now t → Gives (.phaseMarker t p) s fun u =>
        (u.port p).linkFreeAt =
          (s.port p).cutEnd (max s.now t) (max (max s.now t) (s.port p).linkFreeAt + s.symPs p 2) ∧
        (u.port p).marker = markerByte k.k k.lseq ∧ (u.flow p).markFor = some k.lseq ∧
        (u.flow p).marked = (k.k + 1) % 16) ∧
    (∀ k, s.nextMarker p = some k → max s.now t < k.due → exec (.phaseMarker t p) s = .next (s.at t).settle) ∧
    (s.nextMarker p = none → exec (.phaseMarker t p) s = .next (s.at t).settle) ∧
    ((s.port p).st = .hotHold → (s.port p).health.stepT0 = none →
      (∀ l, (s.flow p).firing = some l → (s.flow p).markFor ≠ some l.lseq) →
      exec (.phaseMarker t p) s = .next (s.at t).settle) ∧
    (∀ l e, (s.port p).health.stepT0 = none → (s.port p).st ≠ .hotHold → (s.flow p).marked = 0 →
      (s.flow p).markNext = some l → l.sentAt = some e →
      s.nextMarker p = some ⟨0, l.lseq, s.marker0At p e⟩) ∧
    ((s.port p).st = .hotHold → (s.port p).health.stepT0 = none → (s.flow p).marked = 0 →
      exec (.phaseMarker t p) s = .next (s.at t).settle) ∧
    (∀ (l : Line) (t0 : Time), (s.port p).health.stepT0 = none → (s.flow p).firing = some l → l.t0 = some t0 →
      (s.flow p).markFor = some l.lseq → (s.flow p).marked ≠ 0 → s.nextMarker p =
        some ⟨(s.flow p).marked, l.lseq, s.phaseStart p t0 ((s.flow p).marked - 1) + 50 * ns⟩)

/-- R192, R193, R197.
Completes, on hypotheses about the state and the operands alone: OVD_BIN_BOUNDARY, GRACE_EXPIRY, BUDGET_RESET,
EN_CLR_CNT. -/
def Obligations.OverdriveBudgetCounts : Prop :=
  ∀ (s : State) (t : Time) (m : Master) (p : Nat),
    (s.hasPort p = true → s.stopsServed → (s.port p).budget.binFrom + s.binLen p ≤ max s.now t →
      Gives (.ovdBinBoundary t p) s fun u => (u.port p).budget.bins = 0 :: (s.port p).budget.bins.take 63 ∧
        (u.port p).budget.binFrom = (s.port p).budget.binFrom + s.binLen p) ∧
    (s.stopsServed → max s.now t < (s.port p).budget.binFrom + s.binLen p →
      exec (.ovdBinBoundary t p) s = .next (s.at t).settle) ∧
    (∀ f, s.hasPort p = true → s.stopsServed → (s.port p).budget.exhFrom = some f →
      f + s.fget Reg.EN_GRACE_GRACE p * ms ≤ max s.now t → Gives (.graceExpiry t p) s fun u =>
        (u.port p).budget = { (s.port p).budget with forcing := true }) ∧
    (s.takesUnlocked m .en p → (s.port p).st = .off ∨ (s.port p).st = .service → Gives (.budgetReset t m p) s fun u =>
      s.carriedOut u .en p 2 ∧ (u.port p).budget = ⟨[], max s.now t, none, false⟩) ∧
    (s.takes m .en p → Gives (.enClrCnt t m p) s fun u => s.carriedOut u .en p 1 ∧
      u.fget Reg.EN_DROPS_A_COUNT p = 0 ∧ u.fget Reg.EN_DROPS_B_COUNT p = 0 ∧ u.fget Reg.EN_DROPS_C_COUNT p = 0 ∧
      u.fget Reg.EN_DOWN_LINES_COUNT p = 0 ∧ u.fget Reg.EN_HOLD_LINES_COUNT p = 0 ∧ u.fget Reg.EN_ECC_CE_COUNT p = 0 ∧
      u.ports = s.ports)

/-- R168 to R173, R187, R188: what comes on the return lane.
The model's choices, not the spec's words: a STATUS before START counts as one (log 69); the 1 ms of the IDENT answer
runs from the end of ID_REQ and includes its last instant (log 68); of several HOT dies the message names the lowest
(log 145).
Completes, on hypotheses about the state and the operands alone: ACK_FRAME, STATUS_FRAME, IDENT_FRAME, CFG_ACK_FRAME,
RT_FRAME_ERROR. -/
def Obligations.ReturnLaneFramesAct : Prop :=
  ∀ (s : State) (t : Time) (p : Nat), s.hasPort p = true → p < 96 → s.stopsServed → (s.port p).pwrEn = true →
    s.tap.disconnected = false →
    (∀ lseq result, (s.port p).ackWait.any (fun e => e.1 == lseq) = true → Gives (.ackFrame t p lseq result) s fun u =>
      (u.port p).ackWait = (s.port p).ackWait.filter (fun e => e.1 ≠ lseq) ∧ (u.port p).ackMissRun = 0 ∧
      u.fget Reg.LK_NACK_COUNT p = (if result / 16 % 16 = 0 then s.fget Reg.LK_NACK_COUNT p
        else min (s.fget Reg.LK_NACK_COUNT p + 1) (2 ^ Reg.LK_NACK_COUNT.width - 1))) ∧
    (∀ sseq hflags (t0 t1 t2 t3 : Int), (s.port p).st ≠ .printing → hflags < 65536 → sseq < 256 →
      ((s.port p).cfgDies.any fun d => decide (signed 16 (s.fget Reg.EN_CRIT_CRIT p) ≤ [t0, t1, t2, t3].getD d 0)) = false →
      Gives (.statusFrame t p sseq hflags t0 t1 t2 t3) s fun u =>
        u.fget Reg.LK_TEMP01_TEMP0 p = unsign 16 t0 ∧ u.fget Reg.LK_TEMP01_TEMP1 p = unsign 16 t1 ∧
        u.fget Reg.LK_TEMP23_TEMP2 p = unsign 16 t2 ∧ u.fget Reg.LK_TEMP23_TEMP3 p = unsign 16 t3 ∧
        u.fget Reg.LK_HFLAGS_HFLAGS p = hflags ∧ u.fget Reg.LK_HFLAGS_SSEQ p = sseq ∧
        (u.port p).statusAt = max s.now t ∧ (u.port p).rtLossNow = false ∧ (u.port p).critDies = 0 ∧
        (u.port p).hotDies = maskOf ((s.port p).cfgDies.filter fun d => decide (s.hotLimit p ≤ [t0, t1, t2, t3].getD d 0)) ∧
        (u.port p).st = (s.port p).st) ∧
    (∀ sseq hflags (t0 t1 t2 t3 : Int), (s.port p).st = .printing → hflags < 65536 → sseq < 256 →
      ((s.port p).cfgDies.any fun d => decide (signed 16 (s.fget Reg.EN_CRIT_CRIT p) ≤ [t0, t1, t2, t3].getD d 0)) = false →
      let hot := maskOf ((s.port p).cfgDies.filter fun d => decide (s.hotLimit p ≤ [t0, t1, t2, t3].getD d 0))
      Gives (.statusFrame t p sseq hflags t0 t1 t2 t3) s fun u =>
        u.fget Reg.LK_TEMP01_TEMP0 p = unsign 16 t0 ∧ u.fget Reg.LK_TEMP23_TEMP3 p = unsign 16 t3 ∧
        (u.port p).statusAt = max s.now t ∧ (u.port p).hotDies = hot ∧ (u.port p).critDies = 0 ∧
        (hot = 0 ∨ (s.port p).hotDies ≠ 0 → (u.port p).st = .printing ∧ u.flow p = s.flow p) ∧
        (hot ≠ 0 → (s.port p).hotDies = 0 → (u.port p).st = .hotHold ∧ (u.port p).statusSinceHold = false ∧
          u.fbit Reg.EN_CAUSE_HOLD p = true ∧ (u.fget Reg.SEQ_DEFECT_DEFECT 0 (p / 32)).testBit (p % 32) = true ∧
          (u.flow p).firing = (s.flow p).firing ∧ (u.flow p).pulses = (s.flow p).pulses ∧
          (u.flow p).lines = (s.flow p).lines.filter (·.t0.isNone) ∧
          u.fget Reg.EN_HOLD_LINES_COUNT p = min (s.fget Reg.EN_HOLD_LINES_COUNT p +
            ((s.flow p).lines.filter (·.t0.isSome)).length) (2 ^ Reg.EN_HOLD_LINES_COUNT.width - 1) ∧
          (hflags = s.fget Reg.LK_HFLAGS_HFLAGS p → (s.path (9 + p / 12)).queue.length < 16 →
            msgWord 1 p kindHeadHot 1 (lowBit hot) ∈ (u.path (9 + p / 12)).queue))) ∧
    (∀ sseq hflags (t0 t1 t2 t3 : Int), (s.port p).st ≠ .off → (s.port p).critDies = 0 →
      ((s.port p).cfgDies.any fun d => decide (signed 16 (s.fget Reg.EN_CRIT_CRIT p) ≤ [t0, t1, t2, t3].getD d 0)) = true →
      Gives (.statusFrame t p sseq hflags t0 t1 t2 t3) s fun u =>
        u.kps.portClear.contains p = false ∧ ((s.port p).st ≠ .safe → (u.port p).st = .safe ∧ (u.port p).pwrEn = false)) ∧
    (∀ (id : Ident) (r : Time), (s.port p).identReqAt = some r → max s.now t ≤ r + ms →
      (s.port p).link = .idle ∨ (s.port p).link = .ident → Gives (.identFrame t p id) s fun u =>
        (u.port p).link = .ident ∧ (u.port p).identSeen = some (id.vendor, id.cls, id.serial) ∧
        u.fbit Reg.LK_STAT_IDENT_OK p = true ∧ u.fget Reg.LK_ID2_DIES p = id.dies % 2 ^ Reg.LK_ID2_DIES.width) ∧
    ((s.port p).link = .config → s.fbit Reg.LK_STAT_CFG_OK p = false → (s.trimming p = false ∨ s.ue = []) →
      Gives (.cfgAckFrame t p 0) s fun u =>
        (u.port p).link = .run ∧ u.fbit Reg.LK_STAT_CFG_OK p = true ∧ u.fbit Reg.LK_STAT_STARTED p = true) ∧
    (∀ result, result ≠ 0 → (s.port p).link = .config → s.fbit Reg.LK_STAT_CFG_OK p = false →
      Gives (.cfgAckFrame t p result) s fun u =>
        (u.port p).link = .config ∧ u.fbit Reg.LK_CAUSE_CFG_REJ p = true) ∧
    (Gives (.rtFrameError t p) s fun u => u.fbit Reg.LK_CAUSE_RT_ERR p = true ∧
        u.fget Reg.LK_RT_ERR_COUNT p = min (s.fget Reg.LK_RT_ERR_COUNT p + 1) (2 ^ Reg.LK_RT_ERR_COUNT.width - 1) ∧
        u.ports = s.ports)

/-- R122, R165, R166, R170, R171, R173, R176. That CFG_ACK is awaited from the end of the CONFIG frame is the model's choice
(log 146); the statement says it through `configAt` alone.
The model's choices, not the spec's words: a trim block stops being pending when its frame starts (log 45); the link
is occupied on no symbol grid (log 37); an immediate block may wait behind lines screened with the old entry (log
165).
Completes, on hypotheses about the state and the operands alone: ID_REQ, TRIM_FRAME_SEND, ACK_DEADLINE,
CFG_ACK_TIMEOUT, RT_LOSS, LK_CLR_CNT. -/
def Obligations.LinkSupervisionActs : Prop :=
  ∀ (s : State) (t : Time) (m : Master) (p : Nat), s.hasPort p = true → p < 96 →
    (s.takes m .lk p → s.gatedFire (p / 12) = false → (s.port p).link = .idle ∨ (s.port p).link = .ident →
      Gives (.idReq t m p) s fun u => s.carriedOut u .lk p 1 ∧
        (u.port p).linkFreeAt = (s.port p).cutEnd (max (max s.now t) (s.port p).linkFreeAt) (max (max s.now t) (s.port p).linkFreeAt + s.symPs p 8) ∧
        (u.port p).sent = [.idReq] ∧ (u.port p).identReqAt = some (u.port p).linkFreeAt) ∧
    (∀ k rest, s.stopsServed → s.trimOn p = true → (s.port p).linkFreeAt ≤ max s.now t → (s.port p).trimImm = k :: rest → k < 768 → s.ue = [] →
      s.immHeld p = false → Gives (.trimFrameSend t p) s fun u => (u.port p).sent = [.trim 0 true (16 * k) 16 (s.blockA p k)] ∧
        (u.port p).trimImm = rest ∧ (u.port p).trimPend = (s.port p).trimPend ∧
        ∀ i, i < 16 → (u.port p).bankGet 0 (16 * k + i) = s.wscaleA p (16 * k + i) ∧
          (u.port p).bankGet 1 (16 * k + i) = s.wscaleA p (16 * k + i)) ∧
    (∀ k rest, s.stopsServed → (s.port p).trimImm = k :: rest → s.immHeld p = true →
      exec (.trimFrameSend t p) s = .next (s.at t).settle) ∧
    (∀ k, s.stopsServed → s.trimOn p = true → (s.port p).linkFreeAt ≤ max s.now t → s.lineReady p = false →
      (s.port p).trimImm = [] → (s.port p).trimPend = [k] → k < 768 → s.ue = [] →
      Gives (.trimFrameSend t p) s fun u =>
        (u.port p).sent = [.trim (1 - (s.port p).bank) false (16 * k) 16 (s.blockS p k)] ∧ (u.port p).trimPend = [] ∧
        ∀ i, i < 16 → (u.port p).bankGet (1 - (s.port p).bank) (16 * k + i) = natWscale (s.natS p (16 * k + i))) ∧
    (∀ e, s.stopsServed → (s.port p).ackWait.find? (fun e => match e.2 with
        | some d => decide (d ≤ max s.now t) | none => false) = some e → Gives (.ackDeadline t p) s fun u =>
        (u.port p).ackWait = (s.port p).ackWait.filter (fun y => y.1 ≠ e.1) ∧
        u.fget Reg.LK_ACK_MISS_COUNT p = min (s.fget Reg.LK_ACK_MISS_COUNT p + 1) (2 ^ Reg.LK_ACK_MISS_COUNT.width - 1) ∧
        (u.port p).ackMissRun = (if s.ackMissMax p ≤ (s.port p).ackMissRun + 1 then 0 else (s.port p).ackMissRun + 1)) ∧
    (∀ c, s.stopsServed → (s.port p).link = .config → (s.port p).configAt = some c → c + ms ≤ max s.now t →
      Gives (.cfgAckTimeout t p) s fun u =>
        (u.port p).link = .config ∧
        ((s.port p).cfgTries < 3 → (u.port p).cfgTries = (s.port p).cfgTries + 1 ∧
          (u.port p).linkFreeAt = (s.port p).cutEnd (max (max s.now t) (s.port p).linkFreeAt) (max (max s.now t) (s.port p).linkFreeAt + s.symPs p 14)) ∧
        (3 ≤ (s.port p).cfgTries → u.fbit Reg.LK_CAUSE_CFG_REJ p = true)) ∧
    (∀ c, s.stopsServed → (s.port p).configAt = some c → max s.now t < c + ms →
      exec (.cfgAckTimeout t p) s = .next (s.at t).settle) ∧
    (s.stopsServed → (s.port p).link = .run →
      (s.port p).st = .standby ∨ (s.port p).st = .ready ∨ (s.port p).st = .printing ∨ (s.port p).st = .hotHold →
      (s.port p).statusAt + s.rtTimeout p * us ≤ max s.now t → (s.port p).rtLossNow = false →
      Gives (.rtLoss t p) s fun u =>
        (u.port p).st = .safe ∧ (u.port p).pwrEn = false ∧ u.kps.portClear.contains p = false) ∧
    (s.takes m .lk p → Gives (.lkClrCnt t m p) s fun u => s.carriedOut u .lk p 2 ∧ u.fget Reg.LK_NACK_COUNT p = 0 ∧
        u.fget Reg.LK_ACK_MISS_COUNT p = 0 ∧ u.fget Reg.LK_RT_ERR_COUNT p = 0 ∧ u.fget Reg.LK_LINK_LOST_COUNT p = 0 ∧
        u.ports = s.ports)

/-- R198, R199, R200, R202, R203, R206, R207. The soft limits and the width of the index latch are those of the registers.
The model's choices, not the spec's words: the observer computes in exact rationals (log 11); an OFF channel follows
the levels of its inputs, and its observer coasts (log 93).
Completes, on hypotheses about the state and the operands alone: COUNT_TRANSITION, DOUBLE_TRANSITION, INDEX_EVENT,
OBSERVER_TICK. -/
def Obligations.ChannelsCountAndObserve : Prop :=
  ∀ (s : State) (t : Time) (c : Nat), s.present .fbk c = true →
    (∀ (sa sb : List Bool), s.tap.disconnected = false →
      let a := s.filtered c (s.chan c).a sa
      let b := s.filtered c (s.chan c).b sb
      (a ≠ (s.chan c).a ∧ b = (s.chan c).b ∨ a = (s.chan c).a ∧ b ≠ (s.chan c).b) →
      Gives (.countTransition t c sa sb) s fun u =>
        let up := (decide ((quadPhase (s.chan c).a (s.chan c).b + 1) % 4 = quadPhase a b)) != s.fbit Reg.FBK_CFG_DIR c
        let n := if up then (s.chan c).count + 1 else (s.chan c).count - 1
        (u.chan c).a = a ∧ (u.chan c).b = b ∧ (u.chan c).st = (s.chan c).st ∧
        ((s.chan c).st = .off → (u.chan c).count = (s.chan c).count) ∧
        ((s.chan c).st ≠ .off → (u.chan c).count =
          if (if up then s.softMax c < n else n < s.softMin c) then (s.chan c).count else n) ∧
        ∀ d, d ≠ c → u.chan d = s.chan d) ∧
    (∀ (sa sb : List Bool), s.tap.disconnected = false →
      let a := s.filtered c (s.chan c).a sa
      let b := s.filtered c (s.chan c).b sb
      a ≠ (s.chan c).a → b ≠ (s.chan c).b → (s.chan c).st ≠ .off → Gives (.doubleTransition t c sa sb) s fun u =>
        (u.chan c).a = a ∧ (u.chan c).b = b ∧ (u.chan c).count = (s.chan c).count ∧ (u.chan c).coast = true ∧
        u.fbit Reg.FBK_CAUSE_DOUBLE c = true ∧
        u.fget Reg.FBK_ERR_DOUBLE_COUNT c = min (s.fget Reg.FBK_ERR_DOUBLE_COUNT c + 1) (2 ^ Reg.FBK_ERR_DOUBLE_COUNT.width - 1)) ∧
    (∀ (was : Bool) (l : List Bool), l.length = max 1 (s.fget Reg.FBK_CFG_FILT_N c) →
      (l.length < 2 * (l.filter id).length → s.filtered c was l = true) ∧
      (2 * (l.filter id).length < l.length → s.filtered c was l = false) ∧
      (2 * (l.filter id).length = l.length → s.filtered c was l = was)) ∧
    (∀ si : List Bool, s.tap.disconnected = false → (s.chan c).i = true → Gives (.indexEvent t ⟨c, si⟩) s fun u =>
      u.chan c = { s.chan c with i := s.filtered c true si }) ∧
    (∀ si : List Bool, s.tap.disconnected = false → (s.chan c).st ≠ .off → s.fbit Reg.FBK_CFG_IDX_EN c = true →
      (s.chan c).i = false → s.filtered c false si = true →
      ((s.chan c).a = s.fbit Reg.FBK_CFG_GATE_A c ∧ (s.chan c).b = s.fbit Reg.FBK_CFG_GATE_B c →
        Gives (.indexEvent t ⟨c, si⟩) s fun u => (u.chan c).idxSeen = true ∧ (u.chan c).i = true ∧ (u.chan c).count = (s.chan c).count ∧
          u.wide Reg.FBK_IDX_POS_LO_POS Reg.FBK_IDX_POS_HI_POS c = unsign 48 (s.chan c).count) ∧
      (((s.chan c).a ≠ s.fbit Reg.FBK_CFG_GATE_A c ∨ (s.chan c).b ≠ s.fbit Reg.FBK_CFG_GATE_B c) →
        Gives (.indexEvent t ⟨c, si⟩) s fun u => u.fbit Reg.FBK_CAUSE_INDEX_GATE c = true ∧
          u.fget Reg.FBK_IDX_ERR_GATE c = min (s.fget Reg.FBK_IDX_ERR_GATE c + 1) (2 ^ Reg.FBK_IDX_ERR_GATE.width - 1) ∧
          u.wide Reg.FBK_IDX_POS_LO_POS Reg.FBK_IDX_POS_HI_POS c =
            s.wide Reg.FBK_IDX_POS_LO_POS Reg.FBK_IDX_POS_HI_POS c)) ∧
    (Gives (.observerTick t c) s fun u =>
        let x := s.chan c
        let e : Rat := if x.coast ∨ x.st = .off then 0 else (x.count : Rat) + x.v * s.filterDelay c - x.x
        (u.chan c).tick = (x.tick + 1) % 2 ^ 32 ∧ (u.chan c).tm = max s.now t ∧ (u.chan c).coast = false ∧
        (u.chan c).count = x.count ∧ (u.chan c).x = x.x + 1 / 10 * (x.v + 3 * s.omega c * e) ∧
        (u.chan c).v = x.v + 1 / 10 * (x.acc + 3 * s.omega c * s.omega c * e))

/-- R50, R205: the commands of a feedback channel.
Completes, on hypotheses about the state and the operands alone: FBK_SVC_ENTER, FBK_OFF, LOAD_POS, FBK_SVC_LEAVE,
FBK_CLR_CNT. -/
def Obligations.ChannelCommandsAct : Prop :=
  ∀ (s : State) (t : Time) (m : Master) (c : Nat), s.takes m .fbk c →
    ((s.chan c).st = .off ∨ (s.chan c).st = .run ∨
      (s.chan c).st = .fault ∧ ((s.chan c).faultSev2 = false ∨ s.chanAcked c = true) → s.chanBound c = false →
      Gives (.fbkSvcEnter t m c) s fun u => s.carriedOut u .fbk c 0x10 ∧
        u.chan c = { s.chan c with st := .service, faultSev2 := false } ∧ ∀ d, d ≠ c → u.chan d = s.chan d) ∧
    ((s.chan c).st = .service → Gives (.fbkOff t m c) s fun u => s.carriedOut u .fbk c 0x13 ∧
        u.chan c = { s.chan c with st := .off } ∧ ∀ d, d ≠ c → u.chan d = s.chan d) ∧
    ((s.chan c).st = .service → Gives (.loadPos t m c) s fun u => s.carriedOut u .fbk c 0x18 ∧
        (u.chan c).count = signed 48 (s.wide Reg.FBK_SETPOS_LO_POS Reg.FBK_SETPOS_HI_POS c) ∧
        (u.chan c).x = ((u.chan c).count : Rat) ∧ (u.chan c).v = 0 ∧ (u.chan c).acc = 0 ∧ (u.chan c).st = .service ∧
        ∀ d, d ≠ c → u.chan d = s.chan d) ∧
    ((s.chan c).st = .service → Gives (.fbkSvcLeave t m c) s fun u => s.carriedOut u .fbk c 0x11 ∧
        u.chan c = { s.chan c with st := .run } ∧ ∀ d, d ≠ c → u.chan d = s.chan d) ∧
    (Gives (.fbkClrCnt t m c) s fun u => s.carriedOut u .fbk c 2 ∧ u.fget Reg.FBK_ERR_DOUBLE_COUNT c = 0 ∧
        u.fget Reg.FBK_IDX_ERR_MISMATCH c = 0 ∧ u.fget Reg.FBK_IDX_ERR_GATE c = 0 ∧ u.chans = s.chans)

/-- R236, R239, R242, R243, R250, R251: the commands of a health page.
Completes, on hypotheses about the state and the operands alone: SCAN_START, SCAN_STOP, SCAN_SVC, DRIFT_RESET,
HL_CLR_CNT, RES_RESET. -/
def Obligations.ScanCommandsAct : Prop :=
  ∀ (s : State) (t : Time) (m : Master) (p : Nat), s.takes m .hl p →
    (∀ arg, s.gatedFire (p / 12) = false → (s.port p).health.st = .stopped → (s.port p).st ≠ .off → s.scanOk p = true →
      Gives (.scanStart t m p arg) s fun u => s.carriedOut u .hl p 1 ∧ (u.port p).health.st = .waiting ∧
        (u.port p).health.learn = arg.testBit 0 ∧ (u.port p).health.cursor = s.fget Reg.HL_RANGE_FIRST p ∧
        (u.port p).health.learnN = List.replicate 4 0 ∧
        u.port p = { s.port p with health := (u.port p).health } ∧ ∀ q, q ≠ p → u.port q = s.port q) ∧
    ((s.port p).health.st ≠ .stopped → Gives (.scanStop t m p) s fun u => s.carriedOut u .hl p 2 ∧
        ((s.port p).health.stepT0 = none → (u.port p).health.st = .stopped ∧ (u.port p).health.stopReq = false) ∧
        (∀ t0, (s.port p).health.stepT0 = some t0 →
          (u.port p).health = { (s.port p).health with stopReq := true }) ∧
        u.port p = { s.port p with health := (u.port p).health } ∧ ∀ q, q ≠ p → u.port q = s.port q) ∧
    (s.gatedFire (p / 12) = false → (s.port p).health.st = .waiting → (s.port p).st = .service →
      s.fbit Reg.LK_STAT_IDENT_OK p = true → (s.port p).link ≠ .down → s.fits p = true →
      Gives (.scanSvc t m p) s fun u => s.carriedOut u .hl p 3 ∧ (u.port p).health.st = .stepping ∧
        (u.port p).health.svc = true ∧
        ((s.port p).link = .run → (u.port p).link = .run) ∧ ((s.port p).link ≠ .run → (u.port p).link = .config) ∧
        ∀ q, q ≠ p → u.port q = s.port q) ∧
    (Gives (.driftReset t m p) s fun u => s.carriedOut u .hl p 4 ∧ (u.port p).health.cond = [] ∧
        u.fget Reg.HL_DRIFT_N_COUNT p = 0 ∧
        u.port p = { s.port p with health := { (s.port p).health with cond := [] } } ∧ ∀ q, q ≠ p → u.port q = s.port q) ∧
    (Gives (.hlClrCnt t m p) s fun u => s.carriedOut u .hl p 5 ∧ (∀ f ∈ healthCounters, u.fget f p = 0) ∧
        u.ports = s.ports) ∧
    ((s.port p).health.st = .stopped → Gives (.resReset t m p) s fun u => s.carriedOut u .hl p 6 ∧
        u.word (regAddr .hl p 0x88) = 0 ∧ u.word (regAddr .hl p 0x8C) = 0 ∧ u.ports = s.ports)

/-- R232, R233, R235, R238, R249, R251. Estimates are held in 2⁻¹⁶ units (log 11 says how they are rounded).
The model's choices, not the spec's words: the t0 of a step and the time that decides whether it still fits (log 99);
how estimates are rounded (log 11).
Completes, on hypotheses about the state and the operands alone: SCAN_STEP, SCAN_STEP_DONE, DRIFT_MEASURE. -/
def Obligations.ScanStepsAct : Prop :=
  ∀ (s : State) (t : Time) (p : Nat), s.hasPort p = true → s.stopsServed →
    (∀ q, (s.port p).health.st = .stepping → (s.port p).health.stepT0 = none → s.runAlive p = true →
      (s.port p).link = .run → (s.port p).health.confirm = [] →
      q = s.nextStep p (s.port p).health.cursor (s.scanEnd p) → q < s.scanEnd p → (s.at t).stepFits p = true →
      Gives (.scanStep t p) s fun u =>
        (u.port p).health.cursor = q ∧ (u.port p).health.stepT0 = some ((s.at t).nextStepAt p) ∧
        (u.port p).health.stepLseq = some (s.port p).lseq ∧ (u.port p).lseq = ((s.port p).lseq + 1) % 65536 ∧
        (u.port p).health.stepLine.map (·.codes) =
          some ((s.stepNozzles p q).map fun j => (j, s.fget Reg.HL_SCAN_CODE p)) ∧
        (u.port p).ackWait = (s.port p).ackWait ++
          [((s.port p).lseq, some ((s.at t).nextStepAt p + 250 * 16 * s.fget Reg.FT_PITCH_PITCH p))] ∧
        u.fget Reg.HL_STEPS_COUNT p = min (s.fget Reg.HL_STEPS_COUNT p + 1) (2 ^ Reg.HL_STEPS_COUNT.width - 1)) ∧
    (∀ base window l, (s.port p).health.stepLine = some l → (s.port p).health.learn = false →
      (s.port p).health.confirm = [] → s.fbit Reg.HL_POLICY_AUTO p = false → s.fget Reg.HL_RES_SIZE_SIZE p = 0 →
      Gives (.scanStepDone t p base window) s fun u =>
        let samples : List PhaseSamples := base.zip window
        let ackOk := (s.port p).health.stepAck == some true
        let cls := l.codes.map fun e => (s.verdict p e.1 ackOk samples).cls
        let n (f : Fld) (c : Nat) : Nat := min (s.fget f p + cls.count c) (2 ^ f.width - 1)
        (u.port p).health.stepLine = none ∧ (u.port p).health.stepT0 = none ∧
        u.fget Reg.HL_CNT_GOOD_COUNT p = n Reg.HL_CNT_GOOD_COUNT 0 ∧
        u.fget Reg.HL_CNT_WEAK_COUNT p = n Reg.HL_CNT_WEAK_COUNT 1 ∧
        u.fget Reg.HL_CNT_MISS_COUNT p = n Reg.HL_CNT_MISS_COUNT 2 ∧
        u.fget Reg.HL_SKIP_COUNT p = n Reg.HL_SKIP_COUNT 3 ∧
        (ackOk = false → cls.count 3 = l.codes.length)) ∧
    (∀ k y l, (s.flow p).firing = some l → (s.port p).st = .printing → s.fbit Reg.HL_CTL_DRIFT_EN p = true →
      (s.flow p).phase = k →
      let fs := (l.codes.filter fun e => e.2 == 1 && e.1 % 16 == s.ord p k).map (·.1)
      fs ≠ [] → s.driftPhase p l (l.t0.getD 0) k fs = true → Gives (.driftMeasure t p k y) s fun u =>
        u.fget Reg.HL_DRIFT_N_COUNT p = min (s.fget Reg.HL_DRIFT_N_COUNT p + 1) (2 ^ Reg.HL_DRIFT_N_COUNT.width - 1) ∧
        (∀ q, q ∉ fs.map (· / 16) → (u.port p).health.g q = (s.port p).health.g q) ∧
        (∀ j, fs = [j] → Sparse.get (fun _ => 0) (u.port p).health.cond (j / 16) =
          holdG ((s.port p).health.g (j / 16) +
            ((y : Rat) - (s.port p).health.g (j / 16)) / (2 ^ s.fget Reg.HL_DRIFT_CFG_MU p : Nat))))

/-- R256, R264, R270, R272, R376: the commands that change the state of an axis.
Completes, on hypotheses about the state and the operands alone: AX_SVC_ENTER, AX_SVC_LEAVE, AX_OFF, ENABLE, DISABLE,
SET_POS, CLR_FAULT. -/
def Obligations.AxisStateCommandsAct : Prop :=
  ∀ (s : State) (t : Time) (m : Master) (a : Nat), s.takes m .ax0 a →
    ((s.axis a).st = .off ∨ (s.axis a).st = .disabled ∨ (s.axis a).st = .standstill ∨
      (s.axis a).st = .fault ∧ s.faultFree a = true → s.setMoves a = false → Gives (.axSvcEnter t m a) s fun u => s.carriedOut u .ax0 a 0x10 ∧
        (u.axis a).st = .service ∧ (u.axis a).p = (s.axis a).p ∧ (u.axis a).remainV = false ∧
        ∀ b, b ≠ a → u.axis b = s.axis b) ∧
    ((s.axis a).st = .service → s.fget Reg.AX_ENC_ENC_CH a < 96 → s.fget Reg.AX_COIL_COIL_R a ≠ 0 →
      Gives (.axSvcLeave t m a) s fun u => s.carriedOut u .ax0 a 0x11 ∧
        u.axis a = { s.axis a with st := .disabled } ∧ ∀ b, b ≠ a → u.axis b = s.axis b) ∧
    ((s.axis a).st = .service → s.fget Reg.AX_ENC_ENC_CH a = 0x7F → s.fbit Reg.AX_FERR_FERR_EN a = false →
      s.fget Reg.AX_COIL_COIL_R a ≠ 0 → Gives (.axSvcLeave t m a) s fun u => s.carriedOut u .ax0 a 0x11 ∧
        u.axis a = { s.axis a with st := .disabled }) ∧
    ((s.axis a).st = .service ∨ (s.axis a).st = .disabled → Gives (.axOff t m a) s fun u => s.carriedOut u .ax0 a 0x13 ∧
        u.axis a = { s.axis a with st := .off, remainV := false } ∧ ∀ b, b ≠ a → u.axis b = s.axis b) ∧
    (s.gatedMotion (a / 12) = false → (s.axis a).st = .disabled → (s.mgroup (a / 12)).vbusFault = false →
      (s.kps.dsafe = false → s.fbit Reg.AX_CFG_STBY_MODE a = false → s.encRun a = false →
        Gives (.enable t m a) s fun u => s.carriedOut u .ax0 a 0x20 ∧ (u.axis a).st = .standstill ∧
          (u.axis a).addr = (s.axis a).heldAddr ∧ (u.axis a).p = (s.axis a).p ∧ (u.axis a).homed = (s.axis a).homed ∧
          ∀ b, b ≠ a → u.axis b = s.axis b) ∧
      (s.kps.dsafe = false → s.fbit Reg.AX_CFG_STBY_MODE a = true →
        Gives (.enable t m a) s fun u => s.carriedOut u .ax0 a 0x20 ∧ (u.axis a).st = .standstill ∧
          (u.axis a).addr = ((s.axis a).heldAddr + 128) / 256 * 256 % 1024 ∧ (u.axis a).homed = false ∧
          ∀ b, b ≠ a → u.axis b = s.axis b) ∧
      (s.kps.dsafe = true → Gives (.enable t m a) s fun u => s.carriedOut u .ax0 a 0x20 ∧ (u.axis a).st = .fault)) ∧
    ((s.axis a).st = .standstill → Gives (.disable t m a) s fun u => s.carriedOut u .ax0 a 0x21 ∧
        (u.axis a).st = .disabled ∧ (u.axis a).heldAddr = (s.axis a).addr ∧ (u.axis a).p = (s.axis a).p ∧
        (u.axis a).dutyA = 0 ∧ (u.axis a).dutyB = 0 ∧ ((s.axis a).v = 0 → (u.axis a).homed = (s.axis a).homed) ∧
        ∀ b, b ≠ a → u.axis b = s.axis b) ∧
    ((s.axis a).st = .disabled ∨ (s.axis a).st = .standstill → Gives (.setPos t m a) s fun u =>
        s.carriedOut u .ax0 a 0x28 ∧ (u.axis a).p = (s.sget Reg.AX_SETPOS_POS a : Rat) ∧ (u.axis a).homed = true ∧
        u.pe a = (u.axis a).p ∧ (u.axis a).remainV = false ∧ (u.axis a).st = (s.axis a).st ∧
        ∀ b, b ≠ a → u.axis b = s.axis b) ∧
    ((s.axis a).st = .fault → s.faultFree a = true → Gives (.clrFault t m a) s fun u => s.carriedOut u .ax0 a 0x29 ∧
        u.axis a = { s.axis a with st := .disabled, faultSev2 := false } ∧ ∀ b, b ≠ a → u.axis b = s.axis b)

/-- R256, R257, R269 to R271, R274, R278, R279: the commands that start and stop the motion of an axis.
Completes, on hypotheses about the state and the operands alone: MOVE, AX_STOP, QSTOP, RESUME, HOME, PVT_START. -/
def Obligations.MotionCommandsAct : Prop :=
  ∀ (s : State) (t : Time) (m : Master) (a : Nat), s.takes m .ax0 a →
    ((s.axis a).st = .standstill ∨ (s.axis a).st = .moving → (s.axis a).inSet = none → (s.axis a).pvt = none →
      s.intoLimit a (firstMotion (s.axis a).v ((s.sget Reg.AX_TARGET_TARGET a : Rat) - (s.axis a).p)) = false →
      s.fget Reg.AX_ACC_ACC a ≠ 0 → s.fget Reg.AX_DEC_DEC a ≠ 0 → Gives (.move t m a) s fun u =>
        s.carriedOut u .ax0 a 0x22 ∧ (u.axis a).st = .moving ∧
        u.targetOf a = (s.sget Reg.AX_TARGET_TARGET a : Rat) ∧ (u.axis a).remainV = false ∧
        (u.axis a).p = (s.axis a).p ∧ (u.axis a).v = (s.axis a).v ∧ ∀ b, b ≠ a → u.axis b = s.axis b) ∧
    ((s.axis a).st = .moving ∨ (s.axis a).st = .homing → (s.axis a).inSet = none →
      (Gives (.axStop t m a) s fun u => s.carriedOut u .ax0 a 0x23 ∧ (u.axis a).st = .stopping ∧
        (u.axis a).stop = (if s.intoLimit a (s.axis a).v then .qdec else .dec) ∧
        (s.intoLimit a (s.axis a).v = true → u.fbit Reg.AX0_CAUSE_LIMIT a = true) ∧
        ((u.axis a).moveStop = true ↔ (s.axis a).st = .moving ∧ (s.axis a).pvt = none) ∧
        (u.axis a).p = (s.axis a).p ∧ (u.axis a).v = (s.axis a).v ∧ ∀ b, b ≠ a → u.axis b = s.axis b) ∧
      (Gives (.qstop t m a) s fun u => s.carriedOut u .ax0 a 0x25 ∧ (u.axis a).st = .stopping ∧ (u.axis a).stop = .qdec ∧
        ((u.axis a).moveStop = true ↔ (s.axis a).st = .moving ∧ (s.axis a).pvt = none) ∧
        (u.axis a).p = (s.axis a).p ∧ (u.axis a).v = (s.axis a).v ∧ ∀ b, b ≠ a → u.axis b = s.axis b)) ∧
    ((s.axis a).st = .standstill → (s.axis a).remainV = true → s.intoLimit a (s.axis a).remain = false →
      Gives (.resume t m a) s fun u => s.carriedOut u .ax0 a 0x24 ∧ (u.axis a).st = .moving ∧
        u.targetOf a = (s.axis a).p + (s.axis a).remain ∧ (u.axis a).p = (s.axis a).p ∧
        ∀ b, b ≠ a → u.axis b = s.axis b) ∧
    ((s.axis a).st = .standstill → s.fget Reg.AX_HOME_CFG_MODE a ≠ 3 → s.fget Reg.AX_HOME_CFG_SRC a ≤ 1 →
      (s.fget Reg.AX_HOME_CFG_MODE a = 0 ∨ ∃ c, s.encOf a = some c ∧ s.fbit Reg.FBK_CFG_IDX_EN c = true) →
      Gives (.home t m a) s fun u => s.carriedOut u .ax0 a 0x26 ∧ (u.axis a).st = .homing ∧ (u.axis a).homed = false ∧
        (u.axis a).homePhase = (if s.fget Reg.AX_HOME_CFG_MODE a = 1 then .index
          else if s.limActive a (s.homeSwitch a) then .release else .search) ∧
        (u.axis a).homeTravel = 0 ∧ (u.axis a).p = (s.axis a).p ∧ ∀ b, b ≠ a → u.axis b = s.axis b) ∧
    (∀ arg, a % 12 = 0 → (s.axis a).st = .standstill → s.pvtOk a (arg % 256) (s.axis a).p 0 = true →
      Gives (.pvtStart t m a arg) s fun u => s.carriedOut u .ax0 a 0x27 ∧ (u.axis a).st = .moving ∧
        (u.axis a).pvt = some ⟨arg % 256, 0, (s.axis a).p, 0⟩ ∧ (u.axis a).p = (s.axis a).p ∧
        ∀ b, b ≠ a → u.axis b = s.axis b)

/-- R253, R257, R260, R263, R265, R271, R276. The rounding of a position is the model's (log 11).
Completes, on hypotheses about the state and the operands alone: PROFILE_TICK, PWM_PERIOD, SNS_EDGE, LIMIT_QUALIFY. -/
def Obligations.MotionTicksAct : Prop :=
  ∀ (s : State) (t : Time) (g : Nat),
    (s.present .mgp g = true → (s.mset g 0).active = false → (s.mset g 1).active = false →
      (∀ b ∈ members g, s.fbit Reg.AX_FERR_FERR_EN b = false) → Gives (.profileTick t g) s fun u =>
        (u.mgroup g).period = 0 ∧
        (∀ b, b ∉ members g ∨ (s.axis b).enabled = false → u.axis b = s.axis b) ∧
        ∀ a ∈ members g, (s.axis a).st = .moving → (s.axis a).pvt = none → (s.axis a).inSet = none →
          s.intoLimit a (s.axis a).v = false → s.intoLimit a (s.targetOf a - (s.axis a).p) = false →
          (s.targetOf a ≠ (s.axis a).p ∨ (s.axis a).v ≠ 0) →
          let n := planStep (s.targetOf a - (s.axis a).p) (s.axis a).v (s.vmax a) (s.acc a) (s.dec a)
          let y := fix 4 16 (if n.land then s.targetOf a else (s.axis a).p + n.dp)
          (u.axis a).v = n.v ∧ (u.axis a).st = .moving ∧
          ((s.at t).steppedNow a = false → (u.axis a).pPrev = (s.axis a).p) ∧
          (-(2 ^ 31 : Int) ≤ y → y < (2 ^ 31 : Int) → (u.axis a).p = y)) ∧
    (∀ code, s.present .mgp g = true → Gives (.pwmPeriod t g code) s fun u =>
        let n := s.fpwm g / 10000
        let i := min n ((s.mgroup g).period + 1)
        (u.mgroup g).period = i ∧ (u.mgroup g).samples = (min code 1023 :: (s.mgroup g).samples).take 8 ∧
        ((∀ b ∈ members g, (s.axis b).iSet ≠ s.fget Reg.AX_LA_CUR_CEIL b) →
          (s.mgroup g).outRun < 9 ∨ (s.mgroup g).vbusFault = true → ∀ a ∈ members g, (s.axis a).enabled = true →
          let q := (s.axis a).pPrev + ((s.axis a).p - (s.axis a).pPrev) * (i : Rat) / (n : Rat)
          (u.axis a).q = q ∧ (u.axis a).addr = s.addrOf a q ∧ (u.axis a).st = (s.axis a).st) ∧
        ((s.mgroup g).outRun = 9 → (s.mgroup g).vbusFault = false →
          ((u.mgroup g).vbus < (s.fget Reg.MGP_VBUS_LIM_VBUS_MIN g : Rat) ∨
            (s.fget Reg.MGP_VBUS_LIM_VBUS_MAX g : Rat) < (u.mgroup g).vbus) →
          (u.mgroup g).vbusFault = true ∧ ∀ a ∈ members g, (s.axis a).enabled = true → (u.axis a).st = .fault)) ∧
    (∀ a, s.tap.disconnected = false → s.present .ax0 a = true → (s.axis a).enabled = true →
      s.fget Reg.AX_ENC_ENC_CH a = 0x7F → s.fbit Reg.AX_SNS_SNS_EN a = true → Gives (.snsEdge t a) s fun u =>
        (u.axis a).lambda = wrapAngle (((s.axis a).addr : Rat) - (s.fget Reg.AX_SNS_SNS_REF a : Rat)) ∧
        (u.axis a).snsAt = some (max s.now t) ∧ (u.axis a).st = (s.axis a).st ∧ ∀ b, b ≠ a → u.axis b = s.axis b) ∧
    (∀ a level, s.tap.disconnected = false → s.present .ax0 a = true → (s.axis a).limp ≠ some level →
      ((s.axis a).enabled = false ∨ (s.axis a).st = .standstill → Gives (.limitQualify t a .limp level) s fun u =>
        u.axis a = { s.axis a with limp := some level } ∧ ∀ b, b ≠ a → u.axis b = s.axis b) ∧
      ((s.axis a).st = .moving → (s.axis a).inSet = none → s.fbit Reg.AX_CFG_LIM_EN a = true →
        level ≠ (s.fget Reg.AX_CFG_LIM_POL a).testBit 1 → 0 < (s.axis a).v →
        Gives (.limitQualify t a .limp level) s fun u => u.fbit Reg.AX0_CAUSE_LIMIT a = true ∧
          (u.axis a).st = .stopping ∧ (u.axis a).stop = .qdec ∧ (u.axis a).limp = some level ∧
          (u.axis a).v = (s.axis a).v ∧ ∀ b, b ≠ a → u.axis b = s.axis b)) ∧
    (∀ a level, s.tap.disconnected = false → s.present .ax0 a = true → (s.axis a).limn ≠ some level →
      ((s.axis a).enabled = false ∨ (s.axis a).st = .standstill → Gives (.limitQualify t a .limn level) s fun u =>
        u.axis a = { s.axis a with limn := some level } ∧ ∀ b, b ≠ a → u.axis b = s.axis b) ∧
      ((s.axis a).st = .moving → (s.axis a).inSet = none → s.fbit Reg.AX_CFG_LIM_EN a = true →
        level ≠ (s.fget Reg.AX_CFG_LIM_POL a).testBit 0 → (s.axis a).v < 0 →
        Gives (.limitQualify t a .limn level) s fun u => u.fbit Reg.AX0_CAUSE_LIMIT a = true ∧
          (u.axis a).st = .stopping ∧ (u.axis a).stop = .qdec ∧ (u.axis a).limn = some level ∧
          (u.axis a).v = (s.axis a).v ∧ ∀ b, b ≠ a → u.axis b = s.axis b)) ∧
    (∀ a level k, s.tap.disconnected = false → s.present .ax0 a = true → (s.axis a).st = .moving →
      (s.axis a).inSet = some k → (s.mset (k / 2) (k % 2)).active = true → s.fbit Reg.AX_CFG_LIM_EN a = true →
      ((s.axis a).limp ≠ some level → level ≠ (s.fget Reg.AX_CFG_LIM_POL a).testBit 1 → 0 < (s.axis a).v →
        Gives (.limitQualify t a .limp level) s fun u => u.fbit Reg.AX0_CAUSE_LIMIT a = true ∧
          u.mset (k / 2) (k % 2) = { s.mset (k / 2) (k % 2) with stop := .qdec } ∧ (u.axis a).st = .moving) ∧
      ((s.axis a).limn ≠ some level → level ≠ (s.fget Reg.AX_CFG_LIM_POL a).testBit 0 → (s.axis a).v < 0 →
        Gives (.limitQualify t a .limn level) s fun u => u.fbit Reg.AX0_CAUSE_LIMIT a = true ∧
          u.mset (k / 2) (k % 2) = { s.mset (k / 2) (k % 2) with stop := .qdec } ∧ (u.axis a).st = .moving))

/-- R263, R281 to R283, R286: the commands of a motion group.
Completes, on hypotheses about the state and the operands alone: SET_MOVE, SET_STOP, SET_RESUME, VBUS_CLR. -/
def Obligations.SetCommandsAct : Prop :=
  ∀ (s : State) (t : Time) (m : Master) (g : Nat), s.takes m .mgp g →
    (∀ arg, s.gatedMotion g = false → s.membersStand g (arg % 2) = true →
      (∀ e ∈ s.setMembers g (arg % 2), e.2 < 96) →
      ((∃ e ∈ s.setMembers g (arg % 2), (s.sget Reg.AX_TARGET_TARGET e.2 : Rat) ≠ (s.axis e.2).p) →
        Gives (.setMove t m g arg) s fun u => s.carriedOut u .mgp g 1 ∧ (u.mset g (arg % 2)).active = true ∧
          (u.mset g (arg % 2)).startIn = 2 ∧ (u.mset g (arg % 2)).s = 0 ∧
          (∀ e ∈ s.setMembers g (arg % 2), (u.axis e.2).st = .moving ∧
            u.targetOf e.2 = (s.sget Reg.AX_TARGET_TARGET e.2 : Rat) ∧ (u.axis e.2).p = (s.axis e.2).p ∧
            (u.axis e.2).inSet = some (2 * g + arg % 2) ∧
            absRat ((s.sget Reg.AX_TARGET_TARGET e.2 : Rat) - (s.axis e.2).p) ≤ (u.mset g (arg % 2)).leadLen) ∧
          ∀ a, a ∉ (s.setMembers g (arg % 2)).map (·.2) → u.axis a = s.axis a) ∧
      ((∀ e ∈ s.setMembers g (arg % 2), (s.sget Reg.AX_TARGET_TARGET e.2 : Rat) = (s.axis e.2).p) →
        Gives (.setMove t m g arg) s fun u => s.carriedOut u .mgp g 1 ∧ u.fbit Reg.MGP_CAUSE_SET_DONE g = true ∧
          u.axes = s.axes ∧ u.msets = s.msets)) ∧
    (∀ arg, (s.mset g (arg % 2)).active = true → (s.mset g (arg % 2)).stop = .none →
      Gives (.setStop t m g arg) s fun u => s.carriedOut u .mgp g 2 ∧
        u.mset g (arg % 2) = { s.mset g (arg % 2) with stop := .dec } ∧ u.axes = s.axes) ∧
    (∀ arg, s.gatedMotion g = false → s.membersStand g (arg % 2) = true → s.setRemainV g (arg % 2) = true →
      (∀ e ∈ s.setMembers g (arg % 2), e.2 < 96) → (∃ e ∈ s.setMembers g (arg % 2), (s.axis e.2).remain ≠ 0) →
      Gives (.setResume t m g arg) s fun u => s.carriedOut u .mgp g 3 ∧ (u.mset g (arg % 2)).active = true ∧
        (∀ e ∈ s.setMembers g (arg % 2), (u.axis e.2).st = .moving ∧
          u.targetOf e.2 = (s.axis e.2).p + (s.axis e.2).remain ∧ (u.axis e.2).inSet = some (2 * g + arg % 2)) ∧
        ∀ a, a ∉ (s.setMembers g (arg % 2)).map (·.2) → u.axis a = s.axis a) ∧
    ((s.mgroup g).vbusFault = true → s.vbusOk g = true → Gives (.vbusClr t m g) s fun u => s.carriedOut u .mgp g 4 ∧
        u.mgroup g = { s.mgroup g with vbusFault := false, outRun := 0 } ∧ u.axes = s.axes)

/-- R289 to R292, R306, R311: the commands of a Joist page and the grant.
Completes, on hypotheses about the state and the operands alone: JST_START, JST_ABORT, CLEAR, JST_CLR_CNT,
ENGINE_GRANT. -/
def Obligations.JoistCommandsAct : Prop :=
  ∀ (s : State) (t : Time) (m : Master) (e : Nat), s.takes m .jst0 e →
    (∀ arg, (s.jchan e (arg % 16)).st = .idle → arg / 16 % 65536 < s.fget Reg.CH_SIZE_SIZE e (arg % 16) →
      Gives (.jstStart t m e arg) s fun u => s.carriedOut u .jst0 e 1 ∧ (u.jchan e (arg % 16)).st = .pending ∧
        (u.jchan e (arg % 16)).fetching = some (arg / 16 % 65536) ∧ (u.jchan e (arg % 16)).pref = none ∧
        (u.jchan e (arg % 16)).run = none ∧
        ∀ c, c < 16 → c ≠ arg % 16 → u.jchan e c = s.jchan e c) ∧
    (∀ arg, (s.jchan e (arg % 16)).st = .pending → Gives (.jstAbort t m e arg) s fun u =>
        s.carriedOut u .jst0 e 2 ∧ (u.jchan e (arg % 16)).st = .idle ∧ (u.jchan e (arg % 16)).evLatch = false ∧
        (u.jchan e (arg % 16)).fetching = none ∧ ∀ c, c < 16 → c ≠ arg % 16 → u.jchan e c = s.jchan e c) ∧
    (∀ arg, (s.jchan e (arg % 16)).st = .running → Gives (.jstAbort t m e arg) s fun u =>
        s.carriedOut u .jst0 e 2 ∧ (u.jchan e (arg % 16)).st = .idle ∧ (u.jchan e (arg % 16)).run = none ∧
        (u.jchan e (arg % 16)).evLatch = false ∧
        u.fbit Reg.JST0_CAUSE_ABORTED e = true ∧ ((s.engine e).holder = some (arg % 16) → (u.engine e).holder = none) ∧
        ∀ c, c < 16 → c ≠ arg % 16 → u.jchan e c = s.jchan e c) ∧
    (∀ arg, (s.jchan e (arg % 16)).st = .halted → Gives (.clear t m e arg) s fun u => s.carriedOut u .jst0 e 3 ∧
        u.jchan e (arg % 16) = { s.jchan e (arg % 16) with st := .idle, evLatch := false } ∧
        ∀ c, c < 16 → c ≠ arg % 16 → u.jchan e c = s.jchan e c) ∧
    (∀ arg, Gives (.jstClrCnt t m e arg) s fun u => s.carriedOut u .jst0 e 4 ∧ u.jchans = s.jchans ∧
        u.fget Reg.CH_BAD_COUNT e (arg % 16) = 0 ∧ u.fget Reg.CH_BAD_LAST e (arg % 16) = 0 ∧
        (arg % 16 = 15 → u.fget Reg.JST_EVLOST_COUNT e = 0 ∧
          ∀ c, c < 16 → u.fget Reg.CH_BAD_COUNT e c = 0 ∧ u.fget Reg.CH_BAD_LAST e c = 0)) ∧
    (∀ c rest, s.stopsServed → (s.engine e).holder = none → s.candidates e = c :: rest →
      Gives (.engineGrant t e) s fun u => (u.engine e).holder = some c ∧
        u.jchan e c = { s.jchan e c with st := .running } ∧ ∀ d, d < 16 → d ≠ c → u.jchan e d = s.jchan e d)

/-- R292 to R295, R301 to R305. The bytes move at the event that ends the descriptor (log 23, the model's choice).
The model's choices, not the spec's words: a host that returns too few bytes makes the descriptor BAD (log 104); the
bytes move at the event that ends the descriptor (log 23).
Completes, on hypotheses about the state and the operands alone: DESCRIPTOR_FETCH, DESCRIPTOR_START,
DESCRIPTOR_COMPLETE, DESCRIPTOR_ERROR. -/
def Obligations.JoistDescriptorsAct : Prop :=
  ∀ (s : State) (t : Time) (e c : Nat), s.porst = false → s.islandOn 25 = true → s.stopsServed → e < 8 → c < 16 →
    (∀ i a host, (s.jchan e c).fetching = some i → s.spaceOf (s.tableAddr e c i) 32 = some (.spool, a) →
      s.ueWords .spool a 32 = [] → Gives (.descriptorFetch t e c host) s fun u =>
        (u.jchan e c).pref = some (parseDesc i (memBytes 0 s.spool a 32)) ∧ (u.jchan e c).fetching = none ∧
        ∀ d, d < 16 → d ≠ c → u.jchan e d = s.jchan e d) ∧
    (∀ i a, (s.jchan e c).fetching = some i → s.spaceOf (s.tableAddr e c i) 32 = some (.host, a) →
      Gives (.descriptorFetch t e c none) s fun u => (u.jchan e c).st = .halted ∧
        u.fbit Reg.JST0_CAUSE_FETCH_ERR e = true) ∧
    (∀ d host, (s.jchan e c).pref = some d → (s.jchan e c).st = .running → (s.jchan e c).run = none →
      (s.descCheck e c d = none → (d.usesHost = true → s.pcie.bme = true) → Gives (.descriptorStart t e c host) s fun u =>
        (u.jchan e c).run = some d ∧ (u.jchan e c).hostData = host ∧ (u.jchan e c).st = .running ∧
        (u.jchan e c).pref = none ∧ (u.jchan e c).reqs = s.hostReqs d ∧ (d.next ≠ chainEnd → (u.jchan e c).fetching = some d.next)) ∧
      ((s.descCheck e c d).isSome = true ∨ d.usesHost = true ∧ s.pcie.bme = false → Gives (.descriptorStart t e c host) s fun u =>
        u.fbit Reg.JST0_CAUSE_BAD e = true ∧
        u.fget Reg.CH_BAD_COUNT e c = min (s.fget Reg.CH_BAD_COUNT e c + 1) (2 ^ Reg.CH_BAD_COUNT.width - 1) ∧
        u.fget Reg.CH_BAD_LAST e c = d.index % 2 ^ Reg.CH_BAD_LAST.width ∧
        (s.fbit Reg.CH_CFG_HALT_BAD e c = true → (u.jchan e c).st = .halted))) ∧
    (∀ d a, (s.jchan e c).run = some d → (s.jchan e c).cut = none → d.rb = false → spaceName d.src = .host →
      s.spaceOf d.dst d.len = some (.spool, a) → d.srcFix = false → d.dstFix = false → d.swap = 0 → d.evEn = false →
      (s.jchan e c).hostData.length = d.len → d.next = chainEnd → Gives (.descriptorComplete t e c) s fun u =>
        (∀ i, i < d.len → memGet 0 u.spool (a + i) = (s.jchan e c).hostData.getD i 0) ∧
        (∀ b, (b < a ∨ a + d.len ≤ b) → memGet 0 u.spool b = memGet 0 s.spool b) ∧ u.band = s.band ∧
        u.fget Reg.CH_CONS_INDEX e c = d.index % 2 ^ Reg.CH_CONS_INDEX.width ∧
        ((s.jchan e c).evLatch = false → (u.jchan e c).st = .idle ∧ (u.jchan e c).run = none)) ∧
    (∀ d code, (s.jchan e c).run = some d →
      (spaceName d.src = .host ∧ (s.jchan e c).cut = none ∧ (s.jchan e c).hostData.length < d.len ∨
        code = 11 ∧ d.rb = true ∧ d.len ≠ 0 ∧ spaceName d.dst = .host) → Gives (.descriptorError t e c code) s fun u =>
        u.fbit Reg.JST0_CAUSE_BAD e = true ∧
        u.fget Reg.CH_BAD_COUNT e c = min (s.fget Reg.CH_BAD_COUNT e c + 1) (2 ^ Reg.CH_BAD_COUNT.width - 1) ∧
        u.fget Reg.CH_BAD_LAST e c = d.index % 2 ^ Reg.CH_BAD_LAST.width ∧
        (s.fbit Reg.CH_CFG_HALT_BAD e c = true → (u.jchan e c).st = .halted))

/-- R88, R333 to R335, R339, R340: the commands of the two LNK pages.
Completes, on hypotheses about the state and the operands alone: LNK_ON, LNK_OFF, LINK_RESET, LNK_CLR_CNT,
STREAM_RESET, EPOCH_POP, TX_WPTR_WRITE, RX_RPTR_WRITE. -/
def Obligations.BexgarCommandsAct : Prop :=
  ∀ (s : State) (t : Time) (m : Master),
    (s.takesUnlocked m .lnk0 0 → s.lnk.on = false → s.lnkUsable = true → Gives (.lnkOn t m) s fun u =>
        s.carriedOut u .lnk0 0 1 ∧ u.lnk.on = true ∧
        ∀ L, L < 8 → (s.linkEn L = true → (u.bx L).st = .hello ∧ (u.bx L).peerSeen = false) ∧
          (s.linkEn L = false → (u.bx L).st = (s.bx L).st) ∧ (u.bx L).retained = (s.bx L).retained) ∧
    (s.takes m .lnk0 0 → s.lnk.on = true → Gives (.lnkOff t m) s fun u => s.carriedOut u .lnk0 0 2 ∧ u.lnk.on = false ∧
        ∀ L, L < 8 → (u.bx L).st = .down ∧ (u.bx L).retained = (s.bx L).retained) ∧
    (∀ arg, s.takes m .lnk0 0 → s.lnk.on = true → s.linkEn (arg % 8) = true → Gives (.linkReset t m arg) s fun u =>
        s.carriedOut u .lnk0 0 3 ∧ (u.bx (arg % 8)).st = .hello ∧ (u.bx (arg % 8)).peerSeen = false ∧
        ∀ L, L ≠ arg % 8 → u.bx L = s.bx L) ∧
    (s.takes m .lnk0 0 → Gives (.lnkClrCnt t m) s fun u => s.carriedOut u .lnk0 0 4 ∧ u.fget Reg.LNK_TX_FRAMES_COUNT = 0 ∧
        u.fget Reg.LNK_RX_FRAMES_COUNT = 0 ∧ u.fget Reg.LNK_RETX_COUNT = 0 ∧
        u.fget Reg.LNK_PCRC_ERR_COUNT = 0 ∧ u.fget Reg.LNK_DISCARD_COUNT = 0 ∧ u.fget Reg.LNK_DUP_COUNT = 0 ∧
        u.lnk = s.lnk) ∧
    (∀ arg, s.takes m .lnk1 0 →
      (arg.testBit 4 = true → s.fbit Reg.RX_CFG_EN 0 (arg % 16) = false → Gives (.streamReset t m arg) s fun u =>
        s.carriedOut u .lnk1 0 1 ∧ (u.rxs (arg % 16)).wptr = ⟨0, false⟩ ∧ (u.rxs (arg % 16)).rptr = ⟨0, false⟩ ∧
        (u.rxs (arg % 16)).exp = 0 ∧ (u.rxs (arg % 16)).halted = false ∧ (∀ n, n ≠ arg % 16 → u.rxs n = s.rxs n) ∧
        ∀ n, u.txs n = s.txs n) ∧
      (arg.testBit 4 = false → s.fbit Reg.TX_CFG_EN 0 (arg % 16) = false → Gives (.streamReset t m arg) s fun u =>
        s.carriedOut u .lnk1 0 1 ∧ u.txs (arg % 16) = TxStream.reset ∧ (∀ n, n ≠ arg % 16 → u.txs n = s.txs n) ∧
        ∀ n, u.rxs n = s.rxs n)) ∧
    (s.takes m .lnk1 0 → s.lnk.epochs ≠ [] → Gives (.epochPop t m) s fun u => s.carriedOut u .lnk1 0 2 ∧
        u.lnk = { s.lnk with epochs := s.lnk.epochs.drop 1 }) ∧
    (∀ n v, s.answers m .lnk1 0 → n < 16 → Gives (.txWptrWrite t m n v) s fun u =>
        let w := Ptr.ofWord v
        let d := (s.txs n).wptr.ahead w (s.txBytes n)
        u.txs n = (if w.off < s.txBytes n ∧ w.off % 64 = 0 ∧ d ≠ 0 ∧
            (s.txs n).rptr.ahead (s.txs n).wptr (s.txBytes n) + d ≤ s.txBytes n
          then { s.txs n with wptr := w } else s.txs n) ∧ (∀ k, k ≠ n → u.txs k = s.txs k) ∧ ∀ k, u.rxs k = s.rxs k) ∧
    (∀ n v, s.answers m .lnk1 0 → n < 16 → Gives (.rxRptrWrite t m n v) s fun u =>
        let w := Ptr.ofWord v
        let d := (s.rxs n).rptr.ahead w (s.rxBytes n)
        u.rxs n = (if w.off < s.rxBytes n ∧ w.off % 64 = 0 ∧ d ≠ 0 ∧
            d ≤ (s.rxs n).rptr.ahead (s.rxs n).wptr (s.rxBytes n)
          then { s.rxs n with rptr := w } else s.rxs n) ∧ (∀ k, k ≠ n → u.rxs k = s.rxs k) ∧ ∀ k, u.txs k = s.txs k)

/-- R313, R328 to R335: what a Bexgar link receives.
The model's choices, not the spec's words: a NACK of reason GAP waits for the spool, and an ACK beyond the next SEQ is
ignored (log 26); the own identity is a conflict in every state of the link (log 119); a frame of more than 9,216
bytes changes nothing (log 157).
Completes, on hypotheses about the state and the operands alone: BX_BAD_FRAME, BX_DATA_RX, BX_ACK_RX, BX_NACK_RX,
BX_IDENT_RX, BX_STATUS_RX, BX_EPOCH_RX. -/
def Obligations.BexgarReceives : Prop :=
  ∀ (s : State) (t : Time) (L : Nat), s.porst = false → s.islandOn 26 = true → s.stopsServed → s.lnk.on = true →
    s.ethUp L = true → (s.bx L).st ≠ .down → L < 8 →
    (∀ o, o.length + 18 ≤ maxFrame → bxParse o = none → Gives (.bxBadFrame t ⟨L, o⟩) s fun u => u.fbit Reg.LNK0_CAUSE_PCRC_ERR = true ∧ u.lnk = s.lnk ∧
        u.fget Reg.LNK_PCRC_ERR_COUNT = min (s.fget Reg.LNK_PCRC_ERR_COUNT + 1) (2 ^ Reg.LNK_PCRC_ERR_COUNT.width - 1)) ∧
    (∀ o, maxFrame < o.length + 18 → exec (.bxBadFrame t ⟨L, o⟩) s = .next (s.at t).settle) ∧
    (∀ hd tl h bs, bxParse (hd ++ tl) = some (h, bs) → (hd ++ tl).length + 18 ≤ maxFrame → h.type = 1 → (s.bx L).st = .up →
      (serialLater h.ack (s.bx L).nextSeq = false → Gives (.bxDataRx t L hd tl) s fun u =>
        (u.bx L).retained = (s.bx L).retained.filter (fun f => !serialLater h.ack f.seqNo)) ∧
      (h.seqNo = (s.bx L).expect → h.dst = s.lineId → h.sub < 16 →
      s.fbit Reg.RX_CFG_EN 0 h.sub = true → (s.rxs h.sub).halted = false →
      h.srcId = s.fget Reg.RX_CFG_SRC_ID 0 h.sub → s.mem = .ready → 1 ≤ bs.length → bs.length < 2 ^ 31 →
      h.offset = (s.rxs h.sub).exp → (s.rxs h.sub).wptr.off < s.rxBytes h.sub → bs.length ≤ s.rxBytes h.sub →
      bs.length ≤ s.rxBytes h.sub - (s.rxs h.sub).rptr.ahead (s.rxs h.sub).wptr (s.rxBytes h.sub) →
      65536 * s.fget Reg.RX_BASE_BASE 0 h.sub + s.rxBytes h.sub ≤ s.spoolSize →
      Gives (.bxDataRx t L hd tl) s fun u =>
        (u.rxs h.sub).wptr = (s.rxs h.sub).wptr.step bs.length (s.rxBytes h.sub) ∧
        (u.rxs h.sub).exp = ((s.rxs h.sub).exp + bs.length) % 2 ^ 32 ∧ (u.rxs h.sub).rptr = (s.rxs h.sub).rptr ∧
        (u.bx L).expect = ((s.bx L).expect + 1) % 2 ^ 32 ∧
        ∀ i, i < bs.length → memGet 0 u.spool (65536 * s.fget Reg.RX_BASE_BASE 0 h.sub +
          ((s.rxs h.sub).wptr.off + i) % s.rxBytes h.sub) = bs.getD i 0)) ∧
    (∀ o h bs f, bxParse o = some (h, bs) → o.length + 18 ≤ maxFrame → h.type = 2 → (s.bx L).st = .up →
      serialLater h.ack (s.bx L).nextSeq = false → f ∈ (s.bx L).retained →
      serialLater h.ack f.seqNo = true → Gives (.bxAckRx t L o) s fun u =>
        (u.bx L).retained = (s.bx L).retained.filter (fun f => !serialLater h.ack f.seqNo) ∧
        (u.bx L).ackMoved = max s.now t ∧ (u.bx L).retries = 0 ∧ (u.bx L).heardAt = max s.now t ∧
        ∀ K, K ≠ L → u.bx K = s.bx K) ∧
    (∀ hd tl h bs, bxParse (hd ++ tl) = some (h, bs) → (hd ++ tl).length + 18 ≤ maxFrame → h.type = 3 → (s.bx L).st = .up →
      serialLater h.ack (s.bx L).nextSeq = false →
      Gives (.bxNackRx t L hd tl) s fun u => u.fbit Reg.LNK0_CAUSE_NACK_RX = true ∧
        (u.bx L).retained = (s.bx L).retained.filter (fun f => !serialLater h.ack f.seqNo) ∧
        (h.sub = 1 ∨ h.sub = 2 → (u.bx L).resendFrom = some h.ack ∧
          (u.bx L).resendAt = max s.now t + us * s.fget Reg.LNK_NACK_RETRY_T ∧
          u.fget Reg.LNK_RETX_COUNT = s.fget Reg.LNK_RETX_COUNT) ∧
        (h.sub = 0 → s.mem ≠ .ready → (u.bx L).resendFrom = some h.ack ∧ (u.bx L).resendAt = max s.now t) ∧
        (h.sub = 0 → s.mem = .ready → (u.bx L).resendFrom = none ∧ u.fget Reg.LNK_RETX_COUNT =
          min (s.fget Reg.LNK_RETX_COUNT + ((s.bx L).retained.filter (fun f => !serialLater h.ack f.seqNo)).length)
            (2 ^ Reg.LNK_RETX_COUNT.width - 1))) ∧
    (∀ hd tl h bs, bxParse (hd ++ tl) = some (h, bs) → (hd ++ tl).length + 18 ≤ maxFrame → h.type = 4 →
      let id := octet bs 8 % 32
      let seen := (octet bs 10).testBit 0
      Gives (.bxIdentRx t L hd tl) s fun u => (u.bx L).heardAt = max s.now t ∧
        (id = s.lineId → u.fbit Reg.LNK0_CAUSE_ID_CONFLICT = true ∧ (u.bx L).st = (s.bx L).st) ∧
        (id ≠ s.lineId → (s.bx L).st = .hello → seen = false → (u.bx L).peerSeen = true ∧ (u.bx L).st = .hello) ∧
        (id ≠ s.lineId → (s.bx L).st = .hello → seen = true → (u.bx L).st = .up ∧ (u.bx L).expect = 0 ∧
          (u.bx L).nextSeq = (s.bx L).retained.length ∧ u.peerId L = id % 2 ^ Reg.LNK_PEER_ID.width ∧
          u.fbit Reg.LNK0_CAUSE_LINK_UP = true)) ∧
    (∀ hd pl crc pad h bs, bxParse (hd ++ pl ++ crc ++ pad) = some (h, bs) →
      (hd ++ pl ++ crc ++ pad).length + 18 ≤ maxFrame → h.type = 5 → (s.bx L).st = .up →
      Gives (.bxStatusRx t L hd pl crc pad) s fun u =>
        (serialLater h.ack (s.bx L).nextSeq = false →
          (u.bx L).retained = (s.bx L).retained.filter (fun f => !serialLater h.ack f.seqNo)) ∧
        u.fget Reg.LNK_PEER_DEV_OP 0 L = octet bs 0 % 2 ^ Reg.LNK_PEER_DEV_OP.width ∧
        u.fget Reg.LNK_PEER_SEVERITY 0 L = octet bs 2 % 2 ^ Reg.LNK_PEER_SEVERITY.width ∧
        u.fget Reg.LNK_PEER_HAL 0 L = octet bs 3 % 2 ^ Reg.LNK_PEER_HAL.width ∧ (u.bx L).peerAt = some (max s.now t)) ∧
    (∀ hd pl crc pad h bs, bxParse (hd ++ pl ++ crc ++ pad) = some (h, bs) →
      (hd ++ pl ++ crc ++ pad).length + 18 ≤ maxFrame → h.type = 6 → (s.bx L).st = .up →
      Gives (.bxEpochRx t L hd pl crc pad) s fun u =>
        (serialLater h.ack (s.bx L).nextSeq = false →
          (u.bx L).retained = (s.bx L).retained.filter (fun f => !serialLater h.ack f.seqNo)) ∧
        (s.lnk.epochs.length < 16 → u.lnk.epochs = s.lnk.epochs ++
          [⟨h.srcId, octet bs 0 % 128, leAt bs 4 4, BitVec.ofNat 64 (leAt bs 8 8)⟩]) ∧
        (16 ≤ s.lnk.epochs.length → u.lnk.epochs = s.lnk.epochs ∧ u.fbit Reg.LNK0_CAUSE_EPOCH_OVF = true))

/-- R328, R329, R330, R332, R333, R335: what a Bexgar link sends.
The model's choices, not the spec's words: RTO at RETRY_MAX leads to HELLO (log 19); no frame is longer than 9,216
bytes (log 157).
Completes, on hypotheses about the state and the operands alone: BX_STATUS_TX, BX_DATA_TX, BX_ACK_TX, BX_IDENT_TX,
BX_RETRY_RESEND, RTO, BX_LINK_TIMEOUT. -/
def Obligations.BexgarSends : Prop :=
  (∀ (id L : Nat) (f : BxOut) (pad : List Byte), id < 32 → 1 ≤ f.type → f.type ≤ 6 → f.dst < 32 → f.seqNo < 2 ^ 32 →
    f.ack < 2 ^ 32 → f.sub < 256 → f.offset < 2 ^ 32 → f.payload.length < 2 ^ 16 →
    bxParse (bxOctets id L f ++ pad) =
      some (⟨f.type, id, L % 4, f.dst, f.bcast, f.seqNo, f.ack, f.sub, f.offset⟩, f.payload)) ∧
  ∀ (s : State) (t : Time), s.porst = false → s.islandOn 26 = true → s.stopsServed →
    ((∀ a, s.lnk.statusAt = some a → a + ms * max 1 (s.fget Reg.LNK_STATUS_T_STATUS_T) ≤ max s.now t) →
      Gives (.bxStatusTx t) s fun u => ∀ L, L < 8 → s.ethUp L = true →
        ((s.bx L).st = .up → (u.bx L).taken = 0 ∧ ∃ f, (u.bx L).out = some f ∧ f.type = 5 ∧ f.bcast = true ∧
          f.ack = (s.bx L).expect ∧ f.dst = s.peerId L ∧ f.payload.length = 16) ∧
        ((s.bx L).st ≠ .up → u.bx L = s.bx L)) ∧
    ∀ L, L < 8 → s.lnk.on = true → s.ethUp L = true →
      (∀ n, (s.bx L).st = .up → (s.bx L).resendFrom = none → s.mem = .ready →
        ((List.range 16).map fun k => (Sparse.get (fun _ => 15) s.lnk.turn L + 1 + k) % 16).find? (s.canSend L) = some n →
        Gives (.bxDataTx t L) s fun u => ∃ f, (u.bx L).retained = (s.bx L).retained ++ [f] ∧
          f.seqNo = (s.bx L).nextSeq ∧ f.txStream = n ∧ f.offset = (s.txs n).offs ∧ f.len = s.nextLen n ∧
          (u.bx L).nextSeq = ((s.bx L).nextSeq + 1) % 2 ^ 32 ∧
          (u.txs n).rptr = (s.txs n).rptr.step (s.nextLen n) (s.txBytes n) ∧
          (u.txs n).offs = ((s.txs n).offs + s.nextLen n) % 2 ^ 32 ∧
          ∃ g, (u.bx L).out = some g ∧ g.type = 1 ∧ g.seqNo = f.seqNo ∧ g.offset = f.offset ∧
          g.dst = s.fget Reg.TX_CFG_DST_ID 0 n ∧ g.sub = s.fget Reg.TX_CFG_DST_STREAM 0 n ∧
          g.payload.length = s.nextLen n ∧ ∀ i, i < s.nextLen n →
            let a := 65536 * s.fget Reg.TX_BASE_BASE 0 n + ((s.txs n).rptr.off + i) % s.txBytes n
            s.badWord .spool (a / 8) = false → g.payload.getD i 0 = memGet 0 s.spool a) ∧
      ((s.bx L).st = .up → 0 < (s.bx L).taken → (max 1 (s.fget Reg.LNK_ACK_ACK_N) ≤ (s.bx L).taken ∨
          (s.bx L).takenAt + us * s.fget Reg.LNK_ACK_ACK_T ≤ max s.now t) → Gives (.bxAckTx t L) s fun u =>
          (u.bx L).taken = 0 ∧ ∃ f, (u.bx L).out = some f ∧ f.type = 2 ∧ f.ack = (s.bx L).expect) ∧
      ((s.bx L).st = .hello → (∀ a, (s.bx L).identAt = some a → a + ms ≤ max s.now t) → Gives (.bxIdentTx t L) s fun u =>
          ∃ f, (u.bx L).out = some f ∧ f.type = 4 ∧ f.payload.length = 16) ∧
      (∀ a, (s.bx L).st = .up → (s.bx L).resendFrom = some a → (s.bx L).resendAt ≤ max s.now t → s.mem = .ready →
        Gives (.bxRetryResend t L) s fun u => (u.bx L).resendFrom = none ∧ (u.bx L).retained = (s.bx L).retained ∧
          u.fget Reg.LNK_RETX_COUNT =
            min (s.fget Reg.LNK_RETX_COUNT + ((s.bx L).retained.filter (fun f => !serialLater a f.seqNo)).length)
              (2 ^ Reg.LNK_RETX_COUNT.width - 1)) ∧
      (∀ f rest, (s.bx L).st = .up → (s.bx L).retained = f :: rest →
        (s.bx L).ackMoved + us * s.fget Reg.LNK_RTO_RTO ≤ max s.now t → Gives (.rto t L) s fun u =>
          u.fbit Reg.LNK0_CAUSE_RTO = true ∧ (u.bx L).retries = (s.bx L).retries + 1 ∧
          (u.bx L).retained = (s.bx L).retained ∧
          (u.bx L).st = (if max 1 (s.fget Reg.LNK_RTO_RETRY_MAX) ≤ (s.bx L).retries + 1 then .hello else .up)) ∧
      ((s.bx L).st = .up → (s.bx L).heardAt + 3 * ms * max 1 (s.fget Reg.LNK_STATUS_T_STATUS_T) ≤ max s.now t →
        Gives (.bxLinkTimeout t L) s fun u => (u.bx L).st = .hello ∧ (u.bx L).peerSeen = false ∧
          u.fbit Reg.LNK0_CAUSE_LINK_FAIL = true ∧ ∀ K, K ≠ L → u.bx K = s.bx K)

/-- R313, R315 to R318, R323, R336, R338. Stamps count 1/256 ns; their error is a free value within 64 (log 27).
The model's choices, not the spec's words: a frame of more than 9,216 bytes is not counted (log 157); what counts as a
good frame, and that a dropped Sync still pairs (log 122); the error of a stamp is a free value (log 27).
Completes, on hypotheses about the state and the operands alone: ETH_ENABLE, ETH_DISABLE, ETH_CLR_CNT, TXTS_POP,
ETH_LINK_UP, ETH_LINK_DOWN, ETH_FRAME_RX, PTP_FRAME_TX. -/
def Obligations.EthernetPortsAct : Prop :=
  ∀ (s : State) (t : Time) (m : Master) (e : Nat),
    (s.takesUnlocked m .eth e → s.gatedEth e = false → (s.eth e).st = .disabled → s.fget Reg.ETH_CFG_MODE e ≠ 3 →
      s.fget Reg.ETH_CFG_FEC25 e ≠ 3 → Gives (.ethEnable t m e) s fun u => s.carriedOut u .eth e 1 ∧
        (u.eth e).st = .training ∧ (u.eth e).mode = s.fget Reg.ETH_CFG_MODE e ∧ (u.eth e).up = [] ∧
        ∀ k, k ≠ e → u.eth k = s.eth k) ∧
    (s.takes m .eth e → (s.eth e).st ≠ .disabled → Gives (.ethDisable t m e) s fun u => s.carriedOut u .eth e 2 ∧
        u.eth e = { s.eth e with st := .disabled, mode := 0, up := [], anDone := 0 } ∧ ∀ k, k ≠ e → u.eth k = s.eth k) ∧
    (s.takes m .eth e → Gives (.ethClrCnt t m e) s fun u => s.carriedOut u .eth e 3 ∧
        u.fget Reg.ETH_TX_FRAMES_COUNT e = 0 ∧ u.fget Reg.ETH_RX_FRAMES_COUNT e = 0 ∧
        u.fget Reg.ETH_FCS_ERR_COUNT e = 0 ∧ u.fget Reg.ETH_RX_DROP_COUNT e = 0 ∧
        u.fget Reg.ETH_PAUSE_RX_COUNT e = 0 ∧ u.eths = s.eths) ∧
    (s.takes m .hal1 0 → s.hal.stamps ≠ [] → Gives (.txtsPop t m) s fun u => s.carriedOut u .hal1 0 1 ∧
        u.hal = { s.hal with stamps := s.hal.stamps.drop 1 }) ∧
    (s.porst = false → s.islandOn 26 = true → s.stopsServed → e < 2 →
      (∀ k, k < 4 → (s.eth e).st ≠ .disabled → (s.eth e).lanes.contains k = true → (s.eth e).up.contains k = false →
        Gives (.ethLinkUp t e k) s fun u => (∀ j, (u.eth e).up.contains j = true ↔ j = k ∨ (s.eth e).up.contains j = true) ∧
          u.fbit Reg.ETH_CAUSE_LINK_UP e = true ∧
          (u.eth e).st = (if (s.eth e).lanes.all (fun j => j == k || (s.eth e).up.contains j) then .up else .partialUp)) ∧
      (∀ k, k < 4 → (s.eth e).up.contains k = true → (s.eth e).st ≠ .disabled → Gives (.ethLinkDown t e k) s fun u =>
          (u.eth e).up = (s.eth e).up.filter (· ≠ k) ∧ u.fbit Reg.ETH_CAUSE_LINK_DOWN e = true ∧
          (u.bx (4 * e + k)).st ≠ .up ∧ ((u.eth e).up = [] → (u.eth e).st = .training)) ∧
      ∀ L, L < 8 → linkPort L = e → s.ethUp L = true →
        (∀ f, maxFrame < f.octets.length → Gives (.ethFrameRx t L f) s fun u => u.eths = s.eths ∧ u.hal = s.hal ∧
          u.fget Reg.ETH_RX_FRAMES_COUNT e = s.fget Reg.ETH_RX_FRAMES_COUNT e) ∧
        (∀ f, f.octets.length ≤ maxFrame → fcsGood f.octets = false → Gives (.ethFrameRx t L f) s fun u =>
          u.fbit Reg.ETH_CAUSE_FCS_ERR e = true ∧ u.hal = s.hal ∧
          u.fget Reg.ETH_FCS_ERR_COUNT e = min (s.fget Reg.ETH_FCS_ERR_COUNT e + 1) (2 ^ Reg.ETH_FCS_ERR_COUNT.width - 1)) ∧
        (∀ f, f.octets.length ≤ maxFrame → fcsGood f.octets = true → Gives (.ethFrameRx t L f) s fun u =>
          u.fget Reg.ETH_RX_FRAMES_COUNT e =
            min (s.fget Reg.ETH_RX_FRAMES_COUNT e + 1) (2 ^ Reg.ETH_RX_FRAMES_COUNT.width - 1) ∧
          (isPause f.octets = true → u.fbit Reg.ETH_CAUSE_PAUSE_RX e = true ∧ u.hal = s.hal) ∧
          (isPause f.octets = false → s.toLink L f.octets = true → (etherBody f.octets).1 ≠ bexgarType →
            (f.fwFull = true ∨ s.devOp = .boot → u.fbit Reg.ETH_CAUSE_RX_DROP e = true ∧ u.eths = s.eths ∧
              u.fget Reg.ETH_RX_DROP_COUNT e = min (s.fget Reg.ETH_RX_DROP_COUNT e + 1) (2 ^ Reg.ETH_RX_DROP_COUNT.width - 1)) ∧
            (s.devOp = .boot → u.hal.theta = s.hal.theta ∧ u.hal.syncs = s.hal.syncs) ∧
            (f.fwFull = false → s.devOp ≠ .boot → ∃ x, (u.eth e).rx = some ⟨f.octets, x⟩ ∧ x.isSome = (eventOf f.octets).isSome) ∧
            ∀ a p, eventOf f.octets = some (a, p) → p.msgType = 0 → p.twoStep = false → s.paired L p = true → s.devOp ≠ .boot →
              ∃ err : Int, -64 ≤ err ∧ err ≤ 64 ∧
                u.hal.theta = (((s.at t).halTime % halModulus / 2 ^ 24 : Nat) + err - s.fget Reg.ETH_RX_LAT_LAT e f.lane -
                  s.fget Reg.ETH_DESKEW_SKEW e f.lane) * 256 - p.t1 * 65536 - p.corr -
                  signed 32 (s.fget Reg.HAL_MPD_MPD) * 256)) ∧
        (∀ lane one req o, o.length + 4 ≤ maxFrame → eventOf o = none → Gives (.ptpFrameTx t L lane one ⟨req, o⟩) s fun u =>
          (u.eth e).tx = withFcs o ∧ u.hal = s.hal) ∧
        (∀ lane req o a p, o.length + 4 ≤ maxFrame → eventOf o = some (a, p) →
          Gives (.ptpFrameTx t L lane true ⟨req, o⟩) s fun u => ∃ err : Int, -64 ≤ err ∧ err ≤ 64 ∧
            (u.eth e).tx = withFcs (stampOneStep o a p (((s.at t).halTime % halModulus / 2 ^ 24 : Nat) + err +
              s.fget Reg.ETH_TX_LAT_LAT e lane) req) ∧ u.hal = s.hal) ∧
        (∀ lane req o a p, o.length + 4 ≤ maxFrame → eventOf o = some (a, p) →
          Gives (.ptpFrameTx t L lane false ⟨req, o⟩) s fun u => (u.eth e).tx = withFcs o ∧
          (s.hal.stamps.length < 16 → ∃ x : Nat, u.hal.stamps = s.hal.stamps ++ [⟨L, p.msgType, p.domain, p.seqId, x⟩]) ∧
          (16 ≤ s.hal.stamps.length → u.hal.stamps = s.hal.stamps ∧ u.fbit Reg.HAL0_CAUSE_TS_OVF = true)))

/-- R319, R323 to R326, R337. Offsets count 2⁻¹⁶ ns, time 2⁻³² ns. That HOLD_T counts from a SERVO_RESET, and from the
release of PORST_N where no offset has come, is the model's choice (log 150).
The model's choices, not the spec's words: the integral and the adjustment are exact (log 11); from which offset on
the servo is LOCKING or LOCKED, and that CANCEL_STEP sets no cause (log 123); where HOLD_T counts from (log 150).
Completes, on hypotheses about the state and the operands alone: OFFSET, TIME_STEP, HOLDOVER_TIMEOUT, PAIR_MISS,
SET_TIME, CANCEL_STEP, SERVO_RESET. -/
def Obligations.HalyardServoActs : Prop :=
  ∀ (s : State) (t : Time) (m : Master),
    (s.takes m .hal0 0 → s.fbit Reg.HAL_CFG_SRC = false → s.devOp = .boot → Gives (.offset t m) s fun u =>
        s.carriedOut u .hal0 0 1 ∧ u.hal = s.hal) ∧
    (s.takes m .hal0 0 → s.fbit Reg.HAL_CFG_SRC = false → s.devOp ≠ .boot →
      let th := signed 64 (s.wide Reg.HAL_OFS_IN_LO_OFS Reg.HAL_OFS_IN_HI_OFS) * 256
      let x : Rat := (th : Rat) / 65536
      let sgn : Int := if x < 0 then -1 else 1
      Gives (.offset t m) s fun u => s.carriedOut u .hal0 0 1 ∧ u.hal.theta = th ∧ u.hal.thetaAt = max s.now t ∧
        (absRat x ≤ (s.fget Reg.HAL_STEP_THR_THR : Rat) →
          u.hal.integ = clampTo s.slewMax (s.hal.integ + (s.fget Reg.HAL_KI_KI : Rat) / 65536 * x) ∧
          u.hal.adj = clampTo s.slewMax ((s.fget Reg.HAL_KP_KP : Rat) / 65536 * x + u.hal.integ) ∧
          u.hal.stepPend = false ∧ (s.hal.stepPend = true → u.fbit Reg.HAL0_CAUSE_STEP_CANCEL = true)) ∧
        ((s.fget Reg.HAL_STEP_THR_THR : Rat) < absRat x → u.hal.adj = sgn * (s.slewMax : Rat) ∧ u.hal.integ = s.hal.integ ∧
          u.hal.nb = (if 0 < s.hal.nb ∧ s.hal.lastSign = sgn then s.hal.nb + 1 else 1) ∧
          (u.hal.stepPend = true ↔ s.hal.stepPend = true ∨ max 1 (s.fget Reg.HAL_STEP_STEP_N) ≤ u.hal.nb)) ∧
        (u.hal.servo = .locked ↔ absRat x ≤ (s.fget Reg.HAL_LOCK_LOCK_THR : Rat) ∧ s.hal.servo ≠ .holdover ∧
          (s.hal.servo = .locked ∨ s.fget Reg.HAL_LOCK_LOCK_N ≤ s.hal.lockRun + 1))) ∧
    (s.porst = false → s.islandOn 26 = true → s.stopsServed →
      (s.hal.stepPend = true → s.mayStep = true → Gives (.timeStep t) s fun u => u.hal.stepPend = false ∧
        u.hal.adj = clampTo s.slewMax s.hal.integ ∧ u.hal.nb = 0 ∧ u.fbit Reg.HAL0_CAUSE_TIME_STEP = true ∧
        (u.halTime : Int) = ((s.at t).halTime + (s.at t).pendAmount) % (halModulus : Int)) ∧
      (s.hal.servo ≠ .holdover → max s.hal.thetaAt s.relAt + ms * s.fget Reg.HAL_HOLD_T_HOLD_T ≤ max s.now t → Gives (.holdoverTimeout t) s fun u =>
          u.hal.servo = .holdover ∧ u.hal.adj = clampTo s.slewMax s.hal.integ ∧ u.hal.integ = s.hal.integ) ∧
      (∀ w ∈ s.hal.syncs, w.at0 + 1000 * ms ≤ max s.now t → Gives (.pairMiss t) s fun u =>
          u.fbit Reg.HAL0_CAUSE_PAIR_MISS = true ∧
          u.hal.syncs = s.hal.syncs.filter fun w => decide (max s.now t < w.at0 + 1000 * ms))) ∧
    (s.takesUnlocked m .hal0 0 → s.mayStep = true → s.fget Reg.HAL_SET_NS_NS ≤ 999999999 →
      Gives (.setTime t m) s fun u => s.carriedOut u .hal0 0 2 ∧ u.hal.stepPend = false ∧
        u.fbit Reg.HAL0_CAUSE_TIME_STEP = true ∧ u.halTime =
          (s.wide Reg.HAL_SET_SEC_LO_SEC Reg.HAL_SET_SEC_HI_SEC * 1000000000 + s.fget Reg.HAL_SET_NS_NS) * 2 ^ 32 % halModulus) ∧
    (s.takes m .hal0 0 → s.hal.stepPend = true → Gives (.cancelStep t m) s fun u => s.carriedOut u .hal0 0 3 ∧
        u.hal = { s.hal with stepPend := false }) ∧
    (s.takes m .hal0 0 → Gives (.servoReset t m) s fun u => s.carriedOut u .hal0 0 4 ∧ u.hal.servo = .free ∧
        u.hal.integ = 0 ∧ u.hal.adj = 0 ∧ u.hal.stepPend = false ∧ u.hal.nb = 0 ∧ u.halTime % halModulus =
          (s.at t).halTime % halModulus)

/-- R341 to R347, R351, R357. That the link is down after a hot reset is PRESUMED (log 6), and so are the numbers of
AER's status bits, which errors bear a header and what AER keeps over a reset (log 151).
The model's choices, not the spec's words: a poisoned write in D3hot does nothing (log 108); how Unsupported Requests
and poison are counted (log 107); AER's bit numbers, severities, header log and report (log 151); the link after a hot
reset (log 6).
Completes, on hypotheses about the state and the operands alone: PCIE_LINK_UP, PCIE_RESET, AER_ERROR, POISONED_WRITE,
CONFIGURATION_REQUEST, MSI_SEND, EOI, PEN_CLR_CNT. -/
def Obligations.PcieAndPennantAct : Prop :=
  ∀ (s : State) (t : Time), s.porst = false → s.islandOn 0 = true → s.stopsServed →
    let like (u : State) (p : Pcie) : Prop := u.pcie = { p with
      actWas := u.pcie.actWas, msiPend := u.pcie.msiPend, msiPendBit := u.pcie.msiPendBit, msiSent := u.pcie.msiSent }
    let uncMore : Nat := min (s.fget Reg.PEN_AER_UNC_COUNT + 1) (2 ^ Reg.PEN_AER_UNC_COUNT.width - 1)
    let corMore : Nat := min (s.fget Reg.PEN_AER_COR_COUNT + 1) (2 ^ Reg.PEN_AER_COR_COUNT.width - 1)
    (∀ speed width, Gives (.pcieLinkUp t speed width) s fun u =>
        (trains speed width = true → u.pcie.linkUp = true ∧ u.pcie.speed = speed ∧
          u.pcie.width = width ∧ u.pcie.bme = s.pcie.bme ∧ u.fbit Reg.PEN_CAUSE_LINK_UP = true) ∧
        (trains speed width = false → like u s.pcie)) ∧
    (∀ k, Gives (.pcieReset t k) s fun u => u.pcie.linkUp = (k == .flr && s.pcie.linkUp) ∧
        u.pcie.bme = false ∧ u.pcie.msiEn = false ∧ u.pcie.masked = false ∧
        u.pcie.mps = Pcie.reset.mps ∧ u.pcie.mrrs = Pcie.reset.mrrs ∧ u.pcie.bar0 = 0 ∧ u.pcie.bar2 = 0 ∧ u.pcie.bar4 = 0 ∧
        u.pcie.msiAddr = 0 ∧ u.pcie.msiData = 0 ∧ u.fbit Reg.PEN_CAUSE_LINK_DOWN = true ∧
        (k = .flr → u.fbit Reg.PEN_CAUSE_FLR_EV = true)) ∧
    (∀ err header, aerCorrectable err = true → Gives (.aerError t ⟨err, header⟩) s fun u =>
        u.fbit Reg.PEN_CAUSE_AER_COR = true ∧ u.fget Reg.PEN_AER_COR_COUNT = corMore ∧
        u.fget Reg.PEN_AER_UNC_COUNT = s.fget Reg.PEN_AER_UNC_COUNT ∧
        like u { s.pcie with
          aerCor := s.pcie.aerCor ||| BitVec.ofNat 32 (2 ^ aerBit err)
          aerReport := if s.pcie.linkUp then some .correctable else s.pcie.aerReport }) ∧
    (∀ err header, aerCorrectable err = false → Gives (.aerError t ⟨err, header⟩) s fun u =>
        u.fbit Reg.PEN_CAUSE_AER_UNC = true ∧ u.fget Reg.PEN_AER_UNC_COUNT = uncMore ∧
        u.pcie.aerUnc = s.pcie.aerUnc ||| BitVec.ofNat 32 (2 ^ aerBit err) ∧
        (s.pcie.aerFirst = none → u.pcie.aerFirst = some err ∧ u.pcie.aerCor = s.pcie.aerCor ∧
          u.fget Reg.PEN_AER_COR_COUNT = s.fget Reg.PEN_AER_COR_COUNT ∧
          u.pcie.aerReport = (if s.pcie.linkUp then
            some (if s.pcie.aerSev.getLsbD (aerBit err) then .fatal else .nonFatal) else s.pcie.aerReport) ∧
          (aerLogsHeader err = true → u.pcie.aerHeader = (header ++ [0, 0, 0, 0]).take 4)) ∧
        (s.pcie.aerFirst.isSome = true → u.pcie.aerFirst = s.pcie.aerFirst ∧ u.pcie.aerHeader = s.pcie.aerHeader ∧
          (aerLogsHeader err = true → u.fbit Reg.PEN_CAUSE_AER_COR = true ∧ u.fget Reg.PEN_AER_COR_COUNT = corMore))) ∧
    (Gives (.poisonedWrite t) s fun u => s.bytesKept u ∧
        (s.pcie.d0 = true → u.fbit Reg.PEN_CAUSE_POISON = true ∧ u.fbit Reg.PEN_CAUSE_AER_UNC = true ∧
          u.fget Reg.PEN_AER_UNC_COUNT = uncMore) ∧
        (s.pcie.d0 = false → like u s.pcie ∧ u.fget Reg.PEN_AER_UNC_COUNT = s.fget Reg.PEN_AER_UNC_COUNT)) ∧
    (∀ req, Gives (.configurationRequest t req) s fun u =>
      let sets (p : Pcie) : Prop := like u { p with answer := some (.ok 0) }
      let refused : Prop := u.pcie.answer = some .unsupported ∧ u.fbit Reg.PEN_CAUSE_AER_UNC = true ∧
        u.fget Reg.PEN_AER_UNC_COUNT = uncMore
      match req with
      | .busMaster v => sets { s.pcie with bme := v }
      | .msiEnable v => sets { s.pcie with msiEn := v }
      | .msiMask v => sets { s.pcie with masked := v }
      | .msiAddress a => sets { s.pcie with msiAddr := a }
      | .msiData d => sets { s.pcie with msiData := d }
      | .d0 v => sets { s.pcie with d0 := v }
      | .maxPayload n => sets { s.pcie with mps := min 512 n }
      | .maxReadReq n => sets { s.pcie with mrrs := n }
      | .bar n v => sets (s.pcie.putBar n v.toNat)
      | .aerSeverity v => sets { s.pcie with aerSev := v }
      | .aerClear c v => sets (s.pcie.clearAer c v)
      | .read x => like u { s.pcie with answer := some (.ok (s.cfgRead x)) }
      | .ioRequest => refused
      | .lockedRead => refused
      | .type1 => refused) ∧
    (s.pcie.msiPend = true → s.msiReady = true → (s.at t).actNow = true → s.pcie.actWas = true → Gives (.msiSend t) s fun u =>
        u.pcie.msiPend = false ∧ u.pcie.msiPendBit = false ∧ u.pcie.msiSent = some (s.pcie.msiAddr, s.pcie.msiData) ∧
        u.fget Reg.PEN_MSI_CNT_COUNT = min (s.fget Reg.PEN_MSI_CNT_COUNT + 1) (2 ^ Reg.PEN_MSI_CNT_COUNT.width - 1)) ∧
    ∀ m, s.takes m .pen 0 →
      (s.fbit Reg.PEN_CTL_MSI_MIRROR = true → (s.at t).actNow = true → s.pcie.actWas = true → Gives (.eoi t m) s fun u =>
        s.carriedOut u .pen 0 1 ∧ (s.msiReady = true → u.pcie.msiSent = some (s.pcie.msiAddr, s.pcie.msiData) ∧
          u.fget Reg.PEN_MSI_CNT_COUNT =
            min (s.fget Reg.PEN_MSI_CNT_COUNT + 1) (2 ^ Reg.PEN_MSI_CNT_COUNT.width - 1)) ∧
        (s.msiReady = false → u.pcie.msiPend = true)) ∧
      (Gives (.penClrCnt t m) s fun u => s.carriedOut u .pen 0 2 ∧ u.fget Reg.PEN_AER_COR_COUNT = 0 ∧
        u.fget Reg.PEN_AER_UNC_COUNT = 0 ∧ u.fget Reg.PEN_MSI_CNT_COUNT ≤ 1 ∧
        (s.fbit Reg.PEN_CTL_MSI_MIRROR = false ∨ s.pcie.actWas = true → u.fget Reg.PEN_MSI_CNT_COUNT = 0))

/-- R363, R367 to R370, R372, R374, R375.
Completes, on hypotheses about the state and the operands alone: FAULT_INTAKE, MSG_LOST. -/
def Obligations.KingpostIntakeReacts : Prop :=
  ∀ (s : State) (t : Time), s.porst = false → s.stopsServed →
    (∀ w, s.islandOn 27 = true → s.heads = [w] → Gives (.faultIntake t) s fun u =>
        u.kps.nextSeq = (s.kps.nextSeq + 1) % 65536 ∧
        (Sparse.get (fun _ => HistEntry.reset) u.kps.hist (s.kps.nextSeq % 32)).msg = w ∧
        (Sparse.get (fun _ => HistEntry.reset) u.kps.hist (s.kps.nextSeq % 32)).seqNo = s.kps.nextSeq ∧
        u.fget Reg.KPS_MSG_CNT_COUNT = min (s.fget Reg.KPS_MSG_CNT_COUNT + 1) (2 ^ Reg.KPS_MSG_CNT_COUNT.width - 1) ∧
        (msgSev w = 0 → u.kps.slots = s.kps.slots ∧ u.ports = s.ports ∧ u.axes = s.axes ∧
          u.kps.portClear = s.kps.portClear ∧ u.kps.dsafe = s.kps.dsafe ∧
          ∀ i, i < 30 → (u.path i).queue = (s.path i).queue.tail) ∧
        (∀ i, 0 < msgSev w → s.kps.findSlot (msgSource w) (msgKind w) = some i →
          (u.kps.slot i).sev = min 3 (max (msgSev w) ((s.kps.slot i).sev + 1)) ∧
          (u.kps.slot i).count = min ((s.kps.slot i).count + 1) 255 ∧ ∀ k, k ≠ i → u.kps.slot k = s.kps.slot k) ∧
        (∀ i, 0 < msgSev w → s.kps.findSlot (msgSource w) (msgKind w) = none → s.kps.freeSlot = some i →
          u.kps.slot i = ⟨true, msgSource w, msgKind w, msgSev w, 1⟩ ∧ ∀ k, k ≠ i → u.kps.slot k = s.kps.slot k) ∧
        (msgSev w = 3 → u.kps.dsafe = true ∧ u.kps.deviceLatch = true ∧ u.kps.portClear = [] ∧ u.kps.motionClear = [] ∧
          (∀ p, p < s.portCount → (s.port p).st ≠ .off → (u.port p).st = .safe) ∧
          (∀ p, p < s.portCount → (s.port p).st ≠ .off → (s.port p).st ≠ .safe → (u.port p).pwrEn = false) ∧
          ∀ a, a < 96 → (s.axis a).enabled = true → (u.axis a).st = .fault) ∧
        (msgSev w = 2 → msgClass w = 1 → msgInst w < s.portCount →
          s.kps.findSlot (msgSource w) (msgKind w) = none → s.kps.freeSlot ≠ none →
          u.kps.portClear.contains (msgInst w) = false ∧
          ((s.port (msgInst w)).st ≠ .off → (u.port (msgInst w)).st = .safe) ∧
          ∀ q, q ≠ msgInst w → (u.port q).st = (s.port q).st)) ∧
    (∀ i, s.islandOn i = true → 0 < (s.path i).lost → (s.path i).queue.length < 16 → Gives (.msgLost t i) s fun u =>
        (u.path i).lost = 0 ∧ (u.path i).queue = (s.path i).queue ++ [msgWord 5 i kindMsgLost 1 (s.path i).lost] ∧
        ∀ k, k ≠ i → u.path k = s.path k)

/-- R358 to R362, R377 to R379, R381, R385, R394, R477.
The model's choices, not the spec's words: a failed periodic self-test leads to LATCHED (log 82); the MGMT_WDOG event
(log 80).
Completes, on hypotheses about the state and the operands alone: STB_STUCK, STB_ROGUE, LOCKSTEP, CLK_LOSS, KPS_WDOG,
HEARTBEAT, MGMT_WDOG, SAFE_RB, PERIODIC_SELFTEST, SELFTEST_DONE, CFG_CRC_UPDATE. -/
def Obligations.DetectorsStopTheMachine : Prop :=
  ∀ (s : State) (t : Time), s.porst = false → s.stopsServed →
    (∀ p x high, s.hasPort p = true → (s.path (9 + p / 12)).queue.length < 16 →
      ((s.at t).stuckNow p high = true → Gives (.stbStuck t p ⟨x, high⟩) s fun u => u.kps.portClear.contains p = false ∧
        msgWord 1 p kindStbStuck 2 x ∈ (u.path (9 + p / 12)).queue ∧
        ((s.port p).st ≠ .off → (u.port p).st = .safe) ∧
        ((s.port p).st ≠ .off → (s.port p).st ≠ .safe → (u.port p).pwrEn = false) ∧
        ∀ q, q ≠ p → (u.port q).st = (s.port q).st) ∧
      ((s.at t).stuckNow p high = false → Gives (.stbStuck t p ⟨x, high⟩) s fun u => u.ports = s.ports ∧ u.kps = s.kps) ∧
      ((s.at t).rogueNow p x high = true → Gives (.stbRogue t p ⟨x, high⟩) s fun u => u.kps.portClear.contains p = false ∧
        msgWord 1 p kindStbRogue 2 x ∈ (u.path (9 + p / 12)).queue ∧
        ((s.port p).st ≠ .off → (u.port p).st = .safe) ∧
        ((s.port p).st ≠ .off → (s.port p).st ≠ .safe → (u.port p).pwrEn = false) ∧
        ∀ q, q ≠ p → (u.port q).st = (s.port q).st) ∧
      ((s.at t).rogueNow p x high = false → Gives (.stbRogue t p ⟨x, high⟩) s fun u => u.ports = s.ports ∧ u.kps = s.kps)) ∧
    (s.islandOn 27 = true →
      (Gives (.lockstep t) s fun u => u.kps.dsafe = true ∧ u.kps.deviceLatch = true ∧ u.kps.st = .latched ∧
        u.kps.portClear = []) ∧
      (∀ i d, s.islandOn i = true → Gives (.clkLoss t i d) s fun u => u.kps.dsafe = true ∧ u.kps.deviceLatch = true ∧
        u.kps.tripped.contains (i, d) = true ∧ u.kps.portClear = [] ∧
        u.kps.st = (if s.kps.st = .run then .hold else s.kps.st)) ∧
      (s.kps.st ≠ .selftest → s.thm.shutdown = false → s.kps.heartbeatAt + 2 * ms ≤ max s.now t →
        (s.path 29).queue.length < 16 → Gives (.kpsWdog t) s fun u => u.kps.dsafe = true ∧ u.kps.st = .latched ∧
          msgWord 0 14 kindKpsWdog 3 0 ∈ (u.path 29).queue) ∧
      (Gives (.heartbeat t) s fun u => u.kps = { s.kps with heartbeatAt := max s.now t } ∧ u.ports = s.ports) ∧
      (s.fget Reg.KPS_MGMT_WDOG_TIMEOUT ≠ 0 → (s.path 28).queue.length < 16 → Gives (.mgmtWdog t) s fun u =>
        (u.path 28).queue = (s.path 28).queue ++ [msgWord 0 15 kindMgmtWdog 1 0] ∧ u.ports = s.ports ∧
        u.kps.dsafe = s.kps.dsafe) ∧
      (∀ l, s.latchSet l = true → Gives (.safeRb t l) s fun u => u.kps.dsafe = true ∧ u.kps.st = .latched ∧
        u.fbit Reg.KPS0_CAUSE_SAFE_RB = true) ∧
      (∀ code, Gives (.periodicSelftest t true code) s fun u => u.kps = s.kps ∧ u.ports = s.ports) ∧
      (∀ code, Gives (.periodicSelftest t false code) s fun u => u.kps.dsafe = true ∧ u.kps.st = .latched) ∧
      (∀ code, s.kps.st = .selftest → s.upd.runSafety ≠ 0 → Gives (.selftestDone t true code) s fun u =>
        u.kps = { s.kps with st := .hold, heartbeatAt := max s.now t } ∧ u.fget Reg.KPS_SELFTEST_PASS = 1) ∧
      (∀ code, s.kps.st = .selftest → s.upd.runSafety ≠ 0 → Gives (.selftestDone t false code) s fun u =>
        u.kps.st = .latched ∧ u.kps.dsafe = true ∧ (s.fget Reg.KPS_SELFTEST_CODE = 0 →
          u.fget Reg.KPS_SELFTEST_CODE = code % 2 ^ Reg.KPS_SELFTEST_CODE.width)) ∧
      (Gives (.cfgCrcUpdate t) s fun u => u.word Reg.KPS_CFG_CRC_CRC.addr = crc32c s.cfgBytes ∧ u.kps = s.kps))

/-- R72, R377, R382, R384, R387, R391, R394, R446. Which detail a tripped monitor reports is a free value. That the detectors of
an injected readback react at the injection is the model's choice (log 152).
Completes, on hypotheses about the state and the operands alone: KPS_ACK, ACK_ALL, DSAFE_RELEASE, KPS_CLR_CNT,
KPS_INJ_MSG, TEST_RB, TEST_CLK, TEST_LS, CAUSE_FORCE. -/
def Obligations.KingpostCommandsAct : Prop :=
  ∀ (s : State) (t : Time) (m : Master), s.stopsServed →
    (s.takesUnlocked m .kps0 0 →
      (∀ arg, (s.kps.slot (arg % 64)).valid = true → Gives (.kpsAck t m arg) s fun u => s.carriedOut u .kps0 0 1 ∧
        (u.kps.slot (arg % 64)).valid = false ∧ (∀ k, k ≠ arg % 64 → u.kps.slot k = s.kps.slot k) ∧
        u.kps.dsafe = s.kps.dsafe) ∧
      (∀ arg, Gives (.ackAll t m arg) s fun u => s.carriedOut u .kps0 0 2 ∧
        ∀ i, i < 64 → u.kps.slot i = (if (s.kps.slot i).sev ≤ arg % 4 then Slot.reset else s.kps.slot i) ∧
          (arg % 4 = 3 → u.kps.fullPend = false) ∧ (arg % 4 ≠ 3 → u.kps.fullPend = s.kps.fullPend)) ∧
      (s.kps.st = .hold → s.ftmActive = false → s.releasable = true → Gives (.dsafeRelease t m) s fun u =>
        s.carriedOut u .kps0 0 3 ∧ u.kps.st = .run ∧ u.kps.dsafe = false ∧ u.kps.deviceLatch = false ∧ u.safeN = true ∧
        u.kps.motionClear = List.range 8 ∧ u.kps.portClear = s.kps.portClear ∧ u.ports = s.ports) ∧
      (Gives (.kpsClrCnt t m) s fun u => s.carriedOut u .kps0 0 4 ∧ u.fget Reg.KPS_MSG_CNT_COUNT = 0 ∧
        u.fget Reg.KPS_ESC_CNT_COUNT = 0 ∧ u.kps = s.kps)) ∧
    (s.porst = false → s.shutTo m = false → s.islandOn 27 = true → s.ftmActive = true →
      (∀ w, msgKind w ∈ [kindHeadHot, kindHeadFlag, kindStall, kindVbus, kindSensorFail, kindUpdate] →
        (s.path (msgPath (msgClass w) (msgInst w))).queue.length < 16 → Gives (.kpsInjMsg t m w) s fun u =>
        (u.path (msgPath (msgClass w) (msgInst w))).queue = (s.path (msgPath (msgClass w) (msgInst w))).queue ++ [w] ∧
        u.ports = s.ports ∧ u.kps.dsafe = s.kps.dsafe) ∧
      (∀ v : Word, v.getLsbD 2 = true → v.getLsbD 1 = false → v.getLsbD 0 = false →
        Reg.KPS_INJ_HW_PORT.get v < s.portCount → Reg.KPS_INJ_HW_STB.get v < 3 → Gives (.testRb t m v) s fun u =>
        u.kps.readback.contains (3 * Reg.KPS_INJ_HW_PORT.get v + Reg.KPS_INJ_HW_STB.get v, max s.now t + us) = true ∧
        u.kps.dsafe = s.kps.dsafe ∧
        (s.inWindow (Reg.KPS_INJ_HW_PORT.get v) (Reg.KPS_INJ_HW_STB.get v) (max s.now t) = false →
          u.kps.portClear.contains (Reg.KPS_INJ_HW_PORT.get v) = false ∧
          ((s.port (Reg.KPS_INJ_HW_PORT.get v)).st ≠ .off → (u.port (Reg.KPS_INJ_HW_PORT.get v)).st = .safe)) ∧
        (s.inWindow (Reg.KPS_INJ_HW_PORT.get v) (Reg.KPS_INJ_HW_STB.get v) (max s.now t) = true →
          (s.flow (Reg.KPS_INJ_HW_PORT.get v)).pulses = [] →
          watchdogCounts us ≤ s.stbMax (Reg.KPS_INJ_HW_PORT.get v) + 2 → u.ports = s.ports)) ∧
      (∀ v : Word, v.getLsbD 1 = true → v.getLsbD 0 = false → s.islandOn (Reg.KPS_INJ_HW_ISLAND.get v) = true →
        Gives (.testClk t m v) s fun u => u.kps.dsafe = true ∧ u.kps.portClear = [] ∧
          ∃ d, d < 5 ∧ u.kps.tripped.contains (Reg.KPS_INJ_HW_ISLAND.get v, d) = true) ∧
      (∀ v : Word, v.getLsbD 0 = true → Gives (.testLs t m v) s fun u => u.kps.dsafe = true ∧ u.kps.st = .latched)) ∧
    (∀ p i v, s.answers m p i →
      (s.ftmActive = true → Gives (.causeForce t m p i v) s fun u =>
        u.cause p i &&& (v &&& causeMask p) = v &&& causeMask p) ∧
      (s.ftmActive = false → Gives (.causeForce t m p i v) s fun u =>
        u.kps = s.kps ∧ u.ports = s.ports ∧ ∀ a, pageAt a ≠ some .pen → u.word a = s.word a))

/-- R386, R471 to R474.
The model's choices, not the spec's words: FTM_CONFIRM with no value loaded leaves the unlock as it was (log 83); the
numbers of the cells, the sense of their controls, and the instant of a capture (log 85).
Completes, on hypotheses about the state and the operands alone: EXTEST, CLAMP, HIGHZ, IDCODE, BYPASS, TAP_RESET,
SAMPLE_PRELOAD, FTM_UNLOCK, FTM_CONFIRM. -/
def Obligations.TestAccessPortActs : Prop :=
  ∀ (s : State) (t : Time), s.porst = false →
    (Gives (.extest t) s fun u => u.tap.instr = .extest ∧ u.tap.disconnected = true ∧ u.ports = s.ports ∧
        u.tap.cells = s.tap.cells ∧ u.tap.captured.length = 2041 ∧
        (∀ p, p < 96 → u.tap.captured.getD (9 * p + 8) false = Sparse.get (fun _ => false) s.tap.cells (9 * p + 8)) ∧
        (∀ p x, p < 96 → x < 3 → s.ftmActive = false → s.kps.portClear.contains p = false →
          u.tap.captured.getD (9 * p + x) true = false) ∧
        (∀ p x, p < 96 → x < 3 → s.kps.portClear.contains p = true ∨ s.ftmActive = true →
          Sparse.get (fun _ => false) s.tap.cells (9 * p + 8) = true →
          u.tap.captured.getD (9 * p + x) false = Sparse.get (fun _ => false) s.tap.cells (9 * p + x))) ∧
    (Gives (.clamp t) s fun u => u.tap.instr = .clamp ∧ u.tap.disconnected = true ∧ u.ports = s.ports) ∧
    (Gives (.highz t) s fun u => u.tap.instr = .highz ∧ u.tap.disconnected = true ∧ u.ports = s.ports) ∧
    (idcodeWord.toNat % 2 = 1 ∧ idcodeWord.toNat / 2 % 2048 = 0x2A9 ∧ idcodeWord.toNat / 4096 % 65536 = 0x9600) ∧
    (Gives (.idcode t) s fun u => u.tap = { s.tap with instr := .idcode, dr := idcodeWord.setWidth 64 } ∧
        u.ports = s.ports ∧ u.kps = s.kps) ∧
    (Gives (.bypass t) s fun u => u.tap = { s.tap with instr := .bypass, dr := 0 } ∧ u.ports = s.ports ∧ u.kps = s.kps) ∧
    (Gives (.tapReset t) s fun u => u.tap = { s.tap with instr := .idcode, dr := idcodeWord.setWidth 64 } ∧
        u.ports = s.ports ∧ u.ftm = s.ftm) ∧
    (∀ c v, c < 2041 → Gives (.samplePreload t [(c, v)]) s fun u => u.tap.instr = .samplePreload ∧
        Sparse.get (fun _ => false) u.tap.cells c = v ∧ u.tap.disconnected = s.tap.disconnected ∧
        u.tap.captured.length = 2041 ∧ (∀ p x, p < 96 → x < 3 → s.kps.portClear.contains p = false →
          u.tap.captured.getD (9 * p + x) true = false) ∧
        ∀ k, k ≠ c → Sparse.get (fun _ => false) u.tap.cells k = Sparse.get (fun _ => false) s.tap.cells k) ∧
    (∀ v, s.ftmStrap = true → s.ftm ≠ .active → s.ftm ≠ .blocked → Gives (.ftmUnlock t v) s fun u =>
        u.tap.instr = .ftmUnlock ∧
        u.ftm = (if v = ~~~Config.devUid then .loaded (max s.now t) else .blocked) ∧ u.ports = s.ports) ∧
    (∀ t0, s.ftmStrap = true → s.ftm = .loaded t0 → Gives (.ftmConfirm t) s fun u => u.tap.instr = .ftmConfirm ∧
        u.ftm = (if max s.now t ≤ t0 + ms then .active else .blocked) ∧ u.ports = s.ports) ∧
    (s.ftmStrap = true → s.ftm = .none → Gives (.ftmConfirm t) s fun u => u.tap.instr = .ftmConfirm ∧ u.ftm = .none) ∧
    (s.ftmStrap = false → (∀ v, Gives (.ftmUnlock t v) s fun u => u.tap.instr = .bypass ∧ u.ftm = s.ftm) ∧
      (Gives (.ftmConfirm t) s fun u => u.tap.instr = .bypass ∧ u.ftm = s.ftm))

/-- R411 to R420, R422: calibration.
Completes, on hypotheses about the state and the operands alone: CAL_RUN, CAL_CANCEL, CAL_CLR_CNT, CAL_ATTEMPT_START,
CAL_TAKEOVER, CAL_TRIM_DONE, CAL_CHECK, CAL_COMMIT, CAL_DEFER. -/
def Obligations.CalibrationRunsAct : Prop :=
  ∀ (s : State) (t : Time), s.stopsServed →
    (∀ m, s.takes m .cal 0 →
      (∀ arg, s.calPresent (arg % 256) = true → (s.cal (arg % 256)).inRun = false → arg.testBit 8 = false →
        Gives (.calRun t m arg) s fun u => s.carriedOut u .cal 0 1 ∧
          u.cal (arg % 256) = { s.cal (arg % 256) with phase := .pending } ∧ ∀ d, d ≠ arg % 256 → u.cal d = s.cal d) ∧
      (∀ arg, s.calPresent (arg % 256) = true → (s.cal (arg % 256)).inRun = false → arg.testBit 8 = true →
        s.gatedFire (calGroup (arg % 256)) = false → s.calActive (arg % 256) = false →
        Gives (.calRun t m arg) s fun u => s.carriedOut u .cal 0 1 ∧
          (u.cal (arg % 256)).phase = (if (calPort (arg % 256)).isSome then .p1 else .p2) ∧
          (u.cal (arg % 256)).forced = true ∧ (u.cal (arg % 256)).startAt = max s.now t) ∧
      (∀ arg, s.calPresent (arg % 256) = true →
        ((s.cal (arg % 256)).running = true → Gives (.calCancel t m arg) s fun u => s.carriedOut u .cal 0 2 ∧
          (u.cal (arg % 256)).phase = .idle ∧ (u.cal (arg % 256)).last = 5 ∧ (u.cal (arg % 256)).standIn = false) ∧
        ((s.cal (arg % 256)).phase = .pending → Gives (.calCancel t m arg) s fun u => s.carriedOut u .cal 0 2 ∧
          (u.cal (arg % 256)).phase = .idle ∧ (u.cal (arg % 256)).last = (s.cal (arg % 256)).last)) ∧
      (Gives (.calClrCnt t m) s fun u => s.carriedOut u .cal 0 3 ∧ u.fget Reg.CAL_RUNS_COUNT = 0 ∧
        u.fget Reg.CAL_REJECTS_COUNT = 0 ∧ u.fget Reg.CAL_SKIPS_COUNT = 0 ∧ u.cals = s.cals)) ∧
    (s.porst = false → s.islandOn 28 = true →
      (∀ g k c, (s.at t).calNext g k = some c → s.calActive c = false → Gives (.calAttemptStart t g k) s fun u =>
        (u.cal c).phase = (if (calPort c).isSome then .p1 else .p2) ∧ (u.cal c).startAt = max s.now t ∧
        ∀ d, d ≠ c → u.cal d = s.cal d) ∧
      (∀ c, (s.cal c).phase = .p1 → max s.now t ≤ (s.cal c).startAt + 100 * us → (s.at t).switchPoint c = true →
        Gives (.calTakeover t c) s fun u => u.cal c = { s.cal c with phase := .p2, standIn := true } ∧
          ∀ d, d ≠ c → u.cal d = s.cal d) ∧
      (∀ c res, (s.cal c).phase = .p2 → Gives (.calTrimDone t c res) s fun u => (u.cal c).phase = .p3 ∧
        (u.cal c).startAt = max s.now t ∧ (∀ r, r < 3 → (u.cal c).newRes.getD r 0 = res.getD r 0 &&& calMask c r) ∧
        ∀ d, d ≠ c → u.cal d = s.cal d) ∧
      (∀ c l, (s.cal c).phase = .p3 → calTiming c = true → (calPort c).isSome = true →
        (s.timingOk c l = true → Gives (.calCheck t c l) s fun u =>
          u.cal c = { s.cal c with phase := .p4, accepted := true } ∧
          u.fget Reg.CAL_REJECTS_COUNT = s.fget Reg.CAL_REJECTS_COUNT) ∧
        (s.timingOk c l = false → Gives (.calCheck t c l) s fun u => (u.cal c).phase = .p4 ∧
          (u.cal c).accepted = false ∧ (u.cal c).last = 2 ∧ u.fbit Reg.CAL_CAUSE_CAL_REJECT = true ∧
          u.fget Reg.CAL_REJECTS_COUNT = min (s.fget Reg.CAL_REJECTS_COUNT + 1) (2 ^ Reg.CAL_REJECTS_COUNT.width - 1))) ∧
      (∀ c, c < 256 → calK c < 26 → (s.cal c).phase = .p4 → (s.at t).switchPoint c = true →
        ((s.cal c).accepted = true → Gives (.calCommit t c) s fun u => (u.cal c).phase = .idle ∧ (u.cal c).last = 1 ∧
          (u.cal c).trig = s.calTemp c ∧ (u.cal c).standIn = false ∧ u.fbit Reg.CAL_CAUSE_CAL_DONE = true ∧
          (∀ r, r < 3 → u.word (resAddr c r) = (s.cal c).newRes.getD r 0) ∧
          u.fget Reg.CAL_CSTAT_TREF 0 (calGroup c) (calK c) = unsign 16 (s.calTemp c) ∧
          u.fget Reg.CAL_RUNS_COUNT = min (s.fget Reg.CAL_RUNS_COUNT + 1) (2 ^ Reg.CAL_RUNS_COUNT.width - 1)) ∧
        ((s.cal c).accepted = false → Gives (.calCommit t c) s fun u => (u.cal c).phase = .idle ∧
          (u.cal c).standIn = false ∧ ∀ r, r < 3 → u.word (resAddr c r) = s.word (resAddr c r))) ∧
      (∀ c, (s.cal c).phase = .p1 → (calPort c).isSome = true → (s.cal c).forced = false →
        (s.cal c).startAt + 100 * us ≤ max s.now t →
        ((s.cal c).defers < s.fget Reg.CAL_CFG_DEFER_MAX → Gives (.calDefer t c) s fun u =>
          (u.cal c).phase = .pending ∧ (u.cal c).defers = (s.cal c).defers + 1 ∧
          (u.cal c).deferredAt = some (max s.now t) ∧ u.fbit Reg.CAL_CAUSE_CAL_DEFER = true) ∧
        (s.fget Reg.CAL_CFG_DEFER_MAX ≤ (s.cal c).defers → Gives (.calDefer t c) s fun u => (u.cal c).phase = .idle ∧
          (u.cal c).last = 3 ∧ (u.cal c).trig = s.calTemp c ∧ u.fbit Reg.CAL_CAUSE_CAL_SKIPPED = true ∧
          u.fget Reg.CAL_SKIPS_COUNT = min (s.fget Reg.CAL_SKIPS_COUNT + 1) (2 ^ Reg.CAL_SKIPS_COUNT.width - 1))))

/-- R395, R396, R398 to R401, R407, R409, R410, R421. The value that compensates an element at a temperature is a function
of Config with no body (R399: OTP coefficients).
The model's choices, not the spec's words: the sensor of a ring oscillator reference (log 156); the hardware shutdown
acts in one step (log 89).
Completes, on hypotheses about the state and the operands alone: SENSOR_READING, REFCLK_LOSS, REFCLK_RETURN,
COMPENSATION_UPDATE, THERMAL_RESTART, RECENT_RESTART_EXPIRY, SENS_CLR, THM_CLR_CNT. -/
def Obligations.ThermalUnitActs : Prop :=
  ∀ (s : State) (t : Time), s.stopsServed →
    (s.porst = false → s.islandOn 29 = true →
      (∀ l, Gives (.sensorReading t l) s fun u =>
        (∀ k, k < 64 → u.temp k = satS 16 (l.getD k 0) / 8 * 8) ∧
        u.targetLevel ≤ u.thm.level ∧ (s.thm.floor ≤ s.thm.level → u.thm.level ≤ max s.thm.level u.targetLevel) ∧
        (∀ k, k < 64 → s.thm.shutdown = false → s.thm.hot.contains k = true → u.scorching k = true →
          u.thm.shutdown = true ∧ u.kps.dsafe = true ∧ (∀ p, (u.port p).st = .off ∧ (u.port p).pwrEn = false) ∧
          u.fget Reg.CLK_ISL_ON_ON = 2 ^ 27 + 2 ^ 29) ∧
        ((∀ k, k < 64 → s.thm.hot.contains k = false ∨ u.scorching k = false) → u.thm.shutdown = s.thm.shutdown)) ∧
      (Gives (.refclkLoss t) s fun u => u.thm = { s.thm with fallback := true } ∧ u.ports = s.ports) ∧
      (Gives (.refclkReturn t) s fun u => u.thm = { s.thm with fallback := false } ∧ u.ports = s.ports) ∧
      (Gives (.compensationUpdate t) s fun u => u.cals = s.cals ∧ u.ports = s.ports ∧
        let as (x : CompElem) : Prop := Sparse.get (fun _ => 0) u.thm.comp x.key = Config.compensation x.key (s.compTemp x)
        (s.thm.vernierAt + 100 * us ≤ max s.now t → u.thm.vernierAt = max s.now t ∧
          ∀ c, c < 256 → s.calPresent c = true → calTiming c = true → as (.vernier c)) ∧
        (s.thm.refAt + ms ≤ max s.now t → u.thm.refAt = max s.now t ∧ as .oscillator ∧
          (∀ k, k < 64 → as (.ringRef k)) ∧ ∀ g, g < 8 → s.ul24 = false ∨ g < 2 → as (.adcRef g)) ∧
        (max s.now t < s.thm.vernierAt + 100 * us → max s.now t < s.thm.refAt + ms → u.thm = s.thm)) ∧
      (∀ c, s.thm.shutdown = true → s.thm.offLatched = false → s.thm.allCoolFrom = some c →
        c + 1000 * ms ≤ max s.now t → Gives (.thermalRestart t) s fun u => u.thm.shutdown = false ∧
          u.thm.restarts = s.thm.restarts ++ [max s.now t] ∧ u.fget Reg.CLK_ISL_ON_ON = bootIslands s.ul24 ∧
          u.devOp = .boot ∧ u.fbit Reg.THM_CAUSE_RESTARTED = true ∧ u.fget Reg.CLK_RST_CAUSE_LAST = 2 ∧
          ∀ p, (u.port p).st = .off ∧ (u.port p).pwrEn = false) ∧
      (Gives (.recentRestartExpiry t) s fun u =>
        u.thm.restarts = (s.thm.restarts.filter fun r => decide (max s.now t < r + tenMin)))) ∧
    (∀ m, (∀ arg, s.takesUnlocked m .thm 0 → Gives (.sensClr t m arg) s fun u => s.carriedOut u .thm 0 1 ∧
        (∀ k, (arg.testBit 6 = true ∧ k < 64 ∨ arg.testBit 6 = false ∧ k = arg % 64) → u.sensorOk k = true) ∧
        (arg.testBit 6 = false → ∀ k, k ≠ arg % 64 → u.sensorOk k = s.sensorOk k) ∧ u.thm.level = s.thm.level ∧
        u.thm.shutdown = s.thm.shutdown) ∧
      (s.takes m .thm 0 → Gives (.thmClrCnt t m) s fun u => s.carriedOut u .thm 0 2 ∧ u.fget Reg.THM_SHUT_COUNT = 0 ∧
        u.thm = s.thm))

/-- R426 to R432, R436, R443: an update session.
Completes, on hypotheses about the state and the operands alone: UPD_CLAIM, BEGIN, CHUNK, FINISH, UPD_ABORT, RELEASE,
ERASE_COMPLETE, CHUNK_PROGRAMMED, VERIFY_COMPLETE, CLAIM_TIMEOUT, FLASH_ERROR. -/
def Obligations.UpdateSessionsAct : Prop :=
  ∀ (s : State) (t : Time) (m : Master), s.stopsServed →
    (∀ v : Word, s.answers m .upd 0 → v.toNat % 65536 ≠ 0 →
      (s.upd.st = .free → Gives (.updClaim t m v) s fun u => u.upd.st = .claimed ∧ u.upd.owner = m.code ∧
        u.upd.token = v.toNat % 65536 ∧ u.upd.lastCmdAt = max s.now t) ∧
      (s.upd.st ≠ .free → Gives (.updClaim t m v) s fun u => u.upd.st = s.upd.st ∧ u.upd.owner = s.upd.owner ∧
        u.upd.token = s.upd.token ∧ u.fbit Reg.UPD_CAUSE_CLAIM_BUSY = true)) ∧
    (s.takes m .upd 0 → s.upd.owner = m.code →
      (∀ arg, s.upd.st = .claimed → 1 ≤ arg % 8 → arg % 8 ≤ 4 →
        (arg % 8 = 3 → s.bankHeld (arg / 8 % 2) = false) → Gives (.begin t m arg) s fun u => s.carriedOut u .upd 0 1 ∧
          u.upd.st = .erasing ∧ u.upd.cls = arg % 8 ∧ u.upd.bank = s.targetBank (arg % 8) (arg / 8 % 2) ∧
          (arg % 8 = 3 → u.upd.dir.rcpValid (arg / 8 % 2) = false) ∧
          (arg % 8 = 1 ∨ arg % 8 = 2 → (u.upd.dir.entry (arg % 8)).valid (u.upd.bank) = false) ∧ u.flash = s.flash) ∧
      (∀ arg, s.upd.st = .opened → 1 ≤ arg % 4096 → arg % 4096 ≤ 2048 →
        s.upd.written + arg % 4096 ≤ (flashRegion s.upd.cls s.upd.bank).2 →
        (s.upd.bufs.length < 2 → Gives (.chunk t m arg) s fun u => s.carriedOut u .upd 0 2 ∧
          u.upd.bufs = s.upd.bufs ++ [s.windowBytes (arg % 4096)] ∧ u.upd.written = s.upd.written + arg % 4096 ∧
          u.flash = s.flash) ∧
        (2 ≤ s.upd.bufs.length → Gives (.chunk t m arg) s fun u => u.exec? .upd 0 = true ∧
          u.upd.waiting = some (arg % 4096) ∧ u.upd.bufs = s.upd.bufs ∧ u.upd.written = s.upd.written)) ∧
      (s.upd.st = .opened → Gives (.finish t m) s fun u => s.carriedOut u .upd 0 3 ∧ u.upd.st = .verifying ∧
        u.upd.bufs = s.upd.bufs) ∧
      (s.upd.st = .erasing ∨ s.upd.st = .opened → Gives (.updAbort t m) s fun u => s.carriedOut u .upd 0 4 ∧
        u.upd.st = .claimed ∧ u.fget Reg.UPD_RESULT_CODE = 10 ∧ u.fbit Reg.UPD_CAUSE_FAIL = true ∧ u.upd.bufs = []) ∧
      (s.upd.st = .claimed → Gives (.release t m) s fun u => s.carriedOut u .upd 0 5 ∧ u.upd.st = .free ∧
        u.fget Reg.UPD_RESULT_CODE = s.fget Reg.UPD_RESULT_CODE)) ∧
    (s.porst = false → s.islandOn 28 = true →
      (s.upd.st = .erasing → s.thm.flashSuspended = false → Gives (.eraseComplete t) s fun u => u.upd.st = .opened ∧
        u.upd.written = 0 ∧ ∀ a, memGet 0xFF u.flash a =
          (if (flashRegion s.upd.cls s.upd.bank).1 ≤ a ∧ a < (flashRegion s.upd.cls s.upd.bank).1 +
            (flashRegion s.upd.cls s.upd.bank).2 then 0xFF else memGet 0xFF s.flash a)) ∧
      (∀ b r, s.upd.bufs = b :: r → Gives (.chunkProgrammed t) s fun u =>
        u.upd.flashed = s.upd.flashed + b.length ∧
        (s.upd.waiting = none → u.upd.bufs = r) ∧
        (∀ n, s.upd.waiting = some n → u.upd.bufs = r ++ [s.windowBytes n] ∧ u.upd.waiting = none ∧ u.exec? .upd 0 = false) ∧
        ∀ i, i < b.length → memGet 0xFF u.flash ((flashRegion s.upd.cls s.upd.bank).1 + s.upd.flashed + i) = b.getD i 0) ∧
      (s.upd.st = .verifying → s.upd.bufs = [] →
        (s.verifyCode ≠ 0 → Gives (.verifyComplete t) s fun u => u.upd.st = .claimed ∧
          u.fget Reg.UPD_RESULT_CODE = s.verifyCode % 2 ^ Reg.UPD_RESULT_CODE.width ∧
          u.fbit Reg.UPD_CAUSE_FAIL = true ∧ u.upd.dir = s.upd.dir) ∧
        (s.verifyCode = 0 → s.upd.cls = 1 ∨ s.upd.cls = 2 → Gives (.verifyComplete t) s fun u => u.upd.st = .claimed ∧
          u.fget Reg.UPD_RESULT_CODE = 0 ∧ u.fbit Reg.UPD_CAUSE_DONE = true ∧
          (u.upd.dir.entry s.upd.cls).pend = some s.upd.bank ∧ (u.upd.dir.entry s.upd.cls).tries = 0 ∧
          (u.upd.dir.entry s.upd.cls).valid s.upd.bank = true) ∧
        (s.verifyCode = 0 → s.upd.cls = 3 → Gives (.verifyComplete t) s fun u => u.upd.st = .claimed ∧
          u.fget Reg.UPD_RESULT_CODE = 0 ∧ u.fbit Reg.UPD_CAUSE_DONE = true ∧ u.flash = s.flash ∧
          u.upd.dir.rcpValid s.upd.bank = true ∧ u.upd.dir.active = s.upd.dir.active ∧
          (∀ b, b < 2 → (b = 0 ↔ s.upd.bank ≠ 0) → u.upd.dir.rcpValid b = s.upd.dir.rcpValid b)) ∧
        (∀ r a x, s.verifyCode = 0 → s.upd.cls = 4 → setOf (s.payload (flashRegion 4 0).1) = some r →
          s.newestSet (fun _ => true) = some (a, x) → a < 2 → s.fget Reg.UPD_SFMT_RETAINED = 0 →
          let image := (s.payload (flashRegion 4 0).1).take r.commitAt ++ recommit r (x.sseq + 1)
          Gives (.verifyComplete t) s fun u => u.upd.st = .claimed ∧
            if image.length ≤ areaSize then
              u.fget Reg.UPD_RESULT_CODE = 0 ∧ u.fbit Reg.UPD_CAUSE_DONE = true ∧ u.upd.dir = s.upd.dir ∧
              (∀ i, i < image.length → memGet 0xFF u.flash (areaBase (1 - a) + i) = image.getD i 0) ∧
              ∀ b, b < areaBase (1 - a) ∨ areaBase (1 - a) + areaSize ≤ b → memGet 0xFF u.flash b = memGet 0xFF s.flash b
            else u.fget Reg.UPD_RESULT_CODE = 9 ∧ u.fbit Reg.UPD_CAUSE_FAIL = true ∧ u.flash = s.flash)) ∧
      (s.upd.st ≠ .free → s.upd.lastCmdAt + max 1 (s.fget Reg.UPD_CLAIM_TO_TIMEOUT) * ms ≤ max s.now t →
        Gives (.claimTimeout t) s fun u => u.upd.st = .free ∧ u.fget Reg.UPD_RESULT_CODE = 11 ∧
          u.fbit Reg.UPD_CAUSE_FAIL = true) ∧
      (s.upd.st = .erasing ∨ s.upd.st = .opened ∧ s.upd.bufs ≠ [] → Gives (.flashError t) s fun u =>
        u.upd.st = .claimed ∧ u.fget Reg.UPD_RESULT_CODE = 9 ∧ u.fbit Reg.UPD_CAUSE_FAIL = true))

/-- R45, R126, R434, R439 to R443.
The model's choices, not the spec's words: the whole bank is copied in one step, a staging area beyond the usable
spool is STAGE, and with no port in its flow the activation ends at once (log 135).
Completes, on hypotheses about the state and the operands alone: ACTIVATE, CONFIRM, REVERT, STAGING_COMPLETE,
RECIPE_PORT_LOAD. -/
def Obligations.ActivationAndTrialBoot : Prop :=
  ∀ (s : State) (t : Time) (m : Master), s.stopsServed →
    (s.takesUnlocked m .upd 0 →
      (∀ arg, s.upd.dir.rcpValid (arg % 2) = true → s.upd.dir.active ≠ some (arg % 2) → s.upd.act = none →
        s.mem = .ready → s.devOp = .run → Gives (.activate t m arg) s fun u => s.carriedOut u .upd 0 6 ∧
          u.upd.act = some ⟨arg % 2, true, 0⟩ ∧ u.upd.dir = s.upd.dir ∧ u.ports = s.ports) ∧
      (∀ arg, selected arg ≠ [] → s.devOp = .run → s.pendAll arg = true → Gives (.confirm t m arg) s fun u =>
          s.carriedOut u .upd 0 7 ∧ ∀ c, c = 1 ∨ c = 2 →
            (c ∈ selected arg → (u.upd.dir.entry c).pend = none ∧ some (u.upd.dir.entry c).cur = (s.upd.dir.entry c).pend ∧
              (u.upd.dir.entry c).tries = 0 ∧ (c = 1 → u.fget Reg.UPD_SFMT_RETAINED = 0)) ∧
            (c ∉ selected arg → (u.upd.dir.entry c).pend = (s.upd.dir.entry c).pend ∧
              (u.upd.dir.entry c).cur = (s.upd.dir.entry c).cur)) ∧
      (∀ arg, selected arg ≠ [] → s.pendAll arg = true → Gives (.revert t m arg) s fun u => s.carriedOut u .upd 0 8 ∧
          ∀ c, c = 1 ∨ c = 2 → (u.upd.dir.entry c).cur = (s.upd.dir.entry c).cur ∧
            (c ∈ selected arg → (u.upd.dir.entry c).pend = none ∧ (u.upd.dir.entry c).reverted = true) ∧
            (c ∉ selected arg → (u.upd.dir.entry c).pend = (s.upd.dir.entry c).pend))) ∧
    (∀ a, s.porst = false → s.islandOn 28 = true → s.upd.act = some a → a.staging = true →
      Gives (.stagingComplete t false) s fun u => u.upd.act = none ∧ u.fget Reg.UPD_RESULT_CODE = 13 ∧
        u.fbit Reg.UPD_CAUSE_ACT_FAIL = true ∧ s.bytesKept u ∧ u.ports = s.ports) ∧
    (∀ a, s.porst = false → s.islandOn 28 = true → s.upd.act = some a → a.staging = true → a.bank < 2 → s.mem = .ready →
      s.stageBase + 0x1000000 ≤ s.spoolSize →
      let base := (flashRegion 3 a.bank).1
      let n := (s.container base).length
      let read (o k : Nat) : List Byte := s.flashBytes (base + 64 + o) k
      let masks := s.maskSections (sectionsOf read)
      let inUse : Bool := masks.any fun x => (s.slotUse (x.index / 8)).testBit (x.index % 8)
      let copied (u : State) : Prop := (∀ i, i < 0x1000000 → memGet 0 u.spool (s.stageBase + i) = memGet 0xFF s.flash (base + i)) ∧
        (∀ b, b < s.stageBase ∨ s.stageBase + 0x1000000 ≤ b → memGet 0 u.spool b = memGet 0 s.spool b)
      n + 64 ≤ 0x1000000 →
      (recipeOk read n = false → Gives (.stagingComplete t true) s fun u => copied u ∧ u.upd.act = none ∧
        u.fget Reg.UPD_RESULT_CODE = 13 ∧ u.fbit Reg.UPD_CAUSE_ACT_FAIL = true ∧ u.masks = s.masks ∧ u.ports = s.ports) ∧
      (recipeOk read n = true → inUse = true → Gives (.stagingComplete t true) s fun u => copied u ∧ u.upd.act = none ∧
        u.fget Reg.UPD_RESULT_CODE = 12 ∧ u.fbit Reg.UPD_CAUSE_ACT_FAIL = true ∧ u.masks = s.masks ∧ u.ports = s.ports) ∧
      (recipeOk read n = true → inUse = false → Gives (.stagingComplete t true) s fun u => copied u ∧
        (∀ b, (∀ x ∈ masks, b < 0x10000 * x.index ∨ 0x10000 * x.index + 65536 ≤ b) →
          memGet 0 u.masks b = memGet 0 s.masks b) ∧
        (∀ x ∈ masks, (∀ y ∈ masks, y.index = x.index → y = x) → ∀ i, i < x.length → i < 65536 →
          memGet 0 u.masks (0x10000 * x.index + i) = memGet 0xFF s.flash (base + 64 + x.offset + i)) ∧
        (∀ q, q < s.portCount → s.loadsAtOnce q = true → (u.port q).recipeLoad = true) ∧
        (∀ q, q < s.portCount → (s.port q).inFlow = true → u.upd.act = some ⟨a.bank, false, s.nextPage⟩ ∧
          u.fget Reg.SEQ_ACT_PAGE_PAGE = s.nextPage % 2 ^ 32 ∧ u.upd.dir = s.upd.dir) ∧
        ((∀ q, q < s.portCount → (s.port q).inFlow = false) → u.upd.act = none ∧ u.upd.dir.active = some a.bank ∧
          u.fbit Reg.SEQ_CAUSE_ACTIVATED = true))) ∧
    (∀ p, s.hasPort p = true → (s.port p).recipeLoad = true → Gives (.recipePortLoad t p) s fun u =>
        (u.port p).recipeLoad = false ∧ (u.port p).st = (s.port p).st ∧
        ((u.port p).recipeDone = true ↔ ∃ a, s.upd.act = some a ∧ a.staging = false) ∧
        (∀ x ∈ s.staged, x.type = 2 → x.index = p → (∀ y ∈ s.staged, y.type = 2 → y.index = p → y = x) →
          ∀ j w, j < 12288 → (wordsOf (s.sectionData x))[j]? = some w →
            u.natS p j = w &&& 0xFFFF3FFF ∧ u.natA p j = w &&& 0xFFFF3FFF) ∧
        (∀ x ∈ s.staged, x.type = 1 → x.index = p → (∀ y ∈ s.staged, y.type = 1 → y.index = p → y = x) →
          ∀ k w, k < 96 → (wordsOf (s.sectionData x))[k]? = some w → u.widthS p k = w ∧ u.widthA p k = w) ∧
        ((∀ x ∈ s.staged, x.type = 2 → x.index ≠ p) → u.natShadow = s.natShadow ∧ u.natActive = s.natActive) ∧
        ((∀ x ∈ s.staged, x.type = 1 → x.index ≠ p) → u.widthShadow = s.widthShadow ∧ u.widthActive = s.widthActive) ∧
        (∀ q j, q ≠ p → j < 12288 → u.natS q j = s.natS q j ∧ u.natA q j = s.natA q j) ∧
        (s.hasParams p = true → ((s.port p).st = .off ∨ (s.port p).st = .service → (u.port p).paramPend = false) ∧
          ((s.port p).st ≠ .off → (s.port p).st ≠ .service → (u.port p).paramPend = true)) ∧
        (s.hasParams p = false → (u.port p).paramPend = (s.port p).paramPend))

/-- R4, R5, R21, R66, R446, R448, R451 to R454: the resets and the end of a boot complete, and what each leaves.
The model's choices, not the spec's words: the islands come up at free instants within the bounds of R448 (log 41);
PORST_N_RELEASE has no effect while PORST_N is high (log 9).
Completes, on hypotheses about the state and the operands alone: PORST_N_ASSERT, PORST_N_RELEASE, DEV_RESET,
MGMT_RESET, BOOT_DONE. -/
def Obligations.ResetsAndBoot : Prop :=
  ∀ (s : State) (t : Time),
    (Gives (.porstNAssert t) s fun u => u.porst = true ∧ u.regs = [] ∧ u.active = [] ∧ u.ports = [] ∧ u.kps = Kps.reset ∧
        u.band = [] ∧ u.spool = [] ∧ u.axes = [] ∧ u.flash = s.flash ∧ u.upd.dir = s.upd.dir ∧ u.pending = s.pending) ∧
    (∀ prof ftm, s.porst = true → Gives (.porstNRelease t prof ftm) s fun u => u.porst = false ∧ u.ul24 = prof ∧
        u.ftmStrap = ftm ∧ u.fget Reg.CLK_ISL_ON_ON = bootIslands prof ∧ u.kps.st = Kps.reset.st ∧ u.devOp = .boot ∧
        u.relAt = max s.now t ∧ u.flash = s.flash ∧ u.sillAt ≤ u.kpsAt ∧ u.kpsAt ≤ u.powerAt ∧
        (∀ i, u.upAt i ≤ max s.now t → (u.islandOn i = true ↔ (bootIslands prof).testBit i = true)) ∧
        (∀ i, max s.now t < u.upAt i → u.islandOn i = false)) ∧
    (∀ prof ftm, s.porst = false → Gives (.porstNRelease t prof ftm) s fun u => u.porst = false ∧ u.ul24 = s.ul24 ∧
        u.ports = s.ports ∧ u.kps = s.kps) ∧
    (∀ m, s.takesUnlocked m .clk 0 → s.thm.shutdown = false →
      (s.devState = .idle → Gives (.devReset t m) s fun u => s.carriedOut u .clk 0 2 ∧ u.devOp = .boot ∧
        (∀ p, (u.port p).st = .off ∧ (u.port p).pwrEn = false) ∧ (∀ p i, u.unlocked p i = false) ∧
        (∀ a, isLock a = false → pageAt a = some .thm ∨ pageAt a = some .kps0 ∨ pageAt a = some .kps1 ∨
          pageAt a = some .kps2 ∨ pageAt a = some .kps3 → u.word a = s.word a) ∧
        u.kps.dsafe = s.kps.dsafe ∧ u.kps.portClear = s.kps.portClear ∧ u.band = s.band ∧ u.masks = s.masks ∧
        u.flash = s.flash ∧ u.fget Reg.CLK_RST_CAUSE_LAST = 3 ∧ u.fget Reg.CLK_RST_CAUSE_MASTER = m.code ∧
        u.islandsAt ≤ max s.now t + 10 * us ∧ (max s.now t < u.islandsAt → u.exec? .clk 0 = true)) ∧
      (Gives (.mgmtReset t m) s fun u => s.carriedOut u .clk 0 1 ∧ u.devOp = .boot ∧ u.ports = s.ports ∧
        u.band = s.band ∧ u.kps.dsafe = s.kps.dsafe ∧ u.fget Reg.CLK_RST_CAUSE_LAST = 4 ∧
        u.fget Reg.CLK_RST_CAUSE_MASTER = m.code ∧ (s.devOp ≠ .boot → u.devOpBack = s.devOp))) ∧
    (s.porst = false → s.islandOn 28 = true → s.stopsServed → s.devOp = .boot → s.kps.st ≠ .selftest →
      s.upd.runMgmt ≠ 0 → Gives (.bootDone t) s fun u => u.fbit Reg.CLK_CAUSE_BOOT_DONE = true ∧
        (s.appliesRecords = false → u.devOp = s.devOpBack ∧ u.ports = s.ports))

/-- The queue of commands is the model's own: R57 serves the accesses of the masters one after another. On an empty
queue the block idles (DESIGN CHOICE, log 17). -/
def Obligations.StepRunsTheFrontCommand : Prop :=
  (∀ (s : State) (c : Instr) (rest : List Instr), s.pending = c :: rest → step s = exec c { s with pending := rest }) ∧
  ∀ s : State, s.pending = [] → step s = .next s

/-- R54, R55, R61: an access or a command that cannot act completes all the same; an event that cannot happen in the
present state changes nothing (log 9). -/
def Obligations.EveryCommandAnswers : Prop :=
  ∀ (c : Instr) (s : State), ∃ u, exec c s = .next u ∧ u.pending = s.pending ∧ s.now ≤ u.now

/-- R374 to R376, R383, R384: over every command, from every guarded state. -/
def Obligations.LatchesHoldTheMachineDark : Prop :=
  ∀ s u : State, s.Guarded → step s = .next u → u.Guarded

/-- Band Store, spool, mask slots and flash (R90, R106, R126, R423) as the model holds them. -/
def Obligations.MemoriesStayCanonical : Prop :=
  ∀ s u : State, s.memoriesWf = true → step s = .next u → u.memoriesWf = true

/-- R446, R385: the device while PORST_N is low. The profile that State.reset holds before the first sampling, and the
contents of the memories, are the model's choices (logs 2, 3 and 4). -/
def Obligations.ResetIsGuardedAndEmpty : Prop :=
  State.reset.Guarded ∧ State.reset.memoriesWf = true ∧ State.reset.pending = [] ∧
  State.reset.porst = true ∧ State.reset.kps.st = .selftest ∧ State.reset.kps.dsafe = true ∧
  (∀ p, (State.reset.port p).st = .off ∧ (State.reset.port p).link = .down) ∧
  (∀ c, (State.reset.chan c).st = .off) ∧ (∀ a, (State.reset.axis a).st = .off) ∧
  State.reset.upd.st = .free ∧ State.reset.intAsserted = false ∧ State.reset.throtAsserted = false

/-- R61, R62, R64, with SEQNO and CODE of R59. `r` is the state in which the page checks the command: the instant has come,
and the conditions that the command may end are latched (R69) and the claim's timer restarted (R428). -/
def Obligations.CommandChecksInOrder : Prop :=
  (∀ (s : State) (t : Time) (m : Master) (p : Page) (i q : Nat) (v : Word), s.present p i = true →
    s.shutTo m = false → s.behind m p i = some q →
    exec (.registerWrite t m (regAddr p i 0x0C) 4 v.toNat) s =
      .next ((s.at t).stall q (.write m [(regAddr p i 0x0C, leBytes 4 v.toNat)])).settle) ∧
  ∀ (s : State) (t : Time) (m : Master) (p : Page) (i : Nat) (v : Word), s.answers m p i → s.stopsServed →
    let r := (s.at t).beforeCommand m p i
    let code := v.toNat % 256
    let cmd : Instr := .registerWrite t m (regAddr p i 0x0C) 4 v.toNat
    let failed (u : State) (result : Nat) : Prop :=
      s.counted u p i code ∧ u.result p i = result ∧ u = { r with regs := u.regs, pcie := u.pcie } ∧
      ∀ a, a ∉ cmdWords p i → a ≠ Reg.PEN_MSI_CNT_COUNT.addr → a ≠ regAddr .pen 0 0x14 → u.word a = r.word a
    let sameCause (u : State) : Prop := p ≠ .pen → u.word (regAddr p i 0x14) = r.word (regAddr p i 0x14)
    (s.exec? p i = true → Gives cmd s fun u => failed u resBusy ∧ sameCause u) ∧
    (s.exec? p i = false → r.commandOf m p i code (v.toNat / 256) = none →
      Gives cmd s fun u => failed u resArg ∧ sameCause u) ∧
    (∀ k, s.exec? p i = false → r.commandOf m p i code (v.toNat / 256) = some (false, k) →
      (k.argOk = false → Gives cmd s fun u => failed u resArg ∧ sameCause u) ∧
      (k.argOk = true → k.unlock = true → s.unlocked p i = false →
        Gives cmd s fun u => failed u resLocked ∧ (u.word (regAddr p i 0x14)).getLsbD 30 = true) ∧
      (k.argOk = true → (k.unlock = true → s.unlocked p i = true) → k.legal = false →
        Gives cmd s fun u => failed u resState ∧ (u.word (regAddr p i 0x14)).getLsbD 31 = true) ∧
      (k.argOk = true → (k.unlock = true → s.unlocked p i = true) → k.legal = true → k.cond = false →
        Gives cmd s fun u => failed u resArg ∧ sameCause u) ∧
      (k.argOk = true → (k.unlock = true → s.unlocked p i = true) → k.legal = true → k.cond = true →
        exec cmd s = .next (k.eff ((r.countCmd p i code).setResult p i resOk)).serveStops.settle)) ∧
    (s.exec? p i = false → exec (.nop t m p i) s = .next ((r.countCmd p i 0).setResult p i resOk).settle) ∧
    (s.exec? p i = false → 0xF0 ≤ code → Gives cmd s fun u => failed u resArg ∧ sameCause u)

/-- R67, whole: over every register that mixes RWL fields with others that can be written. That a write which would change an
RWL field does set LOCKED is R66, which R67 restricts.
Completes, on hypotheses about the state and the operands alone: REGISTER_WRITE. -/
def Obligations.FieldTypesOnWrite : Prop :=
  ∀ (s : State) (t : Time) (m : Master) (p : Page) (i off : Nat) (v : Word), s.answers m p i → s.stopsServed →
    off < 0x1000 → off % 4 = 0 → s.absentPart p off = false → s.unlocked p i = false →
    (∃ f ∈ fieldsAt p off, f.ty = .rwl) → (∃ f ∈ fieldsAt p off, f.ty ∈ [FTy.rw, .rws, .rw1c, .wo]) →
    Gives (.registerWrite t m (regAddr p i off) 4 v.toNat) s fun u =>
      (∀ f ∈ fieldsAt p off,
        (f.ty = .rwl → f.get (u.word (regAddr p i off)) = f.get (s.word (regAddr p i off))) ∧
        (f.ty = .rw ∨ f.ty = .rws → f.get (u.word (regAddr p i off)) = f.get v) ∧
        (f.ty = .rw1c → f.get (u.word (regAddr p i off)) = f.get (s.word (regAddr p i off) &&& ~~~v))) ∧
      ((∀ f ∈ fieldsAt p off, f.ty = .rwl → f.get (s.word (regAddr p i off)) = f.get v) →
        (u.word (regAddr p i 0x14)).getLsbD 30 = (s.word (regAddr p i 0x14)).getLsbD 30) ∧
      ((∃ f ∈ fieldsAt p off, f.ty = .rwl ∧ f.get (s.word (regAddr p i off)) ≠ f.get v) →
        (u.word (regAddr p i 0x14)).getLsbD 30 = true)

/-- R55, with the widths of R54, the fields of R77 and the range of BAR2 (R92).
The model's choices, not the spec's words: the address recorded for an access through the alias window is the native
one (log 153).
Completes, on hypotheses about the state and the operands alone: REGISTER_WRITE, WIDE_LOWER_READ, UNMAPPED_ACCESS. -/
def Obligations.UnmappedAccessesCompleteAndAreCounted : Prop :=
  ∀ (s : State) (t : Time) (m : Master), s.porst = false → s.shutTo m = false →
    let recorded (u : State) (bar2 write : Bool) (addr : Nat) : Prop :=
      u.fget Reg.DEV_UNMAPPED_COUNT = min (s.fget Reg.DEV_UNMAPPED_COUNT + 1) (2 ^ Reg.DEV_UNMAPPED_COUNT.width - 1) ∧
      u.word Reg.DEV_UNMAPPED_ADDR_ADDR.addr = BitVec.ofNat 32
        (m.code * 2 ^ 30 + (if write then 2 ^ 29 else 0) + (if bar2 then 1 else 0) * 2 ^ 26 + addr % 2 ^ 26) ∧
      u.fbit Reg.DEV_CAUSE_UNMAPPED = true ∧ u = { s with now := u.now, regs := u.regs, pcie := u.pcie, lastRead := u.lastRead } ∧
      ∀ a, a ∉ [Reg.DEV_UNMAPPED_COUNT.addr, Reg.DEV_UNMAPPED_ADDR_ADDR.addr, regAddr .dev 0 0x14] →
        a ≠ Reg.PEN_MSI_CNT_COUNT.addr → a ≠ regAddr .pen 0 0x14 → u.word a = s.word a
    (∀ addr n v : Nat, s.place addr = .unmapped → 1 ≤ n → addr % 4 + n ≤ 4 →
      Gives (.registerWrite t m addr n v) s fun u => recorded u false true (s.native addr)) ∧
    (∀ addr v : Nat, s.place addr = .unmapped → s.place (addr + 4) = .unmapped → addr % 4 = 0 →
      Gives (.registerWrite t m addr 8 v) s fun u =>
        u.fget Reg.DEV_UNMAPPED_COUNT = min (s.fget Reg.DEV_UNMAPPED_COUNT + 2) (2 ^ Reg.DEV_UNMAPPED_COUNT.width - 1) ∧
        u.word Reg.DEV_UNMAPPED_ADDR_ADDR.addr = BitVec.ofNat 32 (m.code * 2 ^ 30 + 2 ^ 29 + s.native (addr + 4) % 2 ^ 26) ∧
        u.fbit Reg.DEV_CAUSE_UNMAPPED = true) ∧
    (∀ addr n : Nat, s.place addr = .unmapped → 1 ≤ n → addr % 4 + n ≤ 4 →
      Gives (.wideLowerRead t m ⟨addr, n⟩) s fun u =>
        recorded u false false (s.native addr) ∧ u.readData m = List.replicate n 0) ∧
    (∀ (bar2 write : Bool) (addr : Nat), (if bar2 then s.bandBytes ≤ addr else s.place addr = .unmapped) →
      Gives (.unmappedAccess t m bar2 addr write) s fun u =>
        recorded u bar2 write (if bar2 then addr else s.native addr) ∧ (write = false → u.readBy m = 0))

/-- R427: the claim. HELD is shown by a slot that is not FREE (R443).
The model's choices, not the spec's words: a token of 0 answers ARG also while the slot is held, where results 2 and 3
of R427 overlap (log 131).
Completes, on hypotheses about the state and the operands alone: UPD_CLAIM. -/
def Obligations.FirstClaimTakesTheSlot : Prop :=
  ∀ (s : State) (t : Time) (m : Master) (v : Word), s.answers m .upd 0 →
    let only (u : State) (r : Nat) : Prop :=
      Sparse.get (fun _ => 0) u.upd.claimRes m.code = r ∧
      (∀ k, k ≠ m.code → Sparse.get (fun _ => 0) u.upd.claimRes k = Sparse.get (fun _ => 0) s.upd.claimRes k) ∧
      u = { s with now := u.now, regs := u.regs, pcie := u.pcie, upd := u.upd } ∧
      ∀ a, a ≠ regAddr .upd 0 0x14 → a ≠ Reg.PEN_MSI_CNT_COUNT.addr → a ≠ regAddr .pen 0 0x14 → u.word a = s.word a
    let same (u : State) : Prop := u.upd = { s.upd with claimRes := u.upd.claimRes }
    (v.toNat % 2 ^ 16 ≠ 0 → s.upd.st = .free → Gives (.updClaim t m v) s fun u =>
      u.upd.st = .claimed ∧ u.upd.owner = m.code ∧ u.upd.token = v.toNat % 2 ^ 16 ∧ only u 0 ∧
      ∀ (t2 : Time) (m2 : Master) (v2 : Word), u.answers m2 .upd 0 → v2.toNat % 2 ^ 16 ≠ 0 →
        Gives (.updClaim t2 m2 v2) u fun w => w.upd = { u.upd with claimRes := w.upd.claimRes } ∧
          Sparse.get (fun _ => 0) w.upd.claimRes m2.code = 3) ∧
    (v.toNat % 2 ^ 16 = 0 → Gives (.updClaim t m v) s fun u => same u ∧ only u 2) ∧
    (v.toNat % 2 ^ 16 ≠ 0 → s.upd.st ≠ .free → Gives (.updClaim t m v) s fun u =>
      same u ∧ only u 3 ∧ u.fbit Reg.UPD_CAUSE_CLAIM_BUSY = true)

/-- The frame of the counter commands (R108, R110, R136, R176, R197, R205, R251, R311, R336, R339, R357, R391, R421,
R422). -/
def Obligations.CounterCommandsTouchTheirCounters : Prop :=
  ∀ (s : State) (t : Time) (m : Master) (i arg : Nat), (∀ p j, s.behind m p j = none) →
    Only (.bndClrEcc t m arg) s
      (cmdWords .bnd0 0 ++ [Reg.BND_ECC_CE_ECC_CE.addr, Reg.BND_ECC_UE_ADDR_ECC_UE_ADDR.addr]) (fun r _ => r) ∧
    Only (.memClrEcc t m) s (cmdWords .mem 0 ++ [Reg.MEM_ECC_CE_COUNT.addr, regAddr .mem 0 0x54, regAddr .mem 0 0x58])
      (fun r _ => r) ∧
    Only (.lnkClrCnt t m) s (cmdWords .lnk0 0 ++ (List.range 6).map fun k => regAddr .lnk0 0 (0x88 + 4 * k)) (fun r _ => r) ∧
    Only (.calClrCnt t m) s
      (cmdWords .cal 0 ++ [Reg.CAL_RUNS_COUNT.addr, Reg.CAL_REJECTS_COUNT.addr, Reg.CAL_SKIPS_COUNT.addr]) (fun r _ => r) ∧
    Only (.jstClrCnt t m i arg) s
      (cmdWords .jst0 i ++ Reg.JST_EVLOST_COUNT.addr i :: (List.range 16).map fun c => Reg.CH_BAD_COUNT.addr i c)
      (fun r _ => r) ∧
    Only (.fbkClrCnt t m i) s
      (cmdWords .fbk i ++ [Reg.FBK_ERR_DOUBLE_COUNT.addr i, Reg.FBK_IDX_ERR_MISMATCH.addr i]) (fun r _ => r) ∧
    Only (.enClrCnt t m i) s
      (cmdWords .en i ++ [Reg.EN_DROPS_A_COUNT.addr i, Reg.EN_DROPS_B_COUNT.addr i, Reg.EN_DROPS_C_COUNT.addr i,
        Reg.EN_DOWN_LINES_COUNT.addr i, Reg.EN_HOLD_LINES_COUNT.addr i, Reg.EN_ECC_CE_COUNT.addr i]) (fun r _ => r) ∧
    Only (.hlClrCnt t m i) s (cmdWords .hl i ++ healthCounters.map fun f => f.addr i) (fun r _ => r) ∧
    Only (.resReset t m i) s (cmdWords .hl i ++ [regAddr .hl i 0x88, regAddr .hl i 0x8C]) (fun r _ => r) ∧
    Only (.kpsClrCnt t m) s (cmdWords .kps0 0 ++ [Reg.KPS_MSG_CNT_COUNT.addr, Reg.KPS_ESC_CNT_COUNT.addr]) (fun r _ => r) ∧
    Only (.lkClrCnt t m i) s
      (cmdWords .lk i ++ [Reg.LK_NACK_COUNT.addr i, Reg.LK_ACK_MISS_COUNT.addr i, Reg.LK_RT_ERR_COUNT.addr i,
        Reg.LK_LINK_LOST_COUNT.addr i]) (fun r _ => r) ∧
    Only (.ethClrCnt t m i) s (cmdWords .eth i ++ (List.range 5).map fun k => regAddr .eth i (0x80 + 4 * k)) (fun r _ => r) ∧
    Only (.penClrCnt t m) s (cmdWords .pen 0 ++ [Reg.PEN_AER_COR_COUNT.addr, Reg.PEN_AER_UNC_COUNT.addr]) (fun r _ => r) ∧
    Only (.thmClrCnt t m) s (cmdWords .thm 0 ++ [Reg.THM_SHUT_COUNT.addr]) (fun r _ => r) ∧
    Only (.scrClrCnt t m i arg) s
      (cmdWords .scr i ++ (List.range 12).flatMap fun k => [Reg.SCR_SUBST_CNT_COUNT.addr i k,
        Reg.SCR_SPREAD_CNT_COUNT.addr i k, Reg.SCR_LOST_CNT_COUNT.addr i k, Reg.SCR_COLLIDE_CNT_COUNT.addr i k]) (fun r _ => r)

/-- The frames of R205, R256, R263 and R286. -/
def Obligations.MotionAndFeedbackCommandsTouchTheirUnit : Prop :=
  ∀ (s : State) (t : Time) (m : Master) (i arg : Nat), (∀ p j, s.behind m p j = none) →
    (∀ c ∈ [Instr.axSvcEnter t m i, .axSvcLeave t m i, .axOff t m i, .disable t m i, .move t m i, .axStop t m i,
        .qstop t m i, .resume t m i, .home t m i, .pvtStart t m i arg, .setPos t m i, .clrFault t m i],
      Only c s (cmdWords .ax0 i) (fun r u => { r with axes := u.axes }) ∧
      ∀ u, exec c s = .next u → ∀ b, b ≠ i → u.axis b = s.axis b) ∧
    (Only (.enable t m i) s (cmdWords .ax0 i) (fun r u => { r with axes := u.axes, free := u.free }) ∧
      ∀ u, exec (.enable t m i) s = .next u → ∀ b, b ≠ i → u.axis b = s.axis b) ∧
    (∀ c ∈ [Instr.setMove t m i arg, .setResume t m i arg],
      Only c s (cmdWords .mgp i ++ [Reg.SET_VMAX_VMAX.addr i (arg % 2), Reg.SET_ACC_ACC.addr i (arg % 2),
        Reg.SET_DEC_DEC.addr i (arg % 2)]) (fun r u => { r with axes := u.axes, msets := u.msets }) ∧
      ∀ u, exec c s = .next u → (∀ b, b ∉ (s.setMembers i (arg % 2)).map (·.2) → u.axis b = s.axis b) ∧
        ∀ g k, 2 * g + k ≠ 2 * i + arg % 2 → u.mset g k = s.mset g k) ∧
    (Only (.setStop t m i arg) s (cmdWords .mgp i) (fun r u => { r with msets := u.msets }) ∧
      ∀ u, exec (.setStop t m i arg) s = .next u → ∀ g k, 2 * g + k ≠ 2 * i + arg % 2 → u.mset g k = s.mset g k) ∧
    (Only (.vbusClr t m i) s (cmdWords .mgp i) (fun r u => { r with mgroups := u.mgroups }) ∧
      ∀ u, exec (.vbusClr t m i) s = .next u → ∀ g, g ≠ i → u.mgroup g = s.mgroup g) ∧
    (∀ c ∈ [Instr.fbkSvcEnter t m i, .fbkOff t m i, .loadPos t m i],
      Only c s (cmdWords .fbk i) (fun r u => { r with chans := u.chans }) ∧
      ∀ u, exec c s = .next u → ∀ b, b ≠ i → u.chan b = s.chan b) ∧
    (Only (.fbkSvcLeave t m i) s
        (cmdWords .fbk i ++ ((s.refGroups i).flatMap members).map fun p => regAddr .ft p 0x14)
        (fun r u => { r with chans := u.chans }) ∧
      ∀ u, exec (.fbkSvcLeave t m i) s = .next u → ∀ b, b ≠ i → u.chan b = s.chan b)

/-- The frames of the commands of R176, R197, R250, R251, R336, R337, R339, R340, R391, R421, R422 and R471. -/
def Obligations.OtherCommandsTouchTheirUnit : Prop :=
  ∀ (s : State) (t : Time) (m : Master) (i arg : Nat) (v : Word), (∀ p j, s.behind m p j = none) →
    (∀ e ∈ [(Instr.scanStart t m i arg, Page.hl, []), (.scanStop t m i, .hl, []),
        (.driftReset t m i, .hl, [Reg.HL_DRIFT_N_COUNT.addr i]), (.budgetReset t m i, .en, []), (.idReq t m i, .lk, []),
        (.scanSvc t m i, .hl, []),
        (.svcPower t m i arg, .ft, [regAddr .lk i 0x14, Reg.LK_STAT_IDENT_OK.addr i])],
      Only e.1 s (cmdWords e.2.1 i ++ e.2.2) (fun r u => { r with ports := u.ports }) ∧
      ∀ u, exec e.1 s = .next u → ∀ p, p ≠ i → u.port p = s.port p) ∧
    (∀ c ∈ [Instr.lnkOff t m, .linkReset t m arg], Only c s (cmdWords .lnk0 0) (fun r u => { r with lnk := u.lnk })) ∧
    Only (.lnkOn t m) s (cmdWords .lnk0 0 ++ (List.range 8).map fun L => Reg.LNK_PEER_VALID.addr 0 L)
      (fun r u => { r with lnk := u.lnk }) ∧
    (∀ c ∈ [Instr.streamReset t m arg, .epochPop t m], Only c s (cmdWords .lnk1 0) (fun r u => { r with lnk := u.lnk })) ∧
    (∀ c ∈ [Instr.txWptrWrite t m i v, .rxRptrWrite t m i v], Only c s [] (fun r u => { r with lnk := u.lnk })) ∧
    (Only (.ethEnable t m i) s (cmdWords .eth i) (fun r u => { r with eths := u.eths }) ∧
      ∀ u, exec (.ethEnable t m i) s = .next u → ∀ e, e ≠ i → u.eth e = s.eth e) ∧
    (∀ c ∈ [Instr.cancelStep t m, .servoReset t m], Only c s (cmdWords .hal0 0) (fun r u => { r with hal := u.hal })) ∧
    Only (.txtsPop t m) s (cmdWords .hal1 0) (fun r u => { r with hal := { r.hal with stamps := u.hal.stamps } }) ∧
    Only (.kpsAck t m arg) s (cmdWords .kps0 0) (fun r u => { r with kps := { r.kps with slots := u.kps.slots } }) ∧
    Only (.ackAll t m arg) s (cmdWords .kps0 0)
      (fun r u => { r with kps := { r.kps with slots := u.kps.slots, fullPend := u.kps.fullPend } }) ∧
    Only (.sensClr t m arg) s (cmdWords .thm 0) (fun r u => { r with thm := u.thm }) ∧
    (∀ c ∈ [Instr.calCancel t m arg, .calRun t m arg],
      Only c s (cmdWords .cal 0) (fun r u => { r with cals := u.cals }) ∧
      ∀ u, exec c s = .next u → ∀ k, k ≠ argField arg 7 0 → u.cal k = s.cal k) ∧
    (∀ c ∈ [Instr.extest t, .samplePreload t [(i, v.getLsbD 0)]],
      Only c s [] (fun r u => { r with tap := u.tap, free := u.free })) ∧
    (∀ c ∈ [Instr.idcode t, .clamp t, .highz t, .bypass t, .tapReset t],
      Only c s [] (fun r u => { r with tap := u.tap }))

/-- The frame of the four byte memories, over every command. -/
def Obligations.OnlyStoringCommandsChangeBytes : Prop :=
  ∀ (c : Instr) (s u : State), exec c s = .next u →
    (storesBand c = false → ∀ a, memGet 0 u.band a = memGet 0 s.band a) ∧
    (storesSpool c = false → ∀ a, memGet 0 u.spool a = memGet 0 s.spool a) ∧
    (storesMasks c = false → ∀ a, memGet 0 u.masks a = memGet 0 s.masks a) ∧
    (storesFlash c = false → ∀ a, memGet 0xFF u.flash a = memGet 0xFF s.flash a)
end

