-- ==== Sys2Proof/Laws/Sparse.lean ====
section
/-! SUPPORT. What a sparse map reads after a write, and that every write keeps its canonical form. -/

namespace Sys2Proof.Machine

variable {α : Type}

theorem Sparse.get_drop_self (d : Nat → α) (m : Sparse α) (k : Nat) : Sparse.get d (Sparse.drop m k) k = d k := by
  induction m with
  | nil => rfl
  | cons e r ih =>
    obtain ⟨j, w⟩ := e
    by_cases h : j = k
    · subst h; simpa [Sparse.drop] using ih
    · simpa [Sparse.drop, h, Sparse.get] using ih

theorem Sparse.get_drop_ne (d : Nat → α) (m : Sparse α) {k i : Nat} (h : i ≠ k) :
    Sparse.get d (Sparse.drop m k) i = Sparse.get d m i := by
  induction m with
  | nil => rfl
  | cons e r ih =>
    obtain ⟨j, w⟩ := e
    by_cases hj : j = k
    · subst hj
      have h' : j ≠ i := fun x => h x.symm
      simpa [Sparse.drop, Sparse.get, h'] using ih
    · by_cases hi : j = i
      · simp [Sparse.drop, Sparse.get, hi] at *
        simp [h, Sparse.get]
      · simpa [Sparse.drop, hj, Sparse.get, hi] using ih

theorem Sparse.get_insert_self (d : Nat → α) (m : Sparse α) (k : Nat) (v : α) :
    Sparse.get d (Sparse.insert m k v) k = v := by
  induction m with
  | nil => simp [Sparse.insert, Sparse.get]
  | cons e r ih =>
    obtain ⟨j, w⟩ := e
    by_cases h : j < k
    · simpa [Sparse.insert, h, Sparse.get, Nat.ne_of_lt h] using ih
    · by_cases hj : j = k <;> simp [Sparse.insert, h, hj, Sparse.get]

theorem Sparse.get_insert_ne (d : Nat → α) (m : Sparse α) (v : α) {k i : Nat} (h : i ≠ k) :
    Sparse.get d (Sparse.insert m k v) i = Sparse.get d m i := by
  have h' : k ≠ i := fun x => h x.symm
  induction m with
  | nil => simp [Sparse.insert, Sparse.get, h']
  | cons e r ih =>
    obtain ⟨j, w⟩ := e
    by_cases hl : j < k
    · simp [Sparse.insert, hl, Sparse.get, ih]
    · by_cases hj : j = k
      · subst hj; simp [Sparse.insert, Sparse.get, h']
      · simp [Sparse.insert, hl, hj, Sparse.get, h']

/-- A read of the key written gives the value written. -/
@[simp] theorem Sparse.get_put_self [DecidableEq α] (d : Nat → α) (m : Sparse α) (k : Nat) (v : α) :
    Sparse.get d (Sparse.put d m k v) k = v := by
  by_cases h : v = d k
  · simp [Sparse.put, h, Sparse.get_drop_self]
  · simp [Sparse.put, h, Sparse.get_insert_self]

/-- A write leaves every other key alone. -/
theorem Sparse.get_put_ne [DecidableEq α] (d : Nat → α) (m : Sparse α) (v : α) {k i : Nat} (h : i ≠ k) :
    Sparse.get d (Sparse.put d m k v) i = Sparse.get d m i := by
  by_cases hv : v = d k
  · simp [Sparse.put, hv, Sparse.get_drop_ne d m h]
  · simp [Sparse.put, hv, Sparse.get_insert_ne d m v h]

/-- The two together. -/
theorem Sparse.get_put [DecidableEq α] (d : Nat → α) (m : Sparse α) (k i : Nat) (v : α) :
    Sparse.get d (Sparse.put d m k v) i = if i = k then v else Sparse.get d m i := by
  by_cases h : i = k
  · subst h; simp
  · simp [h, Sparse.get_put_ne d m v h]

/-- What a list of values written at consecutive keys leaves. -/
theorem Sparse.get_putList [DecidableEq α] (d : Nat → α) (vs : List α) :
    ∀ (m : Sparse α) (k i : Nat), Sparse.get d (Sparse.putList d m k vs) i =
      if h : k ≤ i ∧ i - k < vs.length then vs[i - k]'h.2 else Sparse.get d m i := by
  induction vs with
  | nil => intro m k i; simp [Sparse.putList]
  | cons v vs ih =>
    intro m k i
    rw [Sparse.putList, ih, Sparse.get_put]
    by_cases h1 : k + 1 ≤ i ∧ i - (k + 1) < vs.length
    · have h2 : k ≤ i ∧ i - k < (v :: vs).length := by simp; omega
      have e : i - k = (i - (k + 1)) + 1 := by omega
      rw [dif_pos h1, dif_pos h2]
      simp [e]
    · rw [dif_neg h1]
      by_cases h3 : i = k
      · subst h3; simp
      · have h4 : ¬ (k ≤ i ∧ i - k < (v :: vs).length) := by simp; omega
        rw [dif_neg h4]; simp [h3]

/-! ### The canonical form -/

theorem Sparse.rising_some_of_rising {b c : Nat} (h : c ≤ b) (m : Sparse α) :
    Sparse.rising (some b) m = true → Sparse.rising (some c) m = true := by
  cases m with
  | nil => simp [Sparse.rising]
  | cons e r =>
    obtain ⟨j, w⟩ := e
    simp only [Sparse.rising, Bool.and_eq_true, decide_eq_true_eq]
    intro ⟨h1, h2⟩
    exact ⟨by omega, h2⟩

theorem Sparse.rising_insert (k : Nat) (v : α) :
    ∀ (m : Sparse α) (b : Nat), b < k → Sparse.rising (some b) m = true →
      Sparse.rising (some b) (Sparse.insert m k v) = true := by
  intro m
  induction m with
  | nil => intro b hb _; simp [Sparse.insert, Sparse.rising, hb]
  | cons e r ih =>
    obtain ⟨j, w⟩ := e
    intro b hb h
    simp only [Sparse.rising, Bool.and_eq_true, decide_eq_true_eq] at h
    by_cases hl : j < k
    · simp [Sparse.insert, hl, Sparse.rising, h.1, ih j hl h.2]
    · by_cases hj : j = k
      · subst hj; simp [Sparse.insert, Sparse.rising, h.1, h.2]
      · have : k < j := by omega
        simp [Sparse.insert, hl, hj, Sparse.rising, hb, this, h.2]

theorem Sparse.rising_none_insert (k : Nat) (v : α) (m : Sparse α) (h : Sparse.rising none m = true) :
    Sparse.rising none (Sparse.insert m k v) = true := by
  cases m with
  | nil => simp [Sparse.insert, Sparse.rising]
  | cons e r =>
    obtain ⟨j, w⟩ := e
    simp only [Sparse.rising] at h
    by_cases hl : j < k
    · simpa [Sparse.insert, hl, Sparse.rising] using Sparse.rising_insert k v r j hl h
    · by_cases hj : j = k
      · subst hj; simpa [Sparse.insert, Sparse.rising] using h
      · have : k < j := by omega
        simp [Sparse.insert, hl, hj, Sparse.rising, this, h]

theorem Sparse.rising_filter (f : Nat × α → Bool) :
    ∀ (m : Sparse α) (b : Nat), Sparse.rising (some b) m = true → Sparse.rising (some b) (m.filter f) = true := by
  intro m
  induction m with
  | nil => intro b _; simp [Sparse.rising]
  | cons e r ih =>
    obtain ⟨j, w⟩ := e
    intro b h
    simp only [Sparse.rising, Bool.and_eq_true, decide_eq_true_eq] at h
    by_cases hf : f (j, w)
    · simp [hf, Sparse.rising, h.1, ih j h.2]
    · simp only [hf, List.filter_cons]
      exact ih b (Sparse.rising_some_of_rising (by omega) r h.2)

theorem Sparse.rising_none_of_some {b : Nat} (m : Sparse α) (h : Sparse.rising (some b) m = true) :
    Sparse.rising none m = true := by
  cases m with
  | nil => rfl
  | cons e r =>
    obtain ⟨j, w⟩ := e
    simp only [Sparse.rising, Bool.and_eq_true] at h
    simpa [Sparse.rising] using h.2

theorem Sparse.rising_none_filter (f : Nat × α → Bool) (m : Sparse α) (h : Sparse.rising none m = true) :
    Sparse.rising none (m.filter f) = true := by
  cases m with
  | nil => rfl
  | cons e r =>
    obtain ⟨j, w⟩ := e
    simp only [Sparse.rising] at h
    by_cases hf : f (j, w)
    · simpa [hf, Sparse.rising] using Sparse.rising_filter f r j h
    · simp only [hf, List.filter_cons]
      exact Sparse.rising_none_of_some _ (Sparse.rising_filter f r j h)

theorem Sparse.mem_insert {m : Sparse α} {k : Nat} {v : α} {e : Nat × α} (h : e ∈ Sparse.insert m k v) :
    e = (k, v) ∨ e ∈ m := by
  induction m with
  | nil => simp [Sparse.insert] at h; exact .inl h
  | cons x r ih =>
    obtain ⟨j, w⟩ := x
    by_cases hl : j < k
    · simp only [Sparse.insert, hl, if_true, List.mem_cons] at h
      rcases h with h | h
      · exact .inr (by simp [h])
      · rcases ih h with h | h
        · exact .inl h
        · exact .inr (by simp [h])
    · by_cases hj : j = k <;> simp [Sparse.insert, hl, hj] at h <;> rcases h with h | h <;> simp [h]

theorem Sparse.wf_iff [DecidableEq α] (d : Nat → α) (m : Sparse α) :
    Sparse.wf d m = true ↔ Sparse.rising none m = true ∧ ∀ e ∈ m, e.2 ≠ d e.1 := by
  simp [Sparse.wf]

/-- Nothing listed is canonical. -/
@[simp] theorem Sparse.wf_nil [DecidableEq α] (d : Nat → α) : Sparse.wf d [] = true := rfl

/-- Taking pairs out keeps the canonical form. -/
theorem Sparse.wf_filter [DecidableEq α] {d : Nat → α} (f : Nat × α → Bool) {m : Sparse α} (h : Sparse.wf d m = true) :
    Sparse.wf d (m.filter f) = true := by
  rw [Sparse.wf_iff] at *
  exact ⟨Sparse.rising_none_filter f m h.1, fun e he => h.2 e (List.mem_filter.mp he).1⟩

/-- A write keeps the canonical form. -/
theorem Sparse.wf_put [DecidableEq α] {d : Nat → α} {m : Sparse α} (k : Nat) (v : α) (h : Sparse.wf d m = true) :
    Sparse.wf d (Sparse.put d m k v) = true := by
  by_cases hv : v = d k
  · simpa [Sparse.put, hv, Sparse.drop] using Sparse.wf_filter _ h
  · simp only [Sparse.put, hv, if_false]
    rw [Sparse.wf_iff] at *
    refine ⟨Sparse.rising_none_insert k v m h.1, fun e he => ?_⟩
    rcases Sparse.mem_insert he with rfl | he
    · exact hv
    · exact h.2 e he

/-- So does a list of writes. -/
theorem Sparse.wf_putList [DecidableEq α] {d : Nat → α} (vs : List α) :
    ∀ {m : Sparse α} (k : Nat), Sparse.wf d m = true → Sparse.wf d (Sparse.putList d m k vs) = true := by
  induction vs with
  | nil => intro m k h; exact h
  | cons v vs ih => intro m k h; exact ih (k + 1) (Sparse.wf_put k v h)

/-- A key below every listed one reads as unlisted. -/
theorem Sparse.get_of_rising (d : Nat → α) (m : Sparse α) (b i : Nat) (h : Sparse.rising (some b) m = true)
    (hi : i ≤ b) : Sparse.get d m i = d i := by
  induction m generalizing b with
  | nil => rfl
  | cons e r ih =>
    obtain ⟨j, w⟩ := e
    simp only [Sparse.rising, Bool.and_eq_true, decide_eq_true_eq] at h
    have : j ≠ i := by omega
    simpa [Sparse.get, this] using ih j h.2 (by omega)

theorem Sparse.rising_tail {j : Nat} {w : α} {r : Sparse α} {o : Option Nat} (h : Sparse.rising o ((j, w) :: r) = true) :
    Sparse.rising (some j) r = true := by
  cases o with
  | none => simpa [Sparse.rising] using h
  | some b => simp only [Sparse.rising, Bool.and_eq_true] at h; exact h.2

/-- Two canonical maps that read the same are the same list. -/
theorem Sparse.ext_of_get [DecidableEq α] (d : Nat → α) :
    ∀ {m n : Sparse α}, Sparse.wf d m = true → Sparse.wf d n = true → (∀ k, Sparse.get d m k = Sparse.get d n k) →
      m = n := by
  intro m
  induction m with
  | nil =>
    intro n _ hn h
    cases n with
    | nil => rfl
    | cons e r =>
      obtain ⟨j, w⟩ := e
      have := h j
      simp only [Sparse.get] at this
      exact absurd this.symm ((Sparse.wf_iff d _).mp hn |>.2 (j, w) (by simp))
  | cons e r ih =>
    obtain ⟨j, w⟩ := e
    intro n hm hn h
    have hm' := (Sparse.wf_iff d _).mp hm
    cases n with
    | nil =>
      have := h j
      simp only [Sparse.get] at this
      exact absurd (by simpa using this) (hm'.2 (j, w) (by simp))
    | cons f q =>
      obtain ⟨i, x⟩ := f
      have hn' := (Sparse.wf_iff d _).mp hn
      have hr := Sparse.rising_tail hm'.1
      have hq := Sparse.rising_tail hn'.1
      have hji : j = i := by
        rcases Nat.lt_trichotomy j i with hl | he | hl
        · have := h j
          rw [Sparse.get, if_pos rfl, Sparse.get, if_neg (by omega), Sparse.get_of_rising d q i j hq (by omega)] at this
          exact absurd this (hm'.2 (j, w) (by simp))
        · exact he
        · have := h i
          rw [Sparse.get, if_neg (by omega), Sparse.get_of_rising d r j i hr (by omega), Sparse.get, if_pos rfl] at this
          exact absurd this.symm (hn'.2 (i, x) (by simp))
      subst hji
      have hwx : w = x := by simpa [Sparse.get] using h j
      subst hwx
      have : r = q := by
        refine ih ?_ ?_ fun k => ?_
        · exact (Sparse.wf_iff d _).mpr ⟨Sparse.rising_none_of_some _ hr, fun e he => hm'.2 e (by simp [he])⟩
        · exact (Sparse.wf_iff d _).mpr ⟨Sparse.rising_none_of_some _ hq, fun e he => hn'.2 e (by simp [he])⟩
        · by_cases hk : k ≤ j
          · rw [Sparse.get_of_rising d r j k hr hk, Sparse.get_of_rising d q j k hq hk]
          · have := h k
            simpa [Sparse.get, show j ≠ k by omega] using this
      rw [this]

end Sys2Proof.Machine
end

