-- ==== Sys2Proof/Laws/State.lean ====
section
/-! SUPPORT. The small lemmas of the updates of State: what each leaves alone, field by field, true by rfl. -/

namespace Sys2Proof.Machine

/-! ### at -/

@[simp] theorem State.at_porst (s : State) (t : Time) : (s.at t).porst = s.porst := rfl
@[simp] theorem State.at_ul24 (s : State) (t : Time) : (s.at t).ul24 = s.ul24 := rfl
@[simp] theorem State.at_ftmStrap (s : State) (t : Time) : (s.at t).ftmStrap = s.ftmStrap := rfl
@[simp] theorem State.at_ftm (s : State) (t : Time) : (s.at t).ftm = s.ftm := rfl
@[simp] theorem State.at_devOp (s : State) (t : Time) : (s.at t).devOp = s.devOp := rfl
@[simp] theorem State.at_devOpBack (s : State) (t : Time) : (s.at t).devOpBack = s.devOpBack := rfl
@[simp] theorem State.at_bootFrom (s : State) (t : Time) : (s.at t).bootFrom = s.bootFrom := rfl
@[simp] theorem State.at_relAt (s : State) (t : Time) : (s.at t).relAt = s.relAt := rfl
@[simp] theorem State.at_sillAt (s : State) (t : Time) : (s.at t).sillAt = s.sillAt := rfl
@[simp] theorem State.at_kpsAt (s : State) (t : Time) : (s.at t).kpsAt = s.kpsAt := rfl
@[simp] theorem State.at_powerAt (s : State) (t : Time) : (s.at t).powerAt = s.powerAt := rfl
@[simp] theorem State.at_islandsAt (s : State) (t : Time) : (s.at t).islandsAt = s.islandsAt := rfl
@[simp] theorem State.at_appliesRecords (s : State) (t : Time) : (s.at t).appliesRecords = s.appliesRecords := rfl
@[simp] theorem State.at_regs (s : State) (t : Time) : (s.at t).regs = s.regs := rfl
@[simp] theorem State.at_active (s : State) (t : Time) : (s.at t).active = s.active := rfl
@[simp] theorem State.at_heldLow (s : State) (t : Time) : (s.at t).heldLow = s.heldLow := rfl
@[simp] theorem State.at_captures (s : State) (t : Time) : (s.at t).captures = s.captures := rfl
@[simp] theorem State.at_lastRead (s : State) (t : Time) : (s.at t).lastRead = s.lastRead := rfl
@[simp] theorem State.at_bar2Data (s : State) (t : Time) : (s.at t).bar2Data = s.bar2Data := rfl
@[simp] theorem State.at_waking (s : State) (t : Time) : (s.at t).waking = s.waking := rfl
@[simp] theorem State.at_stopPending (s : State) (t : Time) : (s.at t).stopPending = s.stopPending := rfl
@[simp] theorem State.at_ports (s : State) (t : Time) : (s.at t).ports = s.ports := rfl
@[simp] theorem State.at_rings (s : State) (t : Time) : (s.at t).rings = s.rings := rfl
@[simp] theorem State.at_band (s : State) (t : Time) : (s.at t).band = s.band := rfl
@[simp] theorem State.at_spool (s : State) (t : Time) : (s.at t).spool = s.spool := rfl
@[simp] theorem State.at_masks (s : State) (t : Time) : (s.at t).masks = s.masks := rfl
@[simp] theorem State.at_flash (s : State) (t : Time) : (s.at t).flash = s.flash := rfl
@[simp] theorem State.at_natShadow (s : State) (t : Time) : (s.at t).natShadow = s.natShadow := rfl
@[simp] theorem State.at_natActive (s : State) (t : Time) : (s.at t).natActive = s.natActive := rfl
@[simp] theorem State.at_widthShadow (s : State) (t : Time) : (s.at t).widthShadow = s.widthShadow := rfl
@[simp] theorem State.at_widthActive (s : State) (t : Time) : (s.at t).widthActive = s.widthActive := rfl
@[simp] theorem State.at_sine (s : State) (t : Time) : (s.at t).sine = s.sine := rfl
@[simp] theorem State.at_pvtTab (s : State) (t : Time) : (s.at t).pvtTab = s.pvtTab := rfl
@[simp] theorem State.at_ue (s : State) (t : Time) : (s.at t).ue = s.ue := rfl
@[simp] theorem State.at_ce (s : State) (t : Time) : (s.at t).ce = s.ce := rfl
@[simp] theorem State.at_eccCount (s : State) (t : Time) : (s.at t).eccCount = s.eccCount := rfl
@[simp] theorem State.at_mem (s : State) (t : Time) : (s.at t).mem = s.mem := rfl
@[simp] theorem State.at_memCfg (s : State) (t : Time) : (s.at t).memCfg = s.memCfg := rfl
@[simp] theorem State.at_scrubAt (s : State) (t : Time) : (s.at t).scrubAt = s.scrubAt := rfl
@[simp] theorem State.at_scrubbed (s : State) (t : Time) : (s.at t).scrubbed = s.scrubbed := rfl
@[simp] theorem State.at_chans (s : State) (t : Time) : (s.at t).chans = s.chans := rfl
@[simp] theorem State.at_axes (s : State) (t : Time) : (s.at t).axes = s.axes := rfl
@[simp] theorem State.at_mgroups (s : State) (t : Time) : (s.at t).mgroups = s.mgroups := rfl
@[simp] theorem State.at_msets (s : State) (t : Time) : (s.at t).msets = s.msets := rfl
@[simp] theorem State.at_jchans (s : State) (t : Time) : (s.at t).jchans = s.jchans := rfl
@[simp] theorem State.at_engines (s : State) (t : Time) : (s.at t).engines = s.engines := rfl
@[simp] theorem State.at_hal (s : State) (t : Time) : (s.at t).hal = s.hal := rfl
@[simp] theorem State.at_eths (s : State) (t : Time) : (s.at t).eths = s.eths := rfl
@[simp] theorem State.at_lnk (s : State) (t : Time) : (s.at t).lnk = s.lnk := rfl
@[simp] theorem State.at_pcie (s : State) (t : Time) : (s.at t).pcie = s.pcie := rfl
@[simp] theorem State.at_smp (s : State) (t : Time) : (s.at t).smp = s.smp := rfl
@[simp] theorem State.at_kps (s : State) (t : Time) : (s.at t).kps = s.kps := rfl
@[simp] theorem State.at_thm (s : State) (t : Time) : (s.at t).thm = s.thm := rfl
@[simp] theorem State.at_cals (s : State) (t : Time) : (s.at t).cals = s.cals := rfl
@[simp] theorem State.at_calTurn (s : State) (t : Time) : (s.at t).calTurn = s.calTurn := rfl
@[simp] theorem State.at_upd (s : State) (t : Time) : (s.at t).upd = s.upd := rfl
@[simp] theorem State.at_tap (s : State) (t : Time) : (s.at t).tap = s.tap := rfl
@[simp] theorem State.at_clocks (s : State) (t : Time) : (s.at t).clocks = s.clocks := rfl
@[simp] theorem State.at_ticks (s : State) (t : Time) : (s.at t).ticks = s.ticks := rfl
@[simp] theorem State.at_free (s : State) (t : Time) : (s.at t).free = s.free := rfl
@[simp] theorem State.at_pending (s : State) (t : Time) : (s.at t).pending = s.pending := rfl

/-! ### setWord -/

@[simp] theorem State.setWord_now (s : State) (a : Nat) (w : Word) : (s.setWord a w).now = s.now := rfl
@[simp] theorem State.setWord_porst (s : State) (a : Nat) (w : Word) : (s.setWord a w).porst = s.porst := rfl
@[simp] theorem State.setWord_ul24 (s : State) (a : Nat) (w : Word) : (s.setWord a w).ul24 = s.ul24 := rfl
@[simp] theorem State.setWord_ftmStrap (s : State) (a : Nat) (w : Word) : (s.setWord a w).ftmStrap = s.ftmStrap := rfl
@[simp] theorem State.setWord_ftm (s : State) (a : Nat) (w : Word) : (s.setWord a w).ftm = s.ftm := rfl
@[simp] theorem State.setWord_devOp (s : State) (a : Nat) (w : Word) : (s.setWord a w).devOp = s.devOp := rfl
@[simp] theorem State.setWord_devOpBack (s : State) (a : Nat) (w : Word) : (s.setWord a w).devOpBack = s.devOpBack := rfl
@[simp] theorem State.setWord_bootFrom (s : State) (a : Nat) (w : Word) : (s.setWord a w).bootFrom = s.bootFrom := rfl
@[simp] theorem State.setWord_relAt (s : State) (a : Nat) (w : Word) : (s.setWord a w).relAt = s.relAt := rfl
@[simp] theorem State.setWord_sillAt (s : State) (a : Nat) (w : Word) : (s.setWord a w).sillAt = s.sillAt := rfl
@[simp] theorem State.setWord_kpsAt (s : State) (a : Nat) (w : Word) : (s.setWord a w).kpsAt = s.kpsAt := rfl
@[simp] theorem State.setWord_powerAt (s : State) (a : Nat) (w : Word) : (s.setWord a w).powerAt = s.powerAt := rfl
@[simp] theorem State.setWord_islandsAt (s : State) (a : Nat) (w : Word) : (s.setWord a w).islandsAt = s.islandsAt := rfl
@[simp] theorem State.setWord_appliesRecords (s : State) (a : Nat) (w : Word) : (s.setWord a w).appliesRecords = s.appliesRecords := rfl
@[simp] theorem State.setWord_active (s : State) (a : Nat) (w : Word) : (s.setWord a w).active = s.active := rfl
@[simp] theorem State.setWord_heldLow (s : State) (a : Nat) (w : Word) : (s.setWord a w).heldLow = s.heldLow := rfl
@[simp] theorem State.setWord_captures (s : State) (a : Nat) (w : Word) : (s.setWord a w).captures = s.captures := rfl
@[simp] theorem State.setWord_lastRead (s : State) (a : Nat) (w : Word) : (s.setWord a w).lastRead = s.lastRead := rfl
@[simp] theorem State.setWord_bar2Data (s : State) (a : Nat) (w : Word) : (s.setWord a w).bar2Data = s.bar2Data := rfl
@[simp] theorem State.setWord_waking (s : State) (a : Nat) (w : Word) : (s.setWord a w).waking = s.waking := rfl
@[simp] theorem State.setWord_stopPending (s : State) (a : Nat) (w : Word) : (s.setWord a w).stopPending = s.stopPending := rfl
@[simp] theorem State.setWord_ports (s : State) (a : Nat) (w : Word) : (s.setWord a w).ports = s.ports := rfl
@[simp] theorem State.setWord_rings (s : State) (a : Nat) (w : Word) : (s.setWord a w).rings = s.rings := rfl
@[simp] theorem State.setWord_band (s : State) (a : Nat) (w : Word) : (s.setWord a w).band = s.band := rfl
@[simp] theorem State.setWord_spool (s : State) (a : Nat) (w : Word) : (s.setWord a w).spool = s.spool := rfl
@[simp] theorem State.setWord_masks (s : State) (a : Nat) (w : Word) : (s.setWord a w).masks = s.masks := rfl
@[simp] theorem State.setWord_flash (s : State) (a : Nat) (w : Word) : (s.setWord a w).flash = s.flash := rfl
@[simp] theorem State.setWord_natShadow (s : State) (a : Nat) (w : Word) : (s.setWord a w).natShadow = s.natShadow := rfl
@[simp] theorem State.setWord_natActive (s : State) (a : Nat) (w : Word) : (s.setWord a w).natActive = s.natActive := rfl
@[simp] theorem State.setWord_widthShadow (s : State) (a : Nat) (w : Word) : (s.setWord a w).widthShadow = s.widthShadow := rfl
@[simp] theorem State.setWord_widthActive (s : State) (a : Nat) (w : Word) : (s.setWord a w).widthActive = s.widthActive := rfl
@[simp] theorem State.setWord_sine (s : State) (a : Nat) (w : Word) : (s.setWord a w).sine = s.sine := rfl
@[simp] theorem State.setWord_pvtTab (s : State) (a : Nat) (w : Word) : (s.setWord a w).pvtTab = s.pvtTab := rfl
@[simp] theorem State.setWord_ue (s : State) (a : Nat) (w : Word) : (s.setWord a w).ue = s.ue := rfl
@[simp] theorem State.setWord_ce (s : State) (a : Nat) (w : Word) : (s.setWord a w).ce = s.ce := rfl
@[simp] theorem State.setWord_eccCount (s : State) (a : Nat) (w : Word) : (s.setWord a w).eccCount = s.eccCount := rfl
@[simp] theorem State.setWord_mem (s : State) (a : Nat) (w : Word) : (s.setWord a w).mem = s.mem := rfl
@[simp] theorem State.setWord_memCfg (s : State) (a : Nat) (w : Word) : (s.setWord a w).memCfg = s.memCfg := rfl
@[simp] theorem State.setWord_scrubAt (s : State) (a : Nat) (w : Word) : (s.setWord a w).scrubAt = s.scrubAt := rfl
@[simp] theorem State.setWord_scrubbed (s : State) (a : Nat) (w : Word) : (s.setWord a w).scrubbed = s.scrubbed := rfl
@[simp] theorem State.setWord_chans (s : State) (a : Nat) (w : Word) : (s.setWord a w).chans = s.chans := rfl
@[simp] theorem State.setWord_axes (s : State) (a : Nat) (w : Word) : (s.setWord a w).axes = s.axes := rfl
@[simp] theorem State.setWord_mgroups (s : State) (a : Nat) (w : Word) : (s.setWord a w).mgroups = s.mgroups := rfl
@[simp] theorem State.setWord_msets (s : State) (a : Nat) (w : Word) : (s.setWord a w).msets = s.msets := rfl
@[simp] theorem State.setWord_jchans (s : State) (a : Nat) (w : Word) : (s.setWord a w).jchans = s.jchans := rfl
@[simp] theorem State.setWord_engines (s : State) (a : Nat) (w : Word) : (s.setWord a w).engines = s.engines := rfl
@[simp] theorem State.setWord_hal (s : State) (a : Nat) (w : Word) : (s.setWord a w).hal = s.hal := rfl
@[simp] theorem State.setWord_eths (s : State) (a : Nat) (w : Word) : (s.setWord a w).eths = s.eths := rfl
@[simp] theorem State.setWord_lnk (s : State) (a : Nat) (w : Word) : (s.setWord a w).lnk = s.lnk := rfl
@[simp] theorem State.setWord_pcie (s : State) (a : Nat) (w : Word) : (s.setWord a w).pcie = s.pcie := rfl
@[simp] theorem State.setWord_smp (s : State) (a : Nat) (w : Word) : (s.setWord a w).smp = s.smp := rfl
@[simp] theorem State.setWord_kps (s : State) (a : Nat) (w : Word) : (s.setWord a w).kps = s.kps := rfl
@[simp] theorem State.setWord_thm (s : State) (a : Nat) (w : Word) : (s.setWord a w).thm = s.thm := rfl
@[simp] theorem State.setWord_cals (s : State) (a : Nat) (w : Word) : (s.setWord a w).cals = s.cals := rfl
@[simp] theorem State.setWord_calTurn (s : State) (a : Nat) (w : Word) : (s.setWord a w).calTurn = s.calTurn := rfl
@[simp] theorem State.setWord_upd (s : State) (a : Nat) (w : Word) : (s.setWord a w).upd = s.upd := rfl
@[simp] theorem State.setWord_tap (s : State) (a : Nat) (w : Word) : (s.setWord a w).tap = s.tap := rfl
@[simp] theorem State.setWord_clocks (s : State) (a : Nat) (w : Word) : (s.setWord a w).clocks = s.clocks := rfl
@[simp] theorem State.setWord_ticks (s : State) (a : Nat) (w : Word) : (s.setWord a w).ticks = s.ticks := rfl
@[simp] theorem State.setWord_free (s : State) (a : Nat) (w : Word) : (s.setWord a w).free = s.free := rfl
@[simp] theorem State.setWord_pending (s : State) (a : Nat) (w : Word) : (s.setWord a w).pending = s.pending := rfl

/-! ### setAword -/

@[simp] theorem State.setAword_now (s : State) (a : Nat) (w : Word) : (s.setAword a w).now = s.now := rfl
@[simp] theorem State.setAword_porst (s : State) (a : Nat) (w : Word) : (s.setAword a w).porst = s.porst := rfl
@[simp] theorem State.setAword_ul24 (s : State) (a : Nat) (w : Word) : (s.setAword a w).ul24 = s.ul24 := rfl
@[simp] theorem State.setAword_ftmStrap (s : State) (a : Nat) (w : Word) : (s.setAword a w).ftmStrap = s.ftmStrap := rfl
@[simp] theorem State.setAword_ftm (s : State) (a : Nat) (w : Word) : (s.setAword a w).ftm = s.ftm := rfl
@[simp] theorem State.setAword_devOp (s : State) (a : Nat) (w : Word) : (s.setAword a w).devOp = s.devOp := rfl
@[simp] theorem State.setAword_devOpBack (s : State) (a : Nat) (w : Word) : (s.setAword a w).devOpBack = s.devOpBack := rfl
@[simp] theorem State.setAword_bootFrom (s : State) (a : Nat) (w : Word) : (s.setAword a w).bootFrom = s.bootFrom := rfl
@[simp] theorem State.setAword_relAt (s : State) (a : Nat) (w : Word) : (s.setAword a w).relAt = s.relAt := rfl
@[simp] theorem State.setAword_sillAt (s : State) (a : Nat) (w : Word) : (s.setAword a w).sillAt = s.sillAt := rfl
@[simp] theorem State.setAword_kpsAt (s : State) (a : Nat) (w : Word) : (s.setAword a w).kpsAt = s.kpsAt := rfl
@[simp] theorem State.setAword_powerAt (s : State) (a : Nat) (w : Word) : (s.setAword a w).powerAt = s.powerAt := rfl
@[simp] theorem State.setAword_islandsAt (s : State) (a : Nat) (w : Word) : (s.setAword a w).islandsAt = s.islandsAt := rfl
@[simp] theorem State.setAword_appliesRecords (s : State) (a : Nat) (w : Word) : (s.setAword a w).appliesRecords = s.appliesRecords := rfl
@[simp] theorem State.setAword_regs (s : State) (a : Nat) (w : Word) : (s.setAword a w).regs = s.regs := rfl
@[simp] theorem State.setAword_heldLow (s : State) (a : Nat) (w : Word) : (s.setAword a w).heldLow = s.heldLow := rfl
@[simp] theorem State.setAword_captures (s : State) (a : Nat) (w : Word) : (s.setAword a w).captures = s.captures := rfl
@[simp] theorem State.setAword_lastRead (s : State) (a : Nat) (w : Word) : (s.setAword a w).lastRead = s.lastRead := rfl
@[simp] theorem State.setAword_bar2Data (s : State) (a : Nat) (w : Word) : (s.setAword a w).bar2Data = s.bar2Data := rfl
@[simp] theorem State.setAword_waking (s : State) (a : Nat) (w : Word) : (s.setAword a w).waking = s.waking := rfl
@[simp] theorem State.setAword_stopPending (s : State) (a : Nat) (w : Word) : (s.setAword a w).stopPending = s.stopPending := rfl
@[simp] theorem State.setAword_ports (s : State) (a : Nat) (w : Word) : (s.setAword a w).ports = s.ports := rfl
@[simp] theorem State.setAword_rings (s : State) (a : Nat) (w : Word) : (s.setAword a w).rings = s.rings := rfl
@[simp] theorem State.setAword_band (s : State) (a : Nat) (w : Word) : (s.setAword a w).band = s.band := rfl
@[simp] theorem State.setAword_spool (s : State) (a : Nat) (w : Word) : (s.setAword a w).spool = s.spool := rfl
@[simp] theorem State.setAword_masks (s : State) (a : Nat) (w : Word) : (s.setAword a w).masks = s.masks := rfl
@[simp] theorem State.setAword_flash (s : State) (a : Nat) (w : Word) : (s.setAword a w).flash = s.flash := rfl
@[simp] theorem State.setAword_natShadow (s : State) (a : Nat) (w : Word) : (s.setAword a w).natShadow = s.natShadow := rfl
@[simp] theorem State.setAword_natActive (s : State) (a : Nat) (w : Word) : (s.setAword a w).natActive = s.natActive := rfl
@[simp] theorem State.setAword_widthShadow (s : State) (a : Nat) (w : Word) : (s.setAword a w).widthShadow = s.widthShadow := rfl
@[simp] theorem State.setAword_widthActive (s : State) (a : Nat) (w : Word) : (s.setAword a w).widthActive = s.widthActive := rfl
@[simp] theorem State.setAword_sine (s : State) (a : Nat) (w : Word) : (s.setAword a w).sine = s.sine := rfl
@[simp] theorem State.setAword_pvtTab (s : State) (a : Nat) (w : Word) : (s.setAword a w).pvtTab = s.pvtTab := rfl
@[simp] theorem State.setAword_ue (s : State) (a : Nat) (w : Word) : (s.setAword a w).ue = s.ue := rfl
@[simp] theorem State.setAword_ce (s : State) (a : Nat) (w : Word) : (s.setAword a w).ce = s.ce := rfl
@[simp] theorem State.setAword_eccCount (s : State) (a : Nat) (w : Word) : (s.setAword a w).eccCount = s.eccCount := rfl
@[simp] theorem State.setAword_mem (s : State) (a : Nat) (w : Word) : (s.setAword a w).mem = s.mem := rfl
@[simp] theorem State.setAword_memCfg (s : State) (a : Nat) (w : Word) : (s.setAword a w).memCfg = s.memCfg := rfl
@[simp] theorem State.setAword_scrubAt (s : State) (a : Nat) (w : Word) : (s.setAword a w).scrubAt = s.scrubAt := rfl
@[simp] theorem State.setAword_scrubbed (s : State) (a : Nat) (w : Word) : (s.setAword a w).scrubbed = s.scrubbed := rfl
@[simp] theorem State.setAword_chans (s : State) (a : Nat) (w : Word) : (s.setAword a w).chans = s.chans := rfl
@[simp] theorem State.setAword_axes (s : State) (a : Nat) (w : Word) : (s.setAword a w).axes = s.axes := rfl
@[simp] theorem State.setAword_mgroups (s : State) (a : Nat) (w : Word) : (s.setAword a w).mgroups = s.mgroups := rfl
@[simp] theorem State.setAword_msets (s : State) (a : Nat) (w : Word) : (s.setAword a w).msets = s.msets := rfl
@[simp] theorem State.setAword_jchans (s : State) (a : Nat) (w : Word) : (s.setAword a w).jchans = s.jchans := rfl
@[simp] theorem State.setAword_engines (s : State) (a : Nat) (w : Word) : (s.setAword a w).engines = s.engines := rfl
@[simp] theorem State.setAword_hal (s : State) (a : Nat) (w : Word) : (s.setAword a w).hal = s.hal := rfl
@[simp] theorem State.setAword_eths (s : State) (a : Nat) (w : Word) : (s.setAword a w).eths = s.eths := rfl
@[simp] theorem State.setAword_lnk (s : State) (a : Nat) (w : Word) : (s.setAword a w).lnk = s.lnk := rfl
@[simp] theorem State.setAword_pcie (s : State) (a : Nat) (w : Word) : (s.setAword a w).pcie = s.pcie := rfl
@[simp] theorem State.setAword_smp (s : State) (a : Nat) (w : Word) : (s.setAword a w).smp = s.smp := rfl
@[simp] theorem State.setAword_kps (s : State) (a : Nat) (w : Word) : (s.setAword a w).kps = s.kps := rfl
@[simp] theorem State.setAword_thm (s : State) (a : Nat) (w : Word) : (s.setAword a w).thm = s.thm := rfl
@[simp] theorem State.setAword_cals (s : State) (a : Nat) (w : Word) : (s.setAword a w).cals = s.cals := rfl
@[simp] theorem State.setAword_calTurn (s : State) (a : Nat) (w : Word) : (s.setAword a w).calTurn = s.calTurn := rfl
@[simp] theorem State.setAword_upd (s : State) (a : Nat) (w : Word) : (s.setAword a w).upd = s.upd := rfl
@[simp] theorem State.setAword_tap (s : State) (a : Nat) (w : Word) : (s.setAword a w).tap = s.tap := rfl
@[simp] theorem State.setAword_clocks (s : State) (a : Nat) (w : Word) : (s.setAword a w).clocks = s.clocks := rfl
@[simp] theorem State.setAword_ticks (s : State) (a : Nat) (w : Word) : (s.setAword a w).ticks = s.ticks := rfl
@[simp] theorem State.setAword_free (s : State) (a : Nat) (w : Word) : (s.setAword a w).free = s.free := rfl
@[simp] theorem State.setAword_pending (s : State) (a : Nat) (w : Word) : (s.setAword a w).pending = s.pending := rfl

/-! ### fput -/

@[simp] theorem State.fput_now (s : State) (f : Fld) (v i j k : Nat) : (s.fput f v i j k).now = s.now := rfl
@[simp] theorem State.fput_porst (s : State) (f : Fld) (v i j k : Nat) : (s.fput f v i j k).porst = s.porst := rfl
@[simp] theorem State.fput_ul24 (s : State) (f : Fld) (v i j k : Nat) : (s.fput f v i j k).ul24 = s.ul24 := rfl
@[simp] theorem State.fput_ftmStrap (s : State) (f : Fld) (v i j k : Nat) : (s.fput f v i j k).ftmStrap = s.ftmStrap := rfl
@[simp] theorem State.fput_ftm (s : State) (f : Fld) (v i j k : Nat) : (s.fput f v i j k).ftm = s.ftm := rfl
@[simp] theorem State.fput_devOp (s : State) (f : Fld) (v i j k : Nat) : (s.fput f v i j k).devOp = s.devOp := rfl
@[simp] theorem State.fput_devOpBack (s : State) (f : Fld) (v i j k : Nat) : (s.fput f v i j k).devOpBack = s.devOpBack := rfl
@[simp] theorem State.fput_bootFrom (s : State) (f : Fld) (v i j k : Nat) : (s.fput f v i j k).bootFrom = s.bootFrom := rfl
@[simp] theorem State.fput_relAt (s : State) (f : Fld) (v i j k : Nat) : (s.fput f v i j k).relAt = s.relAt := rfl
@[simp] theorem State.fput_sillAt (s : State) (f : Fld) (v i j k : Nat) : (s.fput f v i j k).sillAt = s.sillAt := rfl
@[simp] theorem State.fput_kpsAt (s : State) (f : Fld) (v i j k : Nat) : (s.fput f v i j k).kpsAt = s.kpsAt := rfl
@[simp] theorem State.fput_powerAt (s : State) (f : Fld) (v i j k : Nat) : (s.fput f v i j k).powerAt = s.powerAt := rfl
@[simp] theorem State.fput_islandsAt (s : State) (f : Fld) (v i j k : Nat) : (s.fput f v i j k).islandsAt = s.islandsAt := rfl
@[simp] theorem State.fput_appliesRecords (s : State) (f : Fld) (v i j k : Nat) : (s.fput f v i j k).appliesRecords = s.appliesRecords := rfl
@[simp] theorem State.fput_active (s : State) (f : Fld) (v i j k : Nat) : (s.fput f v i j k).active = s.active := rfl
@[simp] theorem State.fput_heldLow (s : State) (f : Fld) (v i j k : Nat) : (s.fput f v i j k).heldLow = s.heldLow := rfl
@[simp] theorem State.fput_captures (s : State) (f : Fld) (v i j k : Nat) : (s.fput f v i j k).captures = s.captures := rfl
@[simp] theorem State.fput_lastRead (s : State) (f : Fld) (v i j k : Nat) : (s.fput f v i j k).lastRead = s.lastRead := rfl
@[simp] theorem State.fput_bar2Data (s : State) (f : Fld) (v i j k : Nat) : (s.fput f v i j k).bar2Data = s.bar2Data := rfl
@[simp] theorem State.fput_waking (s : State) (f : Fld) (v i j k : Nat) : (s.fput f v i j k).waking = s.waking := rfl
@[simp] theorem State.fput_stopPending (s : State) (f : Fld) (v i j k : Nat) : (s.fput f v i j k).stopPending = s.stopPending := rfl
@[simp] theorem State.fput_ports (s : State) (f : Fld) (v i j k : Nat) : (s.fput f v i j k).ports = s.ports := rfl
@[simp] theorem State.fput_rings (s : State) (f : Fld) (v i j k : Nat) : (s.fput f v i j k).rings = s.rings := rfl
@[simp] theorem State.fput_band (s : State) (f : Fld) (v i j k : Nat) : (s.fput f v i j k).band = s.band := rfl
@[simp] theorem State.fput_spool (s : State) (f : Fld) (v i j k : Nat) : (s.fput f v i j k).spool = s.spool := rfl
@[simp] theorem State.fput_masks (s : State) (f : Fld) (v i j k : Nat) : (s.fput f v i j k).masks = s.masks := rfl
@[simp] theorem State.fput_flash (s : State) (f : Fld) (v i j k : Nat) : (s.fput f v i j k).flash = s.flash := rfl
@[simp] theorem State.fput_natShadow (s : State) (f : Fld) (v i j k : Nat) : (s.fput f v i j k).natShadow = s.natShadow := rfl
@[simp] theorem State.fput_natActive (s : State) (f : Fld) (v i j k : Nat) : (s.fput f v i j k).natActive = s.natActive := rfl
@[simp] theorem State.fput_widthShadow (s : State) (f : Fld) (v i j k : Nat) : (s.fput f v i j k).widthShadow = s.widthShadow := rfl
@[simp] theorem State.fput_widthActive (s : State) (f : Fld) (v i j k : Nat) : (s.fput f v i j k).widthActive = s.widthActive := rfl
@[simp] theorem State.fput_sine (s : State) (f : Fld) (v i j k : Nat) : (s.fput f v i j k).sine = s.sine := rfl
@[simp] theorem State.fput_pvtTab (s : State) (f : Fld) (v i j k : Nat) : (s.fput f v i j k).pvtTab = s.pvtTab := rfl
@[simp] theorem State.fput_ue (s : State) (f : Fld) (v i j k : Nat) : (s.fput f v i j k).ue = s.ue := rfl
@[simp] theorem State.fput_ce (s : State) (f : Fld) (v i j k : Nat) : (s.fput f v i j k).ce = s.ce := rfl
@[simp] theorem State.fput_eccCount (s : State) (f : Fld) (v i j k : Nat) : (s.fput f v i j k).eccCount = s.eccCount := rfl
@[simp] theorem State.fput_mem (s : State) (f : Fld) (v i j k : Nat) : (s.fput f v i j k).mem = s.mem := rfl
@[simp] theorem State.fput_memCfg (s : State) (f : Fld) (v i j k : Nat) : (s.fput f v i j k).memCfg = s.memCfg := rfl
@[simp] theorem State.fput_scrubAt (s : State) (f : Fld) (v i j k : Nat) : (s.fput f v i j k).scrubAt = s.scrubAt := rfl
@[simp] theorem State.fput_scrubbed (s : State) (f : Fld) (v i j k : Nat) : (s.fput f v i j k).scrubbed = s.scrubbed := rfl
@[simp] theorem State.fput_chans (s : State) (f : Fld) (v i j k : Nat) : (s.fput f v i j k).chans = s.chans := rfl
@[simp] theorem State.fput_axes (s : State) (f : Fld) (v i j k : Nat) : (s.fput f v i j k).axes = s.axes := rfl
@[simp] theorem State.fput_mgroups (s : State) (f : Fld) (v i j k : Nat) : (s.fput f v i j k).mgroups = s.mgroups := rfl
@[simp] theorem State.fput_msets (s : State) (f : Fld) (v i j k : Nat) : (s.fput f v i j k).msets = s.msets := rfl
@[simp] theorem State.fput_jchans (s : State) (f : Fld) (v i j k : Nat) : (s.fput f v i j k).jchans = s.jchans := rfl
@[simp] theorem State.fput_engines (s : State) (f : Fld) (v i j k : Nat) : (s.fput f v i j k).engines = s.engines := rfl
@[simp] theorem State.fput_hal (s : State) (f : Fld) (v i j k : Nat) : (s.fput f v i j k).hal = s.hal := rfl
@[simp] theorem State.fput_eths (s : State) (f : Fld) (v i j k : Nat) : (s.fput f v i j k).eths = s.eths := rfl
@[simp] theorem State.fput_lnk (s : State) (f : Fld) (v i j k : Nat) : (s.fput f v i j k).lnk = s.lnk := rfl
@[simp] theorem State.fput_pcie (s : State) (f : Fld) (v i j k : Nat) : (s.fput f v i j k).pcie = s.pcie := rfl
@[simp] theorem State.fput_smp (s : State) (f : Fld) (v i j k : Nat) : (s.fput f v i j k).smp = s.smp := rfl
@[simp] theorem State.fput_kps (s : State) (f : Fld) (v i j k : Nat) : (s.fput f v i j k).kps = s.kps := rfl
@[simp] theorem State.fput_thm (s : State) (f : Fld) (v i j k : Nat) : (s.fput f v i j k).thm = s.thm := rfl
@[simp] theorem State.fput_cals (s : State) (f : Fld) (v i j k : Nat) : (s.fput f v i j k).cals = s.cals := rfl
@[simp] theorem State.fput_calTurn (s : State) (f : Fld) (v i j k : Nat) : (s.fput f v i j k).calTurn = s.calTurn := rfl
@[simp] theorem State.fput_upd (s : State) (f : Fld) (v i j k : Nat) : (s.fput f v i j k).upd = s.upd := rfl
@[simp] theorem State.fput_tap (s : State) (f : Fld) (v i j k : Nat) : (s.fput f v i j k).tap = s.tap := rfl
@[simp] theorem State.fput_clocks (s : State) (f : Fld) (v i j k : Nat) : (s.fput f v i j k).clocks = s.clocks := rfl
@[simp] theorem State.fput_ticks (s : State) (f : Fld) (v i j k : Nat) : (s.fput f v i j k).ticks = s.ticks := rfl
@[simp] theorem State.fput_free (s : State) (f : Fld) (v i j k : Nat) : (s.fput f v i j k).free = s.free := rfl
@[simp] theorem State.fput_pending (s : State) (f : Fld) (v i j k : Nat) : (s.fput f v i j k).pending = s.pending := rfl

/-! ### raise -/

@[simp] theorem State.raise_now (s : State) (f : Fld) (i : Nat) : (s.raise f i).now = s.now := rfl
@[simp] theorem State.raise_porst (s : State) (f : Fld) (i : Nat) : (s.raise f i).porst = s.porst := rfl
@[simp] theorem State.raise_ul24 (s : State) (f : Fld) (i : Nat) : (s.raise f i).ul24 = s.ul24 := rfl
@[simp] theorem State.raise_ftmStrap (s : State) (f : Fld) (i : Nat) : (s.raise f i).ftmStrap = s.ftmStrap := rfl
@[simp] theorem State.raise_ftm (s : State) (f : Fld) (i : Nat) : (s.raise f i).ftm = s.ftm := rfl
@[simp] theorem State.raise_devOp (s : State) (f : Fld) (i : Nat) : (s.raise f i).devOp = s.devOp := rfl
@[simp] theorem State.raise_devOpBack (s : State) (f : Fld) (i : Nat) : (s.raise f i).devOpBack = s.devOpBack := rfl
@[simp] theorem State.raise_bootFrom (s : State) (f : Fld) (i : Nat) : (s.raise f i).bootFrom = s.bootFrom := rfl
@[simp] theorem State.raise_relAt (s : State) (f : Fld) (i : Nat) : (s.raise f i).relAt = s.relAt := rfl
@[simp] theorem State.raise_sillAt (s : State) (f : Fld) (i : Nat) : (s.raise f i).sillAt = s.sillAt := rfl
@[simp] theorem State.raise_kpsAt (s : State) (f : Fld) (i : Nat) : (s.raise f i).kpsAt = s.kpsAt := rfl
@[simp] theorem State.raise_powerAt (s : State) (f : Fld) (i : Nat) : (s.raise f i).powerAt = s.powerAt := rfl
@[simp] theorem State.raise_islandsAt (s : State) (f : Fld) (i : Nat) : (s.raise f i).islandsAt = s.islandsAt := rfl
@[simp] theorem State.raise_appliesRecords (s : State) (f : Fld) (i : Nat) : (s.raise f i).appliesRecords = s.appliesRecords := rfl
@[simp] theorem State.raise_active (s : State) (f : Fld) (i : Nat) : (s.raise f i).active = s.active := rfl
@[simp] theorem State.raise_heldLow (s : State) (f : Fld) (i : Nat) : (s.raise f i).heldLow = s.heldLow := rfl
@[simp] theorem State.raise_captures (s : State) (f : Fld) (i : Nat) : (s.raise f i).captures = s.captures := rfl
@[simp] theorem State.raise_lastRead (s : State) (f : Fld) (i : Nat) : (s.raise f i).lastRead = s.lastRead := rfl
@[simp] theorem State.raise_bar2Data (s : State) (f : Fld) (i : Nat) : (s.raise f i).bar2Data = s.bar2Data := rfl
@[simp] theorem State.raise_waking (s : State) (f : Fld) (i : Nat) : (s.raise f i).waking = s.waking := rfl
@[simp] theorem State.raise_stopPending (s : State) (f : Fld) (i : Nat) : (s.raise f i).stopPending = s.stopPending := rfl
@[simp] theorem State.raise_ports (s : State) (f : Fld) (i : Nat) : (s.raise f i).ports = s.ports := rfl
@[simp] theorem State.raise_rings (s : State) (f : Fld) (i : Nat) : (s.raise f i).rings = s.rings := rfl
@[simp] theorem State.raise_band (s : State) (f : Fld) (i : Nat) : (s.raise f i).band = s.band := rfl
@[simp] theorem State.raise_spool (s : State) (f : Fld) (i : Nat) : (s.raise f i).spool = s.spool := rfl
@[simp] theorem State.raise_masks (s : State) (f : Fld) (i : Nat) : (s.raise f i).masks = s.masks := rfl
@[simp] theorem State.raise_flash (s : State) (f : Fld) (i : Nat) : (s.raise f i).flash = s.flash := rfl
@[simp] theorem State.raise_natShadow (s : State) (f : Fld) (i : Nat) : (s.raise f i).natShadow = s.natShadow := rfl
@[simp] theorem State.raise_natActive (s : State) (f : Fld) (i : Nat) : (s.raise f i).natActive = s.natActive := rfl
@[simp] theorem State.raise_widthShadow (s : State) (f : Fld) (i : Nat) : (s.raise f i).widthShadow = s.widthShadow := rfl
@[simp] theorem State.raise_widthActive (s : State) (f : Fld) (i : Nat) : (s.raise f i).widthActive = s.widthActive := rfl
@[simp] theorem State.raise_sine (s : State) (f : Fld) (i : Nat) : (s.raise f i).sine = s.sine := rfl
@[simp] theorem State.raise_pvtTab (s : State) (f : Fld) (i : Nat) : (s.raise f i).pvtTab = s.pvtTab := rfl
@[simp] theorem State.raise_ue (s : State) (f : Fld) (i : Nat) : (s.raise f i).ue = s.ue := rfl
@[simp] theorem State.raise_ce (s : State) (f : Fld) (i : Nat) : (s.raise f i).ce = s.ce := rfl
@[simp] theorem State.raise_eccCount (s : State) (f : Fld) (i : Nat) : (s.raise f i).eccCount = s.eccCount := rfl
@[simp] theorem State.raise_mem (s : State) (f : Fld) (i : Nat) : (s.raise f i).mem = s.mem := rfl
@[simp] theorem State.raise_memCfg (s : State) (f : Fld) (i : Nat) : (s.raise f i).memCfg = s.memCfg := rfl
@[simp] theorem State.raise_scrubAt (s : State) (f : Fld) (i : Nat) : (s.raise f i).scrubAt = s.scrubAt := rfl
@[simp] theorem State.raise_scrubbed (s : State) (f : Fld) (i : Nat) : (s.raise f i).scrubbed = s.scrubbed := rfl
@[simp] theorem State.raise_chans (s : State) (f : Fld) (i : Nat) : (s.raise f i).chans = s.chans := rfl
@[simp] theorem State.raise_axes (s : State) (f : Fld) (i : Nat) : (s.raise f i).axes = s.axes := rfl
@[simp] theorem State.raise_mgroups (s : State) (f : Fld) (i : Nat) : (s.raise f i).mgroups = s.mgroups := rfl
@[simp] theorem State.raise_msets (s : State) (f : Fld) (i : Nat) : (s.raise f i).msets = s.msets := rfl
@[simp] theorem State.raise_jchans (s : State) (f : Fld) (i : Nat) : (s.raise f i).jchans = s.jchans := rfl
@[simp] theorem State.raise_engines (s : State) (f : Fld) (i : Nat) : (s.raise f i).engines = s.engines := rfl
@[simp] theorem State.raise_hal (s : State) (f : Fld) (i : Nat) : (s.raise f i).hal = s.hal := rfl
@[simp] theorem State.raise_eths (s : State) (f : Fld) (i : Nat) : (s.raise f i).eths = s.eths := rfl
@[simp] theorem State.raise_lnk (s : State) (f : Fld) (i : Nat) : (s.raise f i).lnk = s.lnk := rfl
@[simp] theorem State.raise_pcie (s : State) (f : Fld) (i : Nat) : (s.raise f i).pcie = s.pcie := rfl
@[simp] theorem State.raise_smp (s : State) (f : Fld) (i : Nat) : (s.raise f i).smp = s.smp := rfl
@[simp] theorem State.raise_kps (s : State) (f : Fld) (i : Nat) : (s.raise f i).kps = s.kps := rfl
@[simp] theorem State.raise_thm (s : State) (f : Fld) (i : Nat) : (s.raise f i).thm = s.thm := rfl
@[simp] theorem State.raise_cals (s : State) (f : Fld) (i : Nat) : (s.raise f i).cals = s.cals := rfl
@[simp] theorem State.raise_calTurn (s : State) (f : Fld) (i : Nat) : (s.raise f i).calTurn = s.calTurn := rfl
@[simp] theorem State.raise_upd (s : State) (f : Fld) (i : Nat) : (s.raise f i).upd = s.upd := rfl
@[simp] theorem State.raise_tap (s : State) (f : Fld) (i : Nat) : (s.raise f i).tap = s.tap := rfl
@[simp] theorem State.raise_clocks (s : State) (f : Fld) (i : Nat) : (s.raise f i).clocks = s.clocks := rfl
@[simp] theorem State.raise_ticks (s : State) (f : Fld) (i : Nat) : (s.raise f i).ticks = s.ticks := rfl
@[simp] theorem State.raise_free (s : State) (f : Fld) (i : Nat) : (s.raise f i).free = s.free := rfl
@[simp] theorem State.raise_pending (s : State) (f : Fld) (i : Nat) : (s.raise f i).pending = s.pending := rfl

/-! ### fadd -/

@[simp] theorem State.fadd_now (s : State) (f : Fld) (n i j k : Nat) : (s.fadd f n i j k).now = s.now := rfl
@[simp] theorem State.fadd_porst (s : State) (f : Fld) (n i j k : Nat) : (s.fadd f n i j k).porst = s.porst := rfl
@[simp] theorem State.fadd_ul24 (s : State) (f : Fld) (n i j k : Nat) : (s.fadd f n i j k).ul24 = s.ul24 := rfl
@[simp] theorem State.fadd_ftmStrap (s : State) (f : Fld) (n i j k : Nat) : (s.fadd f n i j k).ftmStrap = s.ftmStrap := rfl
@[simp] theorem State.fadd_ftm (s : State) (f : Fld) (n i j k : Nat) : (s.fadd f n i j k).ftm = s.ftm := rfl
@[simp] theorem State.fadd_devOp (s : State) (f : Fld) (n i j k : Nat) : (s.fadd f n i j k).devOp = s.devOp := rfl
@[simp] theorem State.fadd_devOpBack (s : State) (f : Fld) (n i j k : Nat) : (s.fadd f n i j k).devOpBack = s.devOpBack := rfl
@[simp] theorem State.fadd_bootFrom (s : State) (f : Fld) (n i j k : Nat) : (s.fadd f n i j k).bootFrom = s.bootFrom := rfl
@[simp] theorem State.fadd_relAt (s : State) (f : Fld) (n i j k : Nat) : (s.fadd f n i j k).relAt = s.relAt := rfl
@[simp] theorem State.fadd_sillAt (s : State) (f : Fld) (n i j k : Nat) : (s.fadd f n i j k).sillAt = s.sillAt := rfl
@[simp] theorem State.fadd_kpsAt (s : State) (f : Fld) (n i j k : Nat) : (s.fadd f n i j k).kpsAt = s.kpsAt := rfl
@[simp] theorem State.fadd_powerAt (s : State) (f : Fld) (n i j k : Nat) : (s.fadd f n i j k).powerAt = s.powerAt := rfl
@[simp] theorem State.fadd_islandsAt (s : State) (f : Fld) (n i j k : Nat) : (s.fadd f n i j k).islandsAt = s.islandsAt := rfl
@[simp] theorem State.fadd_appliesRecords (s : State) (f : Fld) (n i j k : Nat) : (s.fadd f n i j k).appliesRecords = s.appliesRecords := rfl
@[simp] theorem State.fadd_active (s : State) (f : Fld) (n i j k : Nat) : (s.fadd f n i j k).active = s.active := rfl
@[simp] theorem State.fadd_heldLow (s : State) (f : Fld) (n i j k : Nat) : (s.fadd f n i j k).heldLow = s.heldLow := rfl
@[simp] theorem State.fadd_captures (s : State) (f : Fld) (n i j k : Nat) : (s.fadd f n i j k).captures = s.captures := rfl
@[simp] theorem State.fadd_lastRead (s : State) (f : Fld) (n i j k : Nat) : (s.fadd f n i j k).lastRead = s.lastRead := rfl
@[simp] theorem State.fadd_bar2Data (s : State) (f : Fld) (n i j k : Nat) : (s.fadd f n i j k).bar2Data = s.bar2Data := rfl
@[simp] theorem State.fadd_waking (s : State) (f : Fld) (n i j k : Nat) : (s.fadd f n i j k).waking = s.waking := rfl
@[simp] theorem State.fadd_stopPending (s : State) (f : Fld) (n i j k : Nat) : (s.fadd f n i j k).stopPending = s.stopPending := rfl
@[simp] theorem State.fadd_ports (s : State) (f : Fld) (n i j k : Nat) : (s.fadd f n i j k).ports = s.ports := rfl
@[simp] theorem State.fadd_rings (s : State) (f : Fld) (n i j k : Nat) : (s.fadd f n i j k).rings = s.rings := rfl
@[simp] theorem State.fadd_band (s : State) (f : Fld) (n i j k : Nat) : (s.fadd f n i j k).band = s.band := rfl
@[simp] theorem State.fadd_spool (s : State) (f : Fld) (n i j k : Nat) : (s.fadd f n i j k).spool = s.spool := rfl
@[simp] theorem State.fadd_masks (s : State) (f : Fld) (n i j k : Nat) : (s.fadd f n i j k).masks = s.masks := rfl
@[simp] theorem State.fadd_flash (s : State) (f : Fld) (n i j k : Nat) : (s.fadd f n i j k).flash = s.flash := rfl
@[simp] theorem State.fadd_natShadow (s : State) (f : Fld) (n i j k : Nat) : (s.fadd f n i j k).natShadow = s.natShadow := rfl
@[simp] theorem State.fadd_natActive (s : State) (f : Fld) (n i j k : Nat) : (s.fadd f n i j k).natActive = s.natActive := rfl
@[simp] theorem State.fadd_widthShadow (s : State) (f : Fld) (n i j k : Nat) : (s.fadd f n i j k).widthShadow = s.widthShadow := rfl
@[simp] theorem State.fadd_widthActive (s : State) (f : Fld) (n i j k : Nat) : (s.fadd f n i j k).widthActive = s.widthActive := rfl
@[simp] theorem State.fadd_sine (s : State) (f : Fld) (n i j k : Nat) : (s.fadd f n i j k).sine = s.sine := rfl
@[simp] theorem State.fadd_pvtTab (s : State) (f : Fld) (n i j k : Nat) : (s.fadd f n i j k).pvtTab = s.pvtTab := rfl
@[simp] theorem State.fadd_ue (s : State) (f : Fld) (n i j k : Nat) : (s.fadd f n i j k).ue = s.ue := rfl
@[simp] theorem State.fadd_ce (s : State) (f : Fld) (n i j k : Nat) : (s.fadd f n i j k).ce = s.ce := rfl
@[simp] theorem State.fadd_eccCount (s : State) (f : Fld) (n i j k : Nat) : (s.fadd f n i j k).eccCount = s.eccCount := rfl
@[simp] theorem State.fadd_mem (s : State) (f : Fld) (n i j k : Nat) : (s.fadd f n i j k).mem = s.mem := rfl
@[simp] theorem State.fadd_memCfg (s : State) (f : Fld) (n i j k : Nat) : (s.fadd f n i j k).memCfg = s.memCfg := rfl
@[simp] theorem State.fadd_scrubAt (s : State) (f : Fld) (n i j k : Nat) : (s.fadd f n i j k).scrubAt = s.scrubAt := rfl
@[simp] theorem State.fadd_scrubbed (s : State) (f : Fld) (n i j k : Nat) : (s.fadd f n i j k).scrubbed = s.scrubbed := rfl
@[simp] theorem State.fadd_chans (s : State) (f : Fld) (n i j k : Nat) : (s.fadd f n i j k).chans = s.chans := rfl
@[simp] theorem State.fadd_axes (s : State) (f : Fld) (n i j k : Nat) : (s.fadd f n i j k).axes = s.axes := rfl
@[simp] theorem State.fadd_mgroups (s : State) (f : Fld) (n i j k : Nat) : (s.fadd f n i j k).mgroups = s.mgroups := rfl
@[simp] theorem State.fadd_msets (s : State) (f : Fld) (n i j k : Nat) : (s.fadd f n i j k).msets = s.msets := rfl
@[simp] theorem State.fadd_jchans (s : State) (f : Fld) (n i j k : Nat) : (s.fadd f n i j k).jchans = s.jchans := rfl
@[simp] theorem State.fadd_engines (s : State) (f : Fld) (n i j k : Nat) : (s.fadd f n i j k).engines = s.engines := rfl
@[simp] theorem State.fadd_hal (s : State) (f : Fld) (n i j k : Nat) : (s.fadd f n i j k).hal = s.hal := rfl
@[simp] theorem State.fadd_eths (s : State) (f : Fld) (n i j k : Nat) : (s.fadd f n i j k).eths = s.eths := rfl
@[simp] theorem State.fadd_lnk (s : State) (f : Fld) (n i j k : Nat) : (s.fadd f n i j k).lnk = s.lnk := rfl
@[simp] theorem State.fadd_pcie (s : State) (f : Fld) (n i j k : Nat) : (s.fadd f n i j k).pcie = s.pcie := rfl
@[simp] theorem State.fadd_smp (s : State) (f : Fld) (n i j k : Nat) : (s.fadd f n i j k).smp = s.smp := rfl
@[simp] theorem State.fadd_kps (s : State) (f : Fld) (n i j k : Nat) : (s.fadd f n i j k).kps = s.kps := rfl
@[simp] theorem State.fadd_thm (s : State) (f : Fld) (n i j k : Nat) : (s.fadd f n i j k).thm = s.thm := rfl
@[simp] theorem State.fadd_cals (s : State) (f : Fld) (n i j k : Nat) : (s.fadd f n i j k).cals = s.cals := rfl
@[simp] theorem State.fadd_calTurn (s : State) (f : Fld) (n i j k : Nat) : (s.fadd f n i j k).calTurn = s.calTurn := rfl
@[simp] theorem State.fadd_upd (s : State) (f : Fld) (n i j k : Nat) : (s.fadd f n i j k).upd = s.upd := rfl
@[simp] theorem State.fadd_tap (s : State) (f : Fld) (n i j k : Nat) : (s.fadd f n i j k).tap = s.tap := rfl
@[simp] theorem State.fadd_clocks (s : State) (f : Fld) (n i j k : Nat) : (s.fadd f n i j k).clocks = s.clocks := rfl
@[simp] theorem State.fadd_ticks (s : State) (f : Fld) (n i j k : Nat) : (s.fadd f n i j k).ticks = s.ticks := rfl
@[simp] theorem State.fadd_free (s : State) (f : Fld) (n i j k : Nat) : (s.fadd f n i j k).free = s.free := rfl
@[simp] theorem State.fadd_pending (s : State) (f : Fld) (n i j k : Nat) : (s.fadd f n i j k).pending = s.pending := rfl

/-! ### latch -/

@[simp] theorem State.latch_now (s : State) (p : Page) (i : Nat) : (s.latch p i).now = s.now := rfl
@[simp] theorem State.latch_porst (s : State) (p : Page) (i : Nat) : (s.latch p i).porst = s.porst := rfl
@[simp] theorem State.latch_ul24 (s : State) (p : Page) (i : Nat) : (s.latch p i).ul24 = s.ul24 := rfl
@[simp] theorem State.latch_ftmStrap (s : State) (p : Page) (i : Nat) : (s.latch p i).ftmStrap = s.ftmStrap := rfl
@[simp] theorem State.latch_ftm (s : State) (p : Page) (i : Nat) : (s.latch p i).ftm = s.ftm := rfl
@[simp] theorem State.latch_devOp (s : State) (p : Page) (i : Nat) : (s.latch p i).devOp = s.devOp := rfl
@[simp] theorem State.latch_devOpBack (s : State) (p : Page) (i : Nat) : (s.latch p i).devOpBack = s.devOpBack := rfl
@[simp] theorem State.latch_bootFrom (s : State) (p : Page) (i : Nat) : (s.latch p i).bootFrom = s.bootFrom := rfl
@[simp] theorem State.latch_relAt (s : State) (p : Page) (i : Nat) : (s.latch p i).relAt = s.relAt := rfl
@[simp] theorem State.latch_sillAt (s : State) (p : Page) (i : Nat) : (s.latch p i).sillAt = s.sillAt := rfl
@[simp] theorem State.latch_kpsAt (s : State) (p : Page) (i : Nat) : (s.latch p i).kpsAt = s.kpsAt := rfl
@[simp] theorem State.latch_powerAt (s : State) (p : Page) (i : Nat) : (s.latch p i).powerAt = s.powerAt := rfl
@[simp] theorem State.latch_islandsAt (s : State) (p : Page) (i : Nat) : (s.latch p i).islandsAt = s.islandsAt := rfl
@[simp] theorem State.latch_appliesRecords (s : State) (p : Page) (i : Nat) : (s.latch p i).appliesRecords = s.appliesRecords := rfl
@[simp] theorem State.latch_active (s : State) (p : Page) (i : Nat) : (s.latch p i).active = s.active := rfl
@[simp] theorem State.latch_heldLow (s : State) (p : Page) (i : Nat) : (s.latch p i).heldLow = s.heldLow := rfl
@[simp] theorem State.latch_captures (s : State) (p : Page) (i : Nat) : (s.latch p i).captures = s.captures := rfl
@[simp] theorem State.latch_lastRead (s : State) (p : Page) (i : Nat) : (s.latch p i).lastRead = s.lastRead := rfl
@[simp] theorem State.latch_bar2Data (s : State) (p : Page) (i : Nat) : (s.latch p i).bar2Data = s.bar2Data := rfl
@[simp] theorem State.latch_waking (s : State) (p : Page) (i : Nat) : (s.latch p i).waking = s.waking := rfl
@[simp] theorem State.latch_stopPending (s : State) (p : Page) (i : Nat) : (s.latch p i).stopPending = s.stopPending := rfl
@[simp] theorem State.latch_ports (s : State) (p : Page) (i : Nat) : (s.latch p i).ports = s.ports := rfl
@[simp] theorem State.latch_rings (s : State) (p : Page) (i : Nat) : (s.latch p i).rings = s.rings := rfl
@[simp] theorem State.latch_band (s : State) (p : Page) (i : Nat) : (s.latch p i).band = s.band := rfl
@[simp] theorem State.latch_spool (s : State) (p : Page) (i : Nat) : (s.latch p i).spool = s.spool := rfl
@[simp] theorem State.latch_masks (s : State) (p : Page) (i : Nat) : (s.latch p i).masks = s.masks := rfl
@[simp] theorem State.latch_flash (s : State) (p : Page) (i : Nat) : (s.latch p i).flash = s.flash := rfl
@[simp] theorem State.latch_natShadow (s : State) (p : Page) (i : Nat) : (s.latch p i).natShadow = s.natShadow := rfl
@[simp] theorem State.latch_natActive (s : State) (p : Page) (i : Nat) : (s.latch p i).natActive = s.natActive := rfl
@[simp] theorem State.latch_widthShadow (s : State) (p : Page) (i : Nat) : (s.latch p i).widthShadow = s.widthShadow := rfl
@[simp] theorem State.latch_widthActive (s : State) (p : Page) (i : Nat) : (s.latch p i).widthActive = s.widthActive := rfl
@[simp] theorem State.latch_sine (s : State) (p : Page) (i : Nat) : (s.latch p i).sine = s.sine := rfl
@[simp] theorem State.latch_pvtTab (s : State) (p : Page) (i : Nat) : (s.latch p i).pvtTab = s.pvtTab := rfl
@[simp] theorem State.latch_ue (s : State) (p : Page) (i : Nat) : (s.latch p i).ue = s.ue := rfl
@[simp] theorem State.latch_ce (s : State) (p : Page) (i : Nat) : (s.latch p i).ce = s.ce := rfl
@[simp] theorem State.latch_eccCount (s : State) (p : Page) (i : Nat) : (s.latch p i).eccCount = s.eccCount := rfl
@[simp] theorem State.latch_mem (s : State) (p : Page) (i : Nat) : (s.latch p i).mem = s.mem := rfl
@[simp] theorem State.latch_memCfg (s : State) (p : Page) (i : Nat) : (s.latch p i).memCfg = s.memCfg := rfl
@[simp] theorem State.latch_scrubAt (s : State) (p : Page) (i : Nat) : (s.latch p i).scrubAt = s.scrubAt := rfl
@[simp] theorem State.latch_scrubbed (s : State) (p : Page) (i : Nat) : (s.latch p i).scrubbed = s.scrubbed := rfl
@[simp] theorem State.latch_chans (s : State) (p : Page) (i : Nat) : (s.latch p i).chans = s.chans := rfl
@[simp] theorem State.latch_axes (s : State) (p : Page) (i : Nat) : (s.latch p i).axes = s.axes := rfl
@[simp] theorem State.latch_mgroups (s : State) (p : Page) (i : Nat) : (s.latch p i).mgroups = s.mgroups := rfl
@[simp] theorem State.latch_msets (s : State) (p : Page) (i : Nat) : (s.latch p i).msets = s.msets := rfl
@[simp] theorem State.latch_jchans (s : State) (p : Page) (i : Nat) : (s.latch p i).jchans = s.jchans := rfl
@[simp] theorem State.latch_engines (s : State) (p : Page) (i : Nat) : (s.latch p i).engines = s.engines := rfl
@[simp] theorem State.latch_hal (s : State) (p : Page) (i : Nat) : (s.latch p i).hal = s.hal := rfl
@[simp] theorem State.latch_eths (s : State) (p : Page) (i : Nat) : (s.latch p i).eths = s.eths := rfl
@[simp] theorem State.latch_lnk (s : State) (p : Page) (i : Nat) : (s.latch p i).lnk = s.lnk := rfl
@[simp] theorem State.latch_pcie (s : State) (p : Page) (i : Nat) : (s.latch p i).pcie = s.pcie := rfl
@[simp] theorem State.latch_smp (s : State) (p : Page) (i : Nat) : (s.latch p i).smp = s.smp := rfl
@[simp] theorem State.latch_kps (s : State) (p : Page) (i : Nat) : (s.latch p i).kps = s.kps := rfl
@[simp] theorem State.latch_thm (s : State) (p : Page) (i : Nat) : (s.latch p i).thm = s.thm := rfl
@[simp] theorem State.latch_cals (s : State) (p : Page) (i : Nat) : (s.latch p i).cals = s.cals := rfl
@[simp] theorem State.latch_calTurn (s : State) (p : Page) (i : Nat) : (s.latch p i).calTurn = s.calTurn := rfl
@[simp] theorem State.latch_upd (s : State) (p : Page) (i : Nat) : (s.latch p i).upd = s.upd := rfl
@[simp] theorem State.latch_tap (s : State) (p : Page) (i : Nat) : (s.latch p i).tap = s.tap := rfl
@[simp] theorem State.latch_clocks (s : State) (p : Page) (i : Nat) : (s.latch p i).clocks = s.clocks := rfl
@[simp] theorem State.latch_ticks (s : State) (p : Page) (i : Nat) : (s.latch p i).ticks = s.ticks := rfl
@[simp] theorem State.latch_free (s : State) (p : Page) (i : Nat) : (s.latch p i).free = s.free := rfl
@[simp] theorem State.latch_pending (s : State) (p : Page) (i : Nat) : (s.latch p i).pending = s.pending := rfl

/-! ### setPort -/

@[simp] theorem State.setPort_now (s : State) (p : Nat) (x : Port) : (s.setPort p x).now = s.now := rfl
@[simp] theorem State.setPort_porst (s : State) (p : Nat) (x : Port) : (s.setPort p x).porst = s.porst := rfl
@[simp] theorem State.setPort_ul24 (s : State) (p : Nat) (x : Port) : (s.setPort p x).ul24 = s.ul24 := rfl
@[simp] theorem State.setPort_ftmStrap (s : State) (p : Nat) (x : Port) : (s.setPort p x).ftmStrap = s.ftmStrap := rfl
@[simp] theorem State.setPort_ftm (s : State) (p : Nat) (x : Port) : (s.setPort p x).ftm = s.ftm := rfl
@[simp] theorem State.setPort_devOp (s : State) (p : Nat) (x : Port) : (s.setPort p x).devOp = s.devOp := rfl
@[simp] theorem State.setPort_devOpBack (s : State) (p : Nat) (x : Port) : (s.setPort p x).devOpBack = s.devOpBack := rfl
@[simp] theorem State.setPort_bootFrom (s : State) (p : Nat) (x : Port) : (s.setPort p x).bootFrom = s.bootFrom := rfl
@[simp] theorem State.setPort_relAt (s : State) (p : Nat) (x : Port) : (s.setPort p x).relAt = s.relAt := rfl
@[simp] theorem State.setPort_sillAt (s : State) (p : Nat) (x : Port) : (s.setPort p x).sillAt = s.sillAt := rfl
@[simp] theorem State.setPort_kpsAt (s : State) (p : Nat) (x : Port) : (s.setPort p x).kpsAt = s.kpsAt := rfl
@[simp] theorem State.setPort_powerAt (s : State) (p : Nat) (x : Port) : (s.setPort p x).powerAt = s.powerAt := rfl
@[simp] theorem State.setPort_islandsAt (s : State) (p : Nat) (x : Port) : (s.setPort p x).islandsAt = s.islandsAt := rfl
@[simp] theorem State.setPort_appliesRecords (s : State) (p : Nat) (x : Port) : (s.setPort p x).appliesRecords = s.appliesRecords := rfl
@[simp] theorem State.setPort_regs (s : State) (p : Nat) (x : Port) : (s.setPort p x).regs = s.regs := rfl
@[simp] theorem State.setPort_active (s : State) (p : Nat) (x : Port) : (s.setPort p x).active = s.active := rfl
@[simp] theorem State.setPort_heldLow (s : State) (p : Nat) (x : Port) : (s.setPort p x).heldLow = s.heldLow := rfl
@[simp] theorem State.setPort_captures (s : State) (p : Nat) (x : Port) : (s.setPort p x).captures = s.captures := rfl
@[simp] theorem State.setPort_lastRead (s : State) (p : Nat) (x : Port) : (s.setPort p x).lastRead = s.lastRead := rfl
@[simp] theorem State.setPort_bar2Data (s : State) (p : Nat) (x : Port) : (s.setPort p x).bar2Data = s.bar2Data := rfl
@[simp] theorem State.setPort_waking (s : State) (p : Nat) (x : Port) : (s.setPort p x).waking = s.waking := rfl
@[simp] theorem State.setPort_stopPending (s : State) (p : Nat) (x : Port) : (s.setPort p x).stopPending = s.stopPending := rfl
@[simp] theorem State.setPort_rings (s : State) (p : Nat) (x : Port) : (s.setPort p x).rings = s.rings := rfl
@[simp] theorem State.setPort_band (s : State) (p : Nat) (x : Port) : (s.setPort p x).band = s.band := rfl
@[simp] theorem State.setPort_spool (s : State) (p : Nat) (x : Port) : (s.setPort p x).spool = s.spool := rfl
@[simp] theorem State.setPort_masks (s : State) (p : Nat) (x : Port) : (s.setPort p x).masks = s.masks := rfl
@[simp] theorem State.setPort_flash (s : State) (p : Nat) (x : Port) : (s.setPort p x).flash = s.flash := rfl
@[simp] theorem State.setPort_natShadow (s : State) (p : Nat) (x : Port) : (s.setPort p x).natShadow = s.natShadow := rfl
@[simp] theorem State.setPort_natActive (s : State) (p : Nat) (x : Port) : (s.setPort p x).natActive = s.natActive := rfl
@[simp] theorem State.setPort_widthShadow (s : State) (p : Nat) (x : Port) : (s.setPort p x).widthShadow = s.widthShadow := rfl
@[simp] theorem State.setPort_widthActive (s : State) (p : Nat) (x : Port) : (s.setPort p x).widthActive = s.widthActive := rfl
@[simp] theorem State.setPort_sine (s : State) (p : Nat) (x : Port) : (s.setPort p x).sine = s.sine := rfl
@[simp] theorem State.setPort_pvtTab (s : State) (p : Nat) (x : Port) : (s.setPort p x).pvtTab = s.pvtTab := rfl
@[simp] theorem State.setPort_ue (s : State) (p : Nat) (x : Port) : (s.setPort p x).ue = s.ue := rfl
@[simp] theorem State.setPort_ce (s : State) (p : Nat) (x : Port) : (s.setPort p x).ce = s.ce := rfl
@[simp] theorem State.setPort_eccCount (s : State) (p : Nat) (x : Port) : (s.setPort p x).eccCount = s.eccCount := rfl
@[simp] theorem State.setPort_mem (s : State) (p : Nat) (x : Port) : (s.setPort p x).mem = s.mem := rfl
@[simp] theorem State.setPort_memCfg (s : State) (p : Nat) (x : Port) : (s.setPort p x).memCfg = s.memCfg := rfl
@[simp] theorem State.setPort_scrubAt (s : State) (p : Nat) (x : Port) : (s.setPort p x).scrubAt = s.scrubAt := rfl
@[simp] theorem State.setPort_scrubbed (s : State) (p : Nat) (x : Port) : (s.setPort p x).scrubbed = s.scrubbed := rfl
@[simp] theorem State.setPort_chans (s : State) (p : Nat) (x : Port) : (s.setPort p x).chans = s.chans := rfl
@[simp] theorem State.setPort_axes (s : State) (p : Nat) (x : Port) : (s.setPort p x).axes = s.axes := rfl
@[simp] theorem State.setPort_mgroups (s : State) (p : Nat) (x : Port) : (s.setPort p x).mgroups = s.mgroups := rfl
@[simp] theorem State.setPort_msets (s : State) (p : Nat) (x : Port) : (s.setPort p x).msets = s.msets := rfl
@[simp] theorem State.setPort_jchans (s : State) (p : Nat) (x : Port) : (s.setPort p x).jchans = s.jchans := rfl
@[simp] theorem State.setPort_engines (s : State) (p : Nat) (x : Port) : (s.setPort p x).engines = s.engines := rfl
@[simp] theorem State.setPort_hal (s : State) (p : Nat) (x : Port) : (s.setPort p x).hal = s.hal := rfl
@[simp] theorem State.setPort_eths (s : State) (p : Nat) (x : Port) : (s.setPort p x).eths = s.eths := rfl
@[simp] theorem State.setPort_lnk (s : State) (p : Nat) (x : Port) : (s.setPort p x).lnk = s.lnk := rfl
@[simp] theorem State.setPort_pcie (s : State) (p : Nat) (x : Port) : (s.setPort p x).pcie = s.pcie := rfl
@[simp] theorem State.setPort_smp (s : State) (p : Nat) (x : Port) : (s.setPort p x).smp = s.smp := rfl
@[simp] theorem State.setPort_kps (s : State) (p : Nat) (x : Port) : (s.setPort p x).kps = s.kps := rfl
@[simp] theorem State.setPort_thm (s : State) (p : Nat) (x : Port) : (s.setPort p x).thm = s.thm := rfl
@[simp] theorem State.setPort_cals (s : State) (p : Nat) (x : Port) : (s.setPort p x).cals = s.cals := rfl
@[simp] theorem State.setPort_calTurn (s : State) (p : Nat) (x : Port) : (s.setPort p x).calTurn = s.calTurn := rfl
@[simp] theorem State.setPort_upd (s : State) (p : Nat) (x : Port) : (s.setPort p x).upd = s.upd := rfl
@[simp] theorem State.setPort_tap (s : State) (p : Nat) (x : Port) : (s.setPort p x).tap = s.tap := rfl
@[simp] theorem State.setPort_clocks (s : State) (p : Nat) (x : Port) : (s.setPort p x).clocks = s.clocks := rfl
@[simp] theorem State.setPort_ticks (s : State) (p : Nat) (x : Port) : (s.setPort p x).ticks = s.ticks := rfl
@[simp] theorem State.setPort_free (s : State) (p : Nat) (x : Port) : (s.setPort p x).free = s.free := rfl
@[simp] theorem State.setPort_pending (s : State) (p : Nat) (x : Port) : (s.setPort p x).pending = s.pending := rfl

/-! ### modPort -/

@[simp] theorem State.modPort_now (s : State) (p : Nat) (f : Port → Port) : (s.modPort p f).now = s.now := rfl
@[simp] theorem State.modPort_porst (s : State) (p : Nat) (f : Port → Port) : (s.modPort p f).porst = s.porst := rfl
@[simp] theorem State.modPort_ul24 (s : State) (p : Nat) (f : Port → Port) : (s.modPort p f).ul24 = s.ul24 := rfl
@[simp] theorem State.modPort_ftmStrap (s : State) (p : Nat) (f : Port → Port) : (s.modPort p f).ftmStrap = s.ftmStrap := rfl
@[simp] theorem State.modPort_ftm (s : State) (p : Nat) (f : Port → Port) : (s.modPort p f).ftm = s.ftm := rfl
@[simp] theorem State.modPort_devOp (s : State) (p : Nat) (f : Port → Port) : (s.modPort p f).devOp = s.devOp := rfl
@[simp] theorem State.modPort_devOpBack (s : State) (p : Nat) (f : Port → Port) : (s.modPort p f).devOpBack = s.devOpBack := rfl
@[simp] theorem State.modPort_bootFrom (s : State) (p : Nat) (f : Port → Port) : (s.modPort p f).bootFrom = s.bootFrom := rfl
@[simp] theorem State.modPort_relAt (s : State) (p : Nat) (f : Port → Port) : (s.modPort p f).relAt = s.relAt := rfl
@[simp] theorem State.modPort_sillAt (s : State) (p : Nat) (f : Port → Port) : (s.modPort p f).sillAt = s.sillAt := rfl
@[simp] theorem State.modPort_kpsAt (s : State) (p : Nat) (f : Port → Port) : (s.modPort p f).kpsAt = s.kpsAt := rfl
@[simp] theorem State.modPort_powerAt (s : State) (p : Nat) (f : Port → Port) : (s.modPort p f).powerAt = s.powerAt := rfl
@[simp] theorem State.modPort_islandsAt (s : State) (p : Nat) (f : Port → Port) : (s.modPort p f).islandsAt = s.islandsAt := rfl
@[simp] theorem State.modPort_appliesRecords (s : State) (p : Nat) (f : Port → Port) : (s.modPort p f).appliesRecords = s.appliesRecords := rfl
@[simp] theorem State.modPort_regs (s : State) (p : Nat) (f : Port → Port) : (s.modPort p f).regs = s.regs := rfl
@[simp] theorem State.modPort_active (s : State) (p : Nat) (f : Port → Port) : (s.modPort p f).active = s.active := rfl
@[simp] theorem State.modPort_heldLow (s : State) (p : Nat) (f : Port → Port) : (s.modPort p f).heldLow = s.heldLow := rfl
@[simp] theorem State.modPort_captures (s : State) (p : Nat) (f : Port → Port) : (s.modPort p f).captures = s.captures := rfl
@[simp] theorem State.modPort_lastRead (s : State) (p : Nat) (f : Port → Port) : (s.modPort p f).lastRead = s.lastRead := rfl
@[simp] theorem State.modPort_bar2Data (s : State) (p : Nat) (f : Port → Port) : (s.modPort p f).bar2Data = s.bar2Data := rfl
@[simp] theorem State.modPort_waking (s : State) (p : Nat) (f : Port → Port) : (s.modPort p f).waking = s.waking := rfl
@[simp] theorem State.modPort_stopPending (s : State) (p : Nat) (f : Port → Port) : (s.modPort p f).stopPending = s.stopPending := rfl
@[simp] theorem State.modPort_rings (s : State) (p : Nat) (f : Port → Port) : (s.modPort p f).rings = s.rings := rfl
@[simp] theorem State.modPort_band (s : State) (p : Nat) (f : Port → Port) : (s.modPort p f).band = s.band := rfl
@[simp] theorem State.modPort_spool (s : State) (p : Nat) (f : Port → Port) : (s.modPort p f).spool = s.spool := rfl
@[simp] theorem State.modPort_masks (s : State) (p : Nat) (f : Port → Port) : (s.modPort p f).masks = s.masks := rfl
@[simp] theorem State.modPort_flash (s : State) (p : Nat) (f : Port → Port) : (s.modPort p f).flash = s.flash := rfl
@[simp] theorem State.modPort_natShadow (s : State) (p : Nat) (f : Port → Port) : (s.modPort p f).natShadow = s.natShadow := rfl
@[simp] theorem State.modPort_natActive (s : State) (p : Nat) (f : Port → Port) : (s.modPort p f).natActive = s.natActive := rfl
@[simp] theorem State.modPort_widthShadow (s : State) (p : Nat) (f : Port → Port) : (s.modPort p f).widthShadow = s.widthShadow := rfl
@[simp] theorem State.modPort_widthActive (s : State) (p : Nat) (f : Port → Port) : (s.modPort p f).widthActive = s.widthActive := rfl
@[simp] theorem State.modPort_sine (s : State) (p : Nat) (f : Port → Port) : (s.modPort p f).sine = s.sine := rfl
@[simp] theorem State.modPort_pvtTab (s : State) (p : Nat) (f : Port → Port) : (s.modPort p f).pvtTab = s.pvtTab := rfl
@[simp] theorem State.modPort_ue (s : State) (p : Nat) (f : Port → Port) : (s.modPort p f).ue = s.ue := rfl
@[simp] theorem State.modPort_ce (s : State) (p : Nat) (f : Port → Port) : (s.modPort p f).ce = s.ce := rfl
@[simp] theorem State.modPort_eccCount (s : State) (p : Nat) (f : Port → Port) : (s.modPort p f).eccCount = s.eccCount := rfl
@[simp] theorem State.modPort_mem (s : State) (p : Nat) (f : Port → Port) : (s.modPort p f).mem = s.mem := rfl
@[simp] theorem State.modPort_memCfg (s : State) (p : Nat) (f : Port → Port) : (s.modPort p f).memCfg = s.memCfg := rfl
@[simp] theorem State.modPort_scrubAt (s : State) (p : Nat) (f : Port → Port) : (s.modPort p f).scrubAt = s.scrubAt := rfl
@[simp] theorem State.modPort_scrubbed (s : State) (p : Nat) (f : Port → Port) : (s.modPort p f).scrubbed = s.scrubbed := rfl
@[simp] theorem State.modPort_chans (s : State) (p : Nat) (f : Port → Port) : (s.modPort p f).chans = s.chans := rfl
@[simp] theorem State.modPort_axes (s : State) (p : Nat) (f : Port → Port) : (s.modPort p f).axes = s.axes := rfl
@[simp] theorem State.modPort_mgroups (s : State) (p : Nat) (f : Port → Port) : (s.modPort p f).mgroups = s.mgroups := rfl
@[simp] theorem State.modPort_msets (s : State) (p : Nat) (f : Port → Port) : (s.modPort p f).msets = s.msets := rfl
@[simp] theorem State.modPort_jchans (s : State) (p : Nat) (f : Port → Port) : (s.modPort p f).jchans = s.jchans := rfl
@[simp] theorem State.modPort_engines (s : State) (p : Nat) (f : Port → Port) : (s.modPort p f).engines = s.engines := rfl
@[simp] theorem State.modPort_hal (s : State) (p : Nat) (f : Port → Port) : (s.modPort p f).hal = s.hal := rfl
@[simp] theorem State.modPort_eths (s : State) (p : Nat) (f : Port → Port) : (s.modPort p f).eths = s.eths := rfl
@[simp] theorem State.modPort_lnk (s : State) (p : Nat) (f : Port → Port) : (s.modPort p f).lnk = s.lnk := rfl
@[simp] theorem State.modPort_pcie (s : State) (p : Nat) (f : Port → Port) : (s.modPort p f).pcie = s.pcie := rfl
@[simp] theorem State.modPort_smp (s : State) (p : Nat) (f : Port → Port) : (s.modPort p f).smp = s.smp := rfl
@[simp] theorem State.modPort_kps (s : State) (p : Nat) (f : Port → Port) : (s.modPort p f).kps = s.kps := rfl
@[simp] theorem State.modPort_thm (s : State) (p : Nat) (f : Port → Port) : (s.modPort p f).thm = s.thm := rfl
@[simp] theorem State.modPort_cals (s : State) (p : Nat) (f : Port → Port) : (s.modPort p f).cals = s.cals := rfl
@[simp] theorem State.modPort_calTurn (s : State) (p : Nat) (f : Port → Port) : (s.modPort p f).calTurn = s.calTurn := rfl
@[simp] theorem State.modPort_upd (s : State) (p : Nat) (f : Port → Port) : (s.modPort p f).upd = s.upd := rfl
@[simp] theorem State.modPort_tap (s : State) (p : Nat) (f : Port → Port) : (s.modPort p f).tap = s.tap := rfl
@[simp] theorem State.modPort_clocks (s : State) (p : Nat) (f : Port → Port) : (s.modPort p f).clocks = s.clocks := rfl
@[simp] theorem State.modPort_ticks (s : State) (p : Nat) (f : Port → Port) : (s.modPort p f).ticks = s.ticks := rfl
@[simp] theorem State.modPort_free (s : State) (p : Nat) (f : Port → Port) : (s.modPort p f).free = s.free := rfl
@[simp] theorem State.modPort_pending (s : State) (p : Nat) (f : Port → Port) : (s.modPort p f).pending = s.pending := rfl

/-! ### modFlow -/

@[simp] theorem State.modFlow_now (s : State) (p : Nat) (f : Flow → Flow) : (s.modFlow p f).now = s.now := rfl
@[simp] theorem State.modFlow_porst (s : State) (p : Nat) (f : Flow → Flow) : (s.modFlow p f).porst = s.porst := rfl
@[simp] theorem State.modFlow_ul24 (s : State) (p : Nat) (f : Flow → Flow) : (s.modFlow p f).ul24 = s.ul24 := rfl
@[simp] theorem State.modFlow_ftmStrap (s : State) (p : Nat) (f : Flow → Flow) : (s.modFlow p f).ftmStrap = s.ftmStrap := rfl
@[simp] theorem State.modFlow_ftm (s : State) (p : Nat) (f : Flow → Flow) : (s.modFlow p f).ftm = s.ftm := rfl
@[simp] theorem State.modFlow_devOp (s : State) (p : Nat) (f : Flow → Flow) : (s.modFlow p f).devOp = s.devOp := rfl
@[simp] theorem State.modFlow_devOpBack (s : State) (p : Nat) (f : Flow → Flow) : (s.modFlow p f).devOpBack = s.devOpBack := rfl
@[simp] theorem State.modFlow_bootFrom (s : State) (p : Nat) (f : Flow → Flow) : (s.modFlow p f).bootFrom = s.bootFrom := rfl
@[simp] theorem State.modFlow_relAt (s : State) (p : Nat) (f : Flow → Flow) : (s.modFlow p f).relAt = s.relAt := rfl
@[simp] theorem State.modFlow_sillAt (s : State) (p : Nat) (f : Flow → Flow) : (s.modFlow p f).sillAt = s.sillAt := rfl
@[simp] theorem State.modFlow_kpsAt (s : State) (p : Nat) (f : Flow → Flow) : (s.modFlow p f).kpsAt = s.kpsAt := rfl
@[simp] theorem State.modFlow_powerAt (s : State) (p : Nat) (f : Flow → Flow) : (s.modFlow p f).powerAt = s.powerAt := rfl
@[simp] theorem State.modFlow_islandsAt (s : State) (p : Nat) (f : Flow → Flow) : (s.modFlow p f).islandsAt = s.islandsAt := rfl
@[simp] theorem State.modFlow_appliesRecords (s : State) (p : Nat) (f : Flow → Flow) : (s.modFlow p f).appliesRecords = s.appliesRecords := rfl
@[simp] theorem State.modFlow_regs (s : State) (p : Nat) (f : Flow → Flow) : (s.modFlow p f).regs = s.regs := rfl
@[simp] theorem State.modFlow_active (s : State) (p : Nat) (f : Flow → Flow) : (s.modFlow p f).active = s.active := rfl
@[simp] theorem State.modFlow_heldLow (s : State) (p : Nat) (f : Flow → Flow) : (s.modFlow p f).heldLow = s.heldLow := rfl
@[simp] theorem State.modFlow_captures (s : State) (p : Nat) (f : Flow → Flow) : (s.modFlow p f).captures = s.captures := rfl
@[simp] theorem State.modFlow_lastRead (s : State) (p : Nat) (f : Flow → Flow) : (s.modFlow p f).lastRead = s.lastRead := rfl
@[simp] theorem State.modFlow_bar2Data (s : State) (p : Nat) (f : Flow → Flow) : (s.modFlow p f).bar2Data = s.bar2Data := rfl
@[simp] theorem State.modFlow_waking (s : State) (p : Nat) (f : Flow → Flow) : (s.modFlow p f).waking = s.waking := rfl
@[simp] theorem State.modFlow_stopPending (s : State) (p : Nat) (f : Flow → Flow) : (s.modFlow p f).stopPending = s.stopPending := rfl
@[simp] theorem State.modFlow_rings (s : State) (p : Nat) (f : Flow → Flow) : (s.modFlow p f).rings = s.rings := rfl
@[simp] theorem State.modFlow_band (s : State) (p : Nat) (f : Flow → Flow) : (s.modFlow p f).band = s.band := rfl
@[simp] theorem State.modFlow_spool (s : State) (p : Nat) (f : Flow → Flow) : (s.modFlow p f).spool = s.spool := rfl
@[simp] theorem State.modFlow_masks (s : State) (p : Nat) (f : Flow → Flow) : (s.modFlow p f).masks = s.masks := rfl
@[simp] theorem State.modFlow_flash (s : State) (p : Nat) (f : Flow → Flow) : (s.modFlow p f).flash = s.flash := rfl
@[simp] theorem State.modFlow_natShadow (s : State) (p : Nat) (f : Flow → Flow) : (s.modFlow p f).natShadow = s.natShadow := rfl
@[simp] theorem State.modFlow_natActive (s : State) (p : Nat) (f : Flow → Flow) : (s.modFlow p f).natActive = s.natActive := rfl
@[simp] theorem State.modFlow_widthShadow (s : State) (p : Nat) (f : Flow → Flow) : (s.modFlow p f).widthShadow = s.widthShadow := rfl
@[simp] theorem State.modFlow_widthActive (s : State) (p : Nat) (f : Flow → Flow) : (s.modFlow p f).widthActive = s.widthActive := rfl
@[simp] theorem State.modFlow_sine (s : State) (p : Nat) (f : Flow → Flow) : (s.modFlow p f).sine = s.sine := rfl
@[simp] theorem State.modFlow_pvtTab (s : State) (p : Nat) (f : Flow → Flow) : (s.modFlow p f).pvtTab = s.pvtTab := rfl
@[simp] theorem State.modFlow_ue (s : State) (p : Nat) (f : Flow → Flow) : (s.modFlow p f).ue = s.ue := rfl
@[simp] theorem State.modFlow_ce (s : State) (p : Nat) (f : Flow → Flow) : (s.modFlow p f).ce = s.ce := rfl
@[simp] theorem State.modFlow_eccCount (s : State) (p : Nat) (f : Flow → Flow) : (s.modFlow p f).eccCount = s.eccCount := rfl
@[simp] theorem State.modFlow_mem (s : State) (p : Nat) (f : Flow → Flow) : (s.modFlow p f).mem = s.mem := rfl
@[simp] theorem State.modFlow_memCfg (s : State) (p : Nat) (f : Flow → Flow) : (s.modFlow p f).memCfg = s.memCfg := rfl
@[simp] theorem State.modFlow_scrubAt (s : State) (p : Nat) (f : Flow → Flow) : (s.modFlow p f).scrubAt = s.scrubAt := rfl
@[simp] theorem State.modFlow_scrubbed (s : State) (p : Nat) (f : Flow → Flow) : (s.modFlow p f).scrubbed = s.scrubbed := rfl
@[simp] theorem State.modFlow_chans (s : State) (p : Nat) (f : Flow → Flow) : (s.modFlow p f).chans = s.chans := rfl
@[simp] theorem State.modFlow_axes (s : State) (p : Nat) (f : Flow → Flow) : (s.modFlow p f).axes = s.axes := rfl
@[simp] theorem State.modFlow_mgroups (s : State) (p : Nat) (f : Flow → Flow) : (s.modFlow p f).mgroups = s.mgroups := rfl
@[simp] theorem State.modFlow_msets (s : State) (p : Nat) (f : Flow → Flow) : (s.modFlow p f).msets = s.msets := rfl
@[simp] theorem State.modFlow_jchans (s : State) (p : Nat) (f : Flow → Flow) : (s.modFlow p f).jchans = s.jchans := rfl
@[simp] theorem State.modFlow_engines (s : State) (p : Nat) (f : Flow → Flow) : (s.modFlow p f).engines = s.engines := rfl
@[simp] theorem State.modFlow_hal (s : State) (p : Nat) (f : Flow → Flow) : (s.modFlow p f).hal = s.hal := rfl
@[simp] theorem State.modFlow_eths (s : State) (p : Nat) (f : Flow → Flow) : (s.modFlow p f).eths = s.eths := rfl
@[simp] theorem State.modFlow_lnk (s : State) (p : Nat) (f : Flow → Flow) : (s.modFlow p f).lnk = s.lnk := rfl
@[simp] theorem State.modFlow_pcie (s : State) (p : Nat) (f : Flow → Flow) : (s.modFlow p f).pcie = s.pcie := rfl
@[simp] theorem State.modFlow_smp (s : State) (p : Nat) (f : Flow → Flow) : (s.modFlow p f).smp = s.smp := rfl
@[simp] theorem State.modFlow_kps (s : State) (p : Nat) (f : Flow → Flow) : (s.modFlow p f).kps = s.kps := rfl
@[simp] theorem State.modFlow_thm (s : State) (p : Nat) (f : Flow → Flow) : (s.modFlow p f).thm = s.thm := rfl
@[simp] theorem State.modFlow_cals (s : State) (p : Nat) (f : Flow → Flow) : (s.modFlow p f).cals = s.cals := rfl
@[simp] theorem State.modFlow_calTurn (s : State) (p : Nat) (f : Flow → Flow) : (s.modFlow p f).calTurn = s.calTurn := rfl
@[simp] theorem State.modFlow_upd (s : State) (p : Nat) (f : Flow → Flow) : (s.modFlow p f).upd = s.upd := rfl
@[simp] theorem State.modFlow_tap (s : State) (p : Nat) (f : Flow → Flow) : (s.modFlow p f).tap = s.tap := rfl
@[simp] theorem State.modFlow_clocks (s : State) (p : Nat) (f : Flow → Flow) : (s.modFlow p f).clocks = s.clocks := rfl
@[simp] theorem State.modFlow_ticks (s : State) (p : Nat) (f : Flow → Flow) : (s.modFlow p f).ticks = s.ticks := rfl
@[simp] theorem State.modFlow_free (s : State) (p : Nat) (f : Flow → Flow) : (s.modFlow p f).free = s.free := rfl
@[simp] theorem State.modFlow_pending (s : State) (p : Nat) (f : Flow → Flow) : (s.modFlow p f).pending = s.pending := rfl

/-! ### setRing -/

@[simp] theorem State.setRing_now (s : State) (p : Nat) (x : Ring) : (s.setRing p x).now = s.now := rfl
@[simp] theorem State.setRing_porst (s : State) (p : Nat) (x : Ring) : (s.setRing p x).porst = s.porst := rfl
@[simp] theorem State.setRing_ul24 (s : State) (p : Nat) (x : Ring) : (s.setRing p x).ul24 = s.ul24 := rfl
@[simp] theorem State.setRing_ftmStrap (s : State) (p : Nat) (x : Ring) : (s.setRing p x).ftmStrap = s.ftmStrap := rfl
@[simp] theorem State.setRing_ftm (s : State) (p : Nat) (x : Ring) : (s.setRing p x).ftm = s.ftm := rfl
@[simp] theorem State.setRing_devOp (s : State) (p : Nat) (x : Ring) : (s.setRing p x).devOp = s.devOp := rfl
@[simp] theorem State.setRing_devOpBack (s : State) (p : Nat) (x : Ring) : (s.setRing p x).devOpBack = s.devOpBack := rfl
@[simp] theorem State.setRing_bootFrom (s : State) (p : Nat) (x : Ring) : (s.setRing p x).bootFrom = s.bootFrom := rfl
@[simp] theorem State.setRing_relAt (s : State) (p : Nat) (x : Ring) : (s.setRing p x).relAt = s.relAt := rfl
@[simp] theorem State.setRing_sillAt (s : State) (p : Nat) (x : Ring) : (s.setRing p x).sillAt = s.sillAt := rfl
@[simp] theorem State.setRing_kpsAt (s : State) (p : Nat) (x : Ring) : (s.setRing p x).kpsAt = s.kpsAt := rfl
@[simp] theorem State.setRing_powerAt (s : State) (p : Nat) (x : Ring) : (s.setRing p x).powerAt = s.powerAt := rfl
@[simp] theorem State.setRing_islandsAt (s : State) (p : Nat) (x : Ring) : (s.setRing p x).islandsAt = s.islandsAt := rfl
@[simp] theorem State.setRing_appliesRecords (s : State) (p : Nat) (x : Ring) : (s.setRing p x).appliesRecords = s.appliesRecords := rfl
@[simp] theorem State.setRing_regs (s : State) (p : Nat) (x : Ring) : (s.setRing p x).regs = s.regs := rfl
@[simp] theorem State.setRing_active (s : State) (p : Nat) (x : Ring) : (s.setRing p x).active = s.active := rfl
@[simp] theorem State.setRing_heldLow (s : State) (p : Nat) (x : Ring) : (s.setRing p x).heldLow = s.heldLow := rfl
@[simp] theorem State.setRing_captures (s : State) (p : Nat) (x : Ring) : (s.setRing p x).captures = s.captures := rfl
@[simp] theorem State.setRing_lastRead (s : State) (p : Nat) (x : Ring) : (s.setRing p x).lastRead = s.lastRead := rfl
@[simp] theorem State.setRing_bar2Data (s : State) (p : Nat) (x : Ring) : (s.setRing p x).bar2Data = s.bar2Data := rfl
@[simp] theorem State.setRing_waking (s : State) (p : Nat) (x : Ring) : (s.setRing p x).waking = s.waking := rfl
@[simp] theorem State.setRing_stopPending (s : State) (p : Nat) (x : Ring) : (s.setRing p x).stopPending = s.stopPending := rfl
@[simp] theorem State.setRing_ports (s : State) (p : Nat) (x : Ring) : (s.setRing p x).ports = s.ports := rfl
@[simp] theorem State.setRing_band (s : State) (p : Nat) (x : Ring) : (s.setRing p x).band = s.band := rfl
@[simp] theorem State.setRing_spool (s : State) (p : Nat) (x : Ring) : (s.setRing p x).spool = s.spool := rfl
@[simp] theorem State.setRing_masks (s : State) (p : Nat) (x : Ring) : (s.setRing p x).masks = s.masks := rfl
@[simp] theorem State.setRing_flash (s : State) (p : Nat) (x : Ring) : (s.setRing p x).flash = s.flash := rfl
@[simp] theorem State.setRing_natShadow (s : State) (p : Nat) (x : Ring) : (s.setRing p x).natShadow = s.natShadow := rfl
@[simp] theorem State.setRing_natActive (s : State) (p : Nat) (x : Ring) : (s.setRing p x).natActive = s.natActive := rfl
@[simp] theorem State.setRing_widthShadow (s : State) (p : Nat) (x : Ring) : (s.setRing p x).widthShadow = s.widthShadow := rfl
@[simp] theorem State.setRing_widthActive (s : State) (p : Nat) (x : Ring) : (s.setRing p x).widthActive = s.widthActive := rfl
@[simp] theorem State.setRing_sine (s : State) (p : Nat) (x : Ring) : (s.setRing p x).sine = s.sine := rfl
@[simp] theorem State.setRing_pvtTab (s : State) (p : Nat) (x : Ring) : (s.setRing p x).pvtTab = s.pvtTab := rfl
@[simp] theorem State.setRing_ue (s : State) (p : Nat) (x : Ring) : (s.setRing p x).ue = s.ue := rfl
@[simp] theorem State.setRing_ce (s : State) (p : Nat) (x : Ring) : (s.setRing p x).ce = s.ce := rfl
@[simp] theorem State.setRing_eccCount (s : State) (p : Nat) (x : Ring) : (s.setRing p x).eccCount = s.eccCount := rfl
@[simp] theorem State.setRing_mem (s : State) (p : Nat) (x : Ring) : (s.setRing p x).mem = s.mem := rfl
@[simp] theorem State.setRing_memCfg (s : State) (p : Nat) (x : Ring) : (s.setRing p x).memCfg = s.memCfg := rfl
@[simp] theorem State.setRing_scrubAt (s : State) (p : Nat) (x : Ring) : (s.setRing p x).scrubAt = s.scrubAt := rfl
@[simp] theorem State.setRing_scrubbed (s : State) (p : Nat) (x : Ring) : (s.setRing p x).scrubbed = s.scrubbed := rfl
@[simp] theorem State.setRing_chans (s : State) (p : Nat) (x : Ring) : (s.setRing p x).chans = s.chans := rfl
@[simp] theorem State.setRing_axes (s : State) (p : Nat) (x : Ring) : (s.setRing p x).axes = s.axes := rfl
@[simp] theorem State.setRing_mgroups (s : State) (p : Nat) (x : Ring) : (s.setRing p x).mgroups = s.mgroups := rfl
@[simp] theorem State.setRing_msets (s : State) (p : Nat) (x : Ring) : (s.setRing p x).msets = s.msets := rfl
@[simp] theorem State.setRing_jchans (s : State) (p : Nat) (x : Ring) : (s.setRing p x).jchans = s.jchans := rfl
@[simp] theorem State.setRing_engines (s : State) (p : Nat) (x : Ring) : (s.setRing p x).engines = s.engines := rfl
@[simp] theorem State.setRing_hal (s : State) (p : Nat) (x : Ring) : (s.setRing p x).hal = s.hal := rfl
@[simp] theorem State.setRing_eths (s : State) (p : Nat) (x : Ring) : (s.setRing p x).eths = s.eths := rfl
@[simp] theorem State.setRing_lnk (s : State) (p : Nat) (x : Ring) : (s.setRing p x).lnk = s.lnk := rfl
@[simp] theorem State.setRing_pcie (s : State) (p : Nat) (x : Ring) : (s.setRing p x).pcie = s.pcie := rfl
@[simp] theorem State.setRing_smp (s : State) (p : Nat) (x : Ring) : (s.setRing p x).smp = s.smp := rfl
@[simp] theorem State.setRing_kps (s : State) (p : Nat) (x : Ring) : (s.setRing p x).kps = s.kps := rfl
@[simp] theorem State.setRing_thm (s : State) (p : Nat) (x : Ring) : (s.setRing p x).thm = s.thm := rfl
@[simp] theorem State.setRing_cals (s : State) (p : Nat) (x : Ring) : (s.setRing p x).cals = s.cals := rfl
@[simp] theorem State.setRing_calTurn (s : State) (p : Nat) (x : Ring) : (s.setRing p x).calTurn = s.calTurn := rfl
@[simp] theorem State.setRing_upd (s : State) (p : Nat) (x : Ring) : (s.setRing p x).upd = s.upd := rfl
@[simp] theorem State.setRing_tap (s : State) (p : Nat) (x : Ring) : (s.setRing p x).tap = s.tap := rfl
@[simp] theorem State.setRing_clocks (s : State) (p : Nat) (x : Ring) : (s.setRing p x).clocks = s.clocks := rfl
@[simp] theorem State.setRing_ticks (s : State) (p : Nat) (x : Ring) : (s.setRing p x).ticks = s.ticks := rfl
@[simp] theorem State.setRing_free (s : State) (p : Nat) (x : Ring) : (s.setRing p x).free = s.free := rfl
@[simp] theorem State.setRing_pending (s : State) (p : Nat) (x : Ring) : (s.setRing p x).pending = s.pending := rfl

/-! ### modRing -/

@[simp] theorem State.modRing_now (s : State) (p : Nat) (f : Ring → Ring) : (s.modRing p f).now = s.now := rfl
@[simp] theorem State.modRing_porst (s : State) (p : Nat) (f : Ring → Ring) : (s.modRing p f).porst = s.porst := rfl
@[simp] theorem State.modRing_ul24 (s : State) (p : Nat) (f : Ring → Ring) : (s.modRing p f).ul24 = s.ul24 := rfl
@[simp] theorem State.modRing_ftmStrap (s : State) (p : Nat) (f : Ring → Ring) : (s.modRing p f).ftmStrap = s.ftmStrap := rfl
@[simp] theorem State.modRing_ftm (s : State) (p : Nat) (f : Ring → Ring) : (s.modRing p f).ftm = s.ftm := rfl
@[simp] theorem State.modRing_devOp (s : State) (p : Nat) (f : Ring → Ring) : (s.modRing p f).devOp = s.devOp := rfl
@[simp] theorem State.modRing_devOpBack (s : State) (p : Nat) (f : Ring → Ring) : (s.modRing p f).devOpBack = s.devOpBack := rfl
@[simp] theorem State.modRing_bootFrom (s : State) (p : Nat) (f : Ring → Ring) : (s.modRing p f).bootFrom = s.bootFrom := rfl
@[simp] theorem State.modRing_relAt (s : State) (p : Nat) (f : Ring → Ring) : (s.modRing p f).relAt = s.relAt := rfl
@[simp] theorem State.modRing_sillAt (s : State) (p : Nat) (f : Ring → Ring) : (s.modRing p f).sillAt = s.sillAt := rfl
@[simp] theorem State.modRing_kpsAt (s : State) (p : Nat) (f : Ring → Ring) : (s.modRing p f).kpsAt = s.kpsAt := rfl
@[simp] theorem State.modRing_powerAt (s : State) (p : Nat) (f : Ring → Ring) : (s.modRing p f).powerAt = s.powerAt := rfl
@[simp] theorem State.modRing_islandsAt (s : State) (p : Nat) (f : Ring → Ring) : (s.modRing p f).islandsAt = s.islandsAt := rfl
@[simp] theorem State.modRing_appliesRecords (s : State) (p : Nat) (f : Ring → Ring) : (s.modRing p f).appliesRecords = s.appliesRecords := rfl
@[simp] theorem State.modRing_regs (s : State) (p : Nat) (f : Ring → Ring) : (s.modRing p f).regs = s.regs := rfl
@[simp] theorem State.modRing_active (s : State) (p : Nat) (f : Ring → Ring) : (s.modRing p f).active = s.active := rfl
@[simp] theorem State.modRing_heldLow (s : State) (p : Nat) (f : Ring → Ring) : (s.modRing p f).heldLow = s.heldLow := rfl
@[simp] theorem State.modRing_captures (s : State) (p : Nat) (f : Ring → Ring) : (s.modRing p f).captures = s.captures := rfl
@[simp] theorem State.modRing_lastRead (s : State) (p : Nat) (f : Ring → Ring) : (s.modRing p f).lastRead = s.lastRead := rfl
@[simp] theorem State.modRing_bar2Data (s : State) (p : Nat) (f : Ring → Ring) : (s.modRing p f).bar2Data = s.bar2Data := rfl
@[simp] theorem State.modRing_waking (s : State) (p : Nat) (f : Ring → Ring) : (s.modRing p f).waking = s.waking := rfl
@[simp] theorem State.modRing_stopPending (s : State) (p : Nat) (f : Ring → Ring) : (s.modRing p f).stopPending = s.stopPending := rfl
@[simp] theorem State.modRing_ports (s : State) (p : Nat) (f : Ring → Ring) : (s.modRing p f).ports = s.ports := rfl
@[simp] theorem State.modRing_band (s : State) (p : Nat) (f : Ring → Ring) : (s.modRing p f).band = s.band := rfl
@[simp] theorem State.modRing_spool (s : State) (p : Nat) (f : Ring → Ring) : (s.modRing p f).spool = s.spool := rfl
@[simp] theorem State.modRing_masks (s : State) (p : Nat) (f : Ring → Ring) : (s.modRing p f).masks = s.masks := rfl
@[simp] theorem State.modRing_flash (s : State) (p : Nat) (f : Ring → Ring) : (s.modRing p f).flash = s.flash := rfl
@[simp] theorem State.modRing_natShadow (s : State) (p : Nat) (f : Ring → Ring) : (s.modRing p f).natShadow = s.natShadow := rfl
@[simp] theorem State.modRing_natActive (s : State) (p : Nat) (f : Ring → Ring) : (s.modRing p f).natActive = s.natActive := rfl
@[simp] theorem State.modRing_widthShadow (s : State) (p : Nat) (f : Ring → Ring) : (s.modRing p f).widthShadow = s.widthShadow := rfl
@[simp] theorem State.modRing_widthActive (s : State) (p : Nat) (f : Ring → Ring) : (s.modRing p f).widthActive = s.widthActive := rfl
@[simp] theorem State.modRing_sine (s : State) (p : Nat) (f : Ring → Ring) : (s.modRing p f).sine = s.sine := rfl
@[simp] theorem State.modRing_pvtTab (s : State) (p : Nat) (f : Ring → Ring) : (s.modRing p f).pvtTab = s.pvtTab := rfl
@[simp] theorem State.modRing_ue (s : State) (p : Nat) (f : Ring → Ring) : (s.modRing p f).ue = s.ue := rfl
@[simp] theorem State.modRing_ce (s : State) (p : Nat) (f : Ring → Ring) : (s.modRing p f).ce = s.ce := rfl
@[simp] theorem State.modRing_eccCount (s : State) (p : Nat) (f : Ring → Ring) : (s.modRing p f).eccCount = s.eccCount := rfl
@[simp] theorem State.modRing_mem (s : State) (p : Nat) (f : Ring → Ring) : (s.modRing p f).mem = s.mem := rfl
@[simp] theorem State.modRing_memCfg (s : State) (p : Nat) (f : Ring → Ring) : (s.modRing p f).memCfg = s.memCfg := rfl
@[simp] theorem State.modRing_scrubAt (s : State) (p : Nat) (f : Ring → Ring) : (s.modRing p f).scrubAt = s.scrubAt := rfl
@[simp] theorem State.modRing_scrubbed (s : State) (p : Nat) (f : Ring → Ring) : (s.modRing p f).scrubbed = s.scrubbed := rfl
@[simp] theorem State.modRing_chans (s : State) (p : Nat) (f : Ring → Ring) : (s.modRing p f).chans = s.chans := rfl
@[simp] theorem State.modRing_axes (s : State) (p : Nat) (f : Ring → Ring) : (s.modRing p f).axes = s.axes := rfl
@[simp] theorem State.modRing_mgroups (s : State) (p : Nat) (f : Ring → Ring) : (s.modRing p f).mgroups = s.mgroups := rfl
@[simp] theorem State.modRing_msets (s : State) (p : Nat) (f : Ring → Ring) : (s.modRing p f).msets = s.msets := rfl
@[simp] theorem State.modRing_jchans (s : State) (p : Nat) (f : Ring → Ring) : (s.modRing p f).jchans = s.jchans := rfl
@[simp] theorem State.modRing_engines (s : State) (p : Nat) (f : Ring → Ring) : (s.modRing p f).engines = s.engines := rfl
@[simp] theorem State.modRing_hal (s : State) (p : Nat) (f : Ring → Ring) : (s.modRing p f).hal = s.hal := rfl
@[simp] theorem State.modRing_eths (s : State) (p : Nat) (f : Ring → Ring) : (s.modRing p f).eths = s.eths := rfl
@[simp] theorem State.modRing_lnk (s : State) (p : Nat) (f : Ring → Ring) : (s.modRing p f).lnk = s.lnk := rfl
@[simp] theorem State.modRing_pcie (s : State) (p : Nat) (f : Ring → Ring) : (s.modRing p f).pcie = s.pcie := rfl
@[simp] theorem State.modRing_smp (s : State) (p : Nat) (f : Ring → Ring) : (s.modRing p f).smp = s.smp := rfl
@[simp] theorem State.modRing_kps (s : State) (p : Nat) (f : Ring → Ring) : (s.modRing p f).kps = s.kps := rfl
@[simp] theorem State.modRing_thm (s : State) (p : Nat) (f : Ring → Ring) : (s.modRing p f).thm = s.thm := rfl
@[simp] theorem State.modRing_cals (s : State) (p : Nat) (f : Ring → Ring) : (s.modRing p f).cals = s.cals := rfl
@[simp] theorem State.modRing_calTurn (s : State) (p : Nat) (f : Ring → Ring) : (s.modRing p f).calTurn = s.calTurn := rfl
@[simp] theorem State.modRing_upd (s : State) (p : Nat) (f : Ring → Ring) : (s.modRing p f).upd = s.upd := rfl
@[simp] theorem State.modRing_tap (s : State) (p : Nat) (f : Ring → Ring) : (s.modRing p f).tap = s.tap := rfl
@[simp] theorem State.modRing_clocks (s : State) (p : Nat) (f : Ring → Ring) : (s.modRing p f).clocks = s.clocks := rfl
@[simp] theorem State.modRing_ticks (s : State) (p : Nat) (f : Ring → Ring) : (s.modRing p f).ticks = s.ticks := rfl
@[simp] theorem State.modRing_free (s : State) (p : Nat) (f : Ring → Ring) : (s.modRing p f).free = s.free := rfl
@[simp] theorem State.modRing_pending (s : State) (p : Nat) (f : Ring → Ring) : (s.modRing p f).pending = s.pending := rfl

/-! ### setChan -/

@[simp] theorem State.setChan_now (s : State) (c : Nat) (x : Chan) : (s.setChan c x).now = s.now := rfl
@[simp] theorem State.setChan_porst (s : State) (c : Nat) (x : Chan) : (s.setChan c x).porst = s.porst := rfl
@[simp] theorem State.setChan_ul24 (s : State) (c : Nat) (x : Chan) : (s.setChan c x).ul24 = s.ul24 := rfl
@[simp] theorem State.setChan_ftmStrap (s : State) (c : Nat) (x : Chan) : (s.setChan c x).ftmStrap = s.ftmStrap := rfl
@[simp] theorem State.setChan_ftm (s : State) (c : Nat) (x : Chan) : (s.setChan c x).ftm = s.ftm := rfl
@[simp] theorem State.setChan_devOp (s : State) (c : Nat) (x : Chan) : (s.setChan c x).devOp = s.devOp := rfl
@[simp] theorem State.setChan_devOpBack (s : State) (c : Nat) (x : Chan) : (s.setChan c x).devOpBack = s.devOpBack := rfl
@[simp] theorem State.setChan_bootFrom (s : State) (c : Nat) (x : Chan) : (s.setChan c x).bootFrom = s.bootFrom := rfl
@[simp] theorem State.setChan_relAt (s : State) (c : Nat) (x : Chan) : (s.setChan c x).relAt = s.relAt := rfl
@[simp] theorem State.setChan_sillAt (s : State) (c : Nat) (x : Chan) : (s.setChan c x).sillAt = s.sillAt := rfl
@[simp] theorem State.setChan_kpsAt (s : State) (c : Nat) (x : Chan) : (s.setChan c x).kpsAt = s.kpsAt := rfl
@[simp] theorem State.setChan_powerAt (s : State) (c : Nat) (x : Chan) : (s.setChan c x).powerAt = s.powerAt := rfl
@[simp] theorem State.setChan_islandsAt (s : State) (c : Nat) (x : Chan) : (s.setChan c x).islandsAt = s.islandsAt := rfl
@[simp] theorem State.setChan_appliesRecords (s : State) (c : Nat) (x : Chan) : (s.setChan c x).appliesRecords = s.appliesRecords := rfl
@[simp] theorem State.setChan_regs (s : State) (c : Nat) (x : Chan) : (s.setChan c x).regs = s.regs := rfl
@[simp] theorem State.setChan_active (s : State) (c : Nat) (x : Chan) : (s.setChan c x).active = s.active := rfl
@[simp] theorem State.setChan_heldLow (s : State) (c : Nat) (x : Chan) : (s.setChan c x).heldLow = s.heldLow := rfl
@[simp] theorem State.setChan_captures (s : State) (c : Nat) (x : Chan) : (s.setChan c x).captures = s.captures := rfl
@[simp] theorem State.setChan_lastRead (s : State) (c : Nat) (x : Chan) : (s.setChan c x).lastRead = s.lastRead := rfl
@[simp] theorem State.setChan_bar2Data (s : State) (c : Nat) (x : Chan) : (s.setChan c x).bar2Data = s.bar2Data := rfl
@[simp] theorem State.setChan_waking (s : State) (c : Nat) (x : Chan) : (s.setChan c x).waking = s.waking := rfl
@[simp] theorem State.setChan_stopPending (s : State) (c : Nat) (x : Chan) : (s.setChan c x).stopPending = s.stopPending := rfl
@[simp] theorem State.setChan_ports (s : State) (c : Nat) (x : Chan) : (s.setChan c x).ports = s.ports := rfl
@[simp] theorem State.setChan_rings (s : State) (c : Nat) (x : Chan) : (s.setChan c x).rings = s.rings := rfl
@[simp] theorem State.setChan_band (s : State) (c : Nat) (x : Chan) : (s.setChan c x).band = s.band := rfl
@[simp] theorem State.setChan_spool (s : State) (c : Nat) (x : Chan) : (s.setChan c x).spool = s.spool := rfl
@[simp] theorem State.setChan_masks (s : State) (c : Nat) (x : Chan) : (s.setChan c x).masks = s.masks := rfl
@[simp] theorem State.setChan_flash (s : State) (c : Nat) (x : Chan) : (s.setChan c x).flash = s.flash := rfl
@[simp] theorem State.setChan_natShadow (s : State) (c : Nat) (x : Chan) : (s.setChan c x).natShadow = s.natShadow := rfl
@[simp] theorem State.setChan_natActive (s : State) (c : Nat) (x : Chan) : (s.setChan c x).natActive = s.natActive := rfl
@[simp] theorem State.setChan_widthShadow (s : State) (c : Nat) (x : Chan) : (s.setChan c x).widthShadow = s.widthShadow := rfl
@[simp] theorem State.setChan_widthActive (s : State) (c : Nat) (x : Chan) : (s.setChan c x).widthActive = s.widthActive := rfl
@[simp] theorem State.setChan_sine (s : State) (c : Nat) (x : Chan) : (s.setChan c x).sine = s.sine := rfl
@[simp] theorem State.setChan_pvtTab (s : State) (c : Nat) (x : Chan) : (s.setChan c x).pvtTab = s.pvtTab := rfl
@[simp] theorem State.setChan_ue (s : State) (c : Nat) (x : Chan) : (s.setChan c x).ue = s.ue := rfl
@[simp] theorem State.setChan_ce (s : State) (c : Nat) (x : Chan) : (s.setChan c x).ce = s.ce := rfl
@[simp] theorem State.setChan_eccCount (s : State) (c : Nat) (x : Chan) : (s.setChan c x).eccCount = s.eccCount := rfl
@[simp] theorem State.setChan_mem (s : State) (c : Nat) (x : Chan) : (s.setChan c x).mem = s.mem := rfl
@[simp] theorem State.setChan_memCfg (s : State) (c : Nat) (x : Chan) : (s.setChan c x).memCfg = s.memCfg := rfl
@[simp] theorem State.setChan_scrubAt (s : State) (c : Nat) (x : Chan) : (s.setChan c x).scrubAt = s.scrubAt := rfl
@[simp] theorem State.setChan_scrubbed (s : State) (c : Nat) (x : Chan) : (s.setChan c x).scrubbed = s.scrubbed := rfl
@[simp] theorem State.setChan_axes (s : State) (c : Nat) (x : Chan) : (s.setChan c x).axes = s.axes := rfl
@[simp] theorem State.setChan_mgroups (s : State) (c : Nat) (x : Chan) : (s.setChan c x).mgroups = s.mgroups := rfl
@[simp] theorem State.setChan_msets (s : State) (c : Nat) (x : Chan) : (s.setChan c x).msets = s.msets := rfl
@[simp] theorem State.setChan_jchans (s : State) (c : Nat) (x : Chan) : (s.setChan c x).jchans = s.jchans := rfl
@[simp] theorem State.setChan_engines (s : State) (c : Nat) (x : Chan) : (s.setChan c x).engines = s.engines := rfl
@[simp] theorem State.setChan_hal (s : State) (c : Nat) (x : Chan) : (s.setChan c x).hal = s.hal := rfl
@[simp] theorem State.setChan_eths (s : State) (c : Nat) (x : Chan) : (s.setChan c x).eths = s.eths := rfl
@[simp] theorem State.setChan_lnk (s : State) (c : Nat) (x : Chan) : (s.setChan c x).lnk = s.lnk := rfl
@[simp] theorem State.setChan_pcie (s : State) (c : Nat) (x : Chan) : (s.setChan c x).pcie = s.pcie := rfl
@[simp] theorem State.setChan_smp (s : State) (c : Nat) (x : Chan) : (s.setChan c x).smp = s.smp := rfl
@[simp] theorem State.setChan_kps (s : State) (c : Nat) (x : Chan) : (s.setChan c x).kps = s.kps := rfl
@[simp] theorem State.setChan_thm (s : State) (c : Nat) (x : Chan) : (s.setChan c x).thm = s.thm := rfl
@[simp] theorem State.setChan_cals (s : State) (c : Nat) (x : Chan) : (s.setChan c x).cals = s.cals := rfl
@[simp] theorem State.setChan_calTurn (s : State) (c : Nat) (x : Chan) : (s.setChan c x).calTurn = s.calTurn := rfl
@[simp] theorem State.setChan_upd (s : State) (c : Nat) (x : Chan) : (s.setChan c x).upd = s.upd := rfl
@[simp] theorem State.setChan_tap (s : State) (c : Nat) (x : Chan) : (s.setChan c x).tap = s.tap := rfl
@[simp] theorem State.setChan_clocks (s : State) (c : Nat) (x : Chan) : (s.setChan c x).clocks = s.clocks := rfl
@[simp] theorem State.setChan_ticks (s : State) (c : Nat) (x : Chan) : (s.setChan c x).ticks = s.ticks := rfl
@[simp] theorem State.setChan_free (s : State) (c : Nat) (x : Chan) : (s.setChan c x).free = s.free := rfl
@[simp] theorem State.setChan_pending (s : State) (c : Nat) (x : Chan) : (s.setChan c x).pending = s.pending := rfl

/-! ### setAxis -/

@[simp] theorem State.setAxis_now (s : State) (a : Nat) (x : Axis) : (s.setAxis a x).now = s.now := rfl
@[simp] theorem State.setAxis_porst (s : State) (a : Nat) (x : Axis) : (s.setAxis a x).porst = s.porst := rfl
@[simp] theorem State.setAxis_ul24 (s : State) (a : Nat) (x : Axis) : (s.setAxis a x).ul24 = s.ul24 := rfl
@[simp] theorem State.setAxis_ftmStrap (s : State) (a : Nat) (x : Axis) : (s.setAxis a x).ftmStrap = s.ftmStrap := rfl
@[simp] theorem State.setAxis_ftm (s : State) (a : Nat) (x : Axis) : (s.setAxis a x).ftm = s.ftm := rfl
@[simp] theorem State.setAxis_devOp (s : State) (a : Nat) (x : Axis) : (s.setAxis a x).devOp = s.devOp := rfl
@[simp] theorem State.setAxis_devOpBack (s : State) (a : Nat) (x : Axis) : (s.setAxis a x).devOpBack = s.devOpBack := rfl
@[simp] theorem State.setAxis_bootFrom (s : State) (a : Nat) (x : Axis) : (s.setAxis a x).bootFrom = s.bootFrom := rfl
@[simp] theorem State.setAxis_relAt (s : State) (a : Nat) (x : Axis) : (s.setAxis a x).relAt = s.relAt := rfl
@[simp] theorem State.setAxis_sillAt (s : State) (a : Nat) (x : Axis) : (s.setAxis a x).sillAt = s.sillAt := rfl
@[simp] theorem State.setAxis_kpsAt (s : State) (a : Nat) (x : Axis) : (s.setAxis a x).kpsAt = s.kpsAt := rfl
@[simp] theorem State.setAxis_powerAt (s : State) (a : Nat) (x : Axis) : (s.setAxis a x).powerAt = s.powerAt := rfl
@[simp] theorem State.setAxis_islandsAt (s : State) (a : Nat) (x : Axis) : (s.setAxis a x).islandsAt = s.islandsAt := rfl
@[simp] theorem State.setAxis_appliesRecords (s : State) (a : Nat) (x : Axis) : (s.setAxis a x).appliesRecords = s.appliesRecords := rfl
@[simp] theorem State.setAxis_regs (s : State) (a : Nat) (x : Axis) : (s.setAxis a x).regs = s.regs := rfl
@[simp] theorem State.setAxis_active (s : State) (a : Nat) (x : Axis) : (s.setAxis a x).active = s.active := rfl
@[simp] theorem State.setAxis_heldLow (s : State) (a : Nat) (x : Axis) : (s.setAxis a x).heldLow = s.heldLow := rfl
@[simp] theorem State.setAxis_captures (s : State) (a : Nat) (x : Axis) : (s.setAxis a x).captures = s.captures := rfl
@[simp] theorem State.setAxis_lastRead (s : State) (a : Nat) (x : Axis) : (s.setAxis a x).lastRead = s.lastRead := rfl
@[simp] theorem State.setAxis_bar2Data (s : State) (a : Nat) (x : Axis) : (s.setAxis a x).bar2Data = s.bar2Data := rfl
@[simp] theorem State.setAxis_waking (s : State) (a : Nat) (x : Axis) : (s.setAxis a x).waking = s.waking := rfl
@[simp] theorem State.setAxis_stopPending (s : State) (a : Nat) (x : Axis) : (s.setAxis a x).stopPending = s.stopPending := rfl
@[simp] theorem State.setAxis_ports (s : State) (a : Nat) (x : Axis) : (s.setAxis a x).ports = s.ports := rfl
@[simp] theorem State.setAxis_rings (s : State) (a : Nat) (x : Axis) : (s.setAxis a x).rings = s.rings := rfl
@[simp] theorem State.setAxis_band (s : State) (a : Nat) (x : Axis) : (s.setAxis a x).band = s.band := rfl
@[simp] theorem State.setAxis_spool (s : State) (a : Nat) (x : Axis) : (s.setAxis a x).spool = s.spool := rfl
@[simp] theorem State.setAxis_masks (s : State) (a : Nat) (x : Axis) : (s.setAxis a x).masks = s.masks := rfl
@[simp] theorem State.setAxis_flash (s : State) (a : Nat) (x : Axis) : (s.setAxis a x).flash = s.flash := rfl
@[simp] theorem State.setAxis_natShadow (s : State) (a : Nat) (x : Axis) : (s.setAxis a x).natShadow = s.natShadow := rfl
@[simp] theorem State.setAxis_natActive (s : State) (a : Nat) (x : Axis) : (s.setAxis a x).natActive = s.natActive := rfl
@[simp] theorem State.setAxis_widthShadow (s : State) (a : Nat) (x : Axis) : (s.setAxis a x).widthShadow = s.widthShadow := rfl
@[simp] theorem State.setAxis_widthActive (s : State) (a : Nat) (x : Axis) : (s.setAxis a x).widthActive = s.widthActive := rfl
@[simp] theorem State.setAxis_sine (s : State) (a : Nat) (x : Axis) : (s.setAxis a x).sine = s.sine := rfl
@[simp] theorem State.setAxis_pvtTab (s : State) (a : Nat) (x : Axis) : (s.setAxis a x).pvtTab = s.pvtTab := rfl
@[simp] theorem State.setAxis_ue (s : State) (a : Nat) (x : Axis) : (s.setAxis a x).ue = s.ue := rfl
@[simp] theorem State.setAxis_ce (s : State) (a : Nat) (x : Axis) : (s.setAxis a x).ce = s.ce := rfl
@[simp] theorem State.setAxis_eccCount (s : State) (a : Nat) (x : Axis) : (s.setAxis a x).eccCount = s.eccCount := rfl
@[simp] theorem State.setAxis_mem (s : State) (a : Nat) (x : Axis) : (s.setAxis a x).mem = s.mem := rfl
@[simp] theorem State.setAxis_memCfg (s : State) (a : Nat) (x : Axis) : (s.setAxis a x).memCfg = s.memCfg := rfl
@[simp] theorem State.setAxis_scrubAt (s : State) (a : Nat) (x : Axis) : (s.setAxis a x).scrubAt = s.scrubAt := rfl
@[simp] theorem State.setAxis_scrubbed (s : State) (a : Nat) (x : Axis) : (s.setAxis a x).scrubbed = s.scrubbed := rfl
@[simp] theorem State.setAxis_chans (s : State) (a : Nat) (x : Axis) : (s.setAxis a x).chans = s.chans := rfl
@[simp] theorem State.setAxis_mgroups (s : State) (a : Nat) (x : Axis) : (s.setAxis a x).mgroups = s.mgroups := rfl
@[simp] theorem State.setAxis_msets (s : State) (a : Nat) (x : Axis) : (s.setAxis a x).msets = s.msets := rfl
@[simp] theorem State.setAxis_jchans (s : State) (a : Nat) (x : Axis) : (s.setAxis a x).jchans = s.jchans := rfl
@[simp] theorem State.setAxis_engines (s : State) (a : Nat) (x : Axis) : (s.setAxis a x).engines = s.engines := rfl
@[simp] theorem State.setAxis_hal (s : State) (a : Nat) (x : Axis) : (s.setAxis a x).hal = s.hal := rfl
@[simp] theorem State.setAxis_eths (s : State) (a : Nat) (x : Axis) : (s.setAxis a x).eths = s.eths := rfl
@[simp] theorem State.setAxis_lnk (s : State) (a : Nat) (x : Axis) : (s.setAxis a x).lnk = s.lnk := rfl
@[simp] theorem State.setAxis_pcie (s : State) (a : Nat) (x : Axis) : (s.setAxis a x).pcie = s.pcie := rfl
@[simp] theorem State.setAxis_smp (s : State) (a : Nat) (x : Axis) : (s.setAxis a x).smp = s.smp := rfl
@[simp] theorem State.setAxis_kps (s : State) (a : Nat) (x : Axis) : (s.setAxis a x).kps = s.kps := rfl
@[simp] theorem State.setAxis_thm (s : State) (a : Nat) (x : Axis) : (s.setAxis a x).thm = s.thm := rfl
@[simp] theorem State.setAxis_cals (s : State) (a : Nat) (x : Axis) : (s.setAxis a x).cals = s.cals := rfl
@[simp] theorem State.setAxis_calTurn (s : State) (a : Nat) (x : Axis) : (s.setAxis a x).calTurn = s.calTurn := rfl
@[simp] theorem State.setAxis_upd (s : State) (a : Nat) (x : Axis) : (s.setAxis a x).upd = s.upd := rfl
@[simp] theorem State.setAxis_tap (s : State) (a : Nat) (x : Axis) : (s.setAxis a x).tap = s.tap := rfl
@[simp] theorem State.setAxis_clocks (s : State) (a : Nat) (x : Axis) : (s.setAxis a x).clocks = s.clocks := rfl
@[simp] theorem State.setAxis_ticks (s : State) (a : Nat) (x : Axis) : (s.setAxis a x).ticks = s.ticks := rfl
@[simp] theorem State.setAxis_free (s : State) (a : Nat) (x : Axis) : (s.setAxis a x).free = s.free := rfl
@[simp] theorem State.setAxis_pending (s : State) (a : Nat) (x : Axis) : (s.setAxis a x).pending = s.pending := rfl

/-! ### modMgroup -/

@[simp] theorem State.modMgroup_now (s : State) (g : Nat) (f : MGroup → MGroup) : (s.modMgroup g f).now = s.now := rfl
@[simp] theorem State.modMgroup_porst (s : State) (g : Nat) (f : MGroup → MGroup) : (s.modMgroup g f).porst = s.porst := rfl
@[simp] theorem State.modMgroup_ul24 (s : State) (g : Nat) (f : MGroup → MGroup) : (s.modMgroup g f).ul24 = s.ul24 := rfl
@[simp] theorem State.modMgroup_ftmStrap (s : State) (g : Nat) (f : MGroup → MGroup) : (s.modMgroup g f).ftmStrap = s.ftmStrap := rfl
@[simp] theorem State.modMgroup_ftm (s : State) (g : Nat) (f : MGroup → MGroup) : (s.modMgroup g f).ftm = s.ftm := rfl
@[simp] theorem State.modMgroup_devOp (s : State) (g : Nat) (f : MGroup → MGroup) : (s.modMgroup g f).devOp = s.devOp := rfl
@[simp] theorem State.modMgroup_devOpBack (s : State) (g : Nat) (f : MGroup → MGroup) : (s.modMgroup g f).devOpBack = s.devOpBack := rfl
@[simp] theorem State.modMgroup_bootFrom (s : State) (g : Nat) (f : MGroup → MGroup) : (s.modMgroup g f).bootFrom = s.bootFrom := rfl
@[simp] theorem State.modMgroup_relAt (s : State) (g : Nat) (f : MGroup → MGroup) : (s.modMgroup g f).relAt = s.relAt := rfl
@[simp] theorem State.modMgroup_sillAt (s : State) (g : Nat) (f : MGroup → MGroup) : (s.modMgroup g f).sillAt = s.sillAt := rfl
@[simp] theorem State.modMgroup_kpsAt (s : State) (g : Nat) (f : MGroup → MGroup) : (s.modMgroup g f).kpsAt = s.kpsAt := rfl
@[simp] theorem State.modMgroup_powerAt (s : State) (g : Nat) (f : MGroup → MGroup) : (s.modMgroup g f).powerAt = s.powerAt := rfl
@[simp] theorem State.modMgroup_islandsAt (s : State) (g : Nat) (f : MGroup → MGroup) : (s.modMgroup g f).islandsAt = s.islandsAt := rfl
@[simp] theorem State.modMgroup_appliesRecords (s : State) (g : Nat) (f : MGroup → MGroup) : (s.modMgroup g f).appliesRecords = s.appliesRecords := rfl
@[simp] theorem State.modMgroup_regs (s : State) (g : Nat) (f : MGroup → MGroup) : (s.modMgroup g f).regs = s.regs := rfl
@[simp] theorem State.modMgroup_active (s : State) (g : Nat) (f : MGroup → MGroup) : (s.modMgroup g f).active = s.active := rfl
@[simp] theorem State.modMgroup_heldLow (s : State) (g : Nat) (f : MGroup → MGroup) : (s.modMgroup g f).heldLow = s.heldLow := rfl
@[simp] theorem State.modMgroup_captures (s : State) (g : Nat) (f : MGroup → MGroup) : (s.modMgroup g f).captures = s.captures := rfl
@[simp] theorem State.modMgroup_lastRead (s : State) (g : Nat) (f : MGroup → MGroup) : (s.modMgroup g f).lastRead = s.lastRead := rfl
@[simp] theorem State.modMgroup_bar2Data (s : State) (g : Nat) (f : MGroup → MGroup) : (s.modMgroup g f).bar2Data = s.bar2Data := rfl
@[simp] theorem State.modMgroup_waking (s : State) (g : Nat) (f : MGroup → MGroup) : (s.modMgroup g f).waking = s.waking := rfl
@[simp] theorem State.modMgroup_stopPending (s : State) (g : Nat) (f : MGroup → MGroup) : (s.modMgroup g f).stopPending = s.stopPending := rfl
@[simp] theorem State.modMgroup_ports (s : State) (g : Nat) (f : MGroup → MGroup) : (s.modMgroup g f).ports = s.ports := rfl
@[simp] theorem State.modMgroup_rings (s : State) (g : Nat) (f : MGroup → MGroup) : (s.modMgroup g f).rings = s.rings := rfl
@[simp] theorem State.modMgroup_band (s : State) (g : Nat) (f : MGroup → MGroup) : (s.modMgroup g f).band = s.band := rfl
@[simp] theorem State.modMgroup_spool (s : State) (g : Nat) (f : MGroup → MGroup) : (s.modMgroup g f).spool = s.spool := rfl
@[simp] theorem State.modMgroup_masks (s : State) (g : Nat) (f : MGroup → MGroup) : (s.modMgroup g f).masks = s.masks := rfl
@[simp] theorem State.modMgroup_flash (s : State) (g : Nat) (f : MGroup → MGroup) : (s.modMgroup g f).flash = s.flash := rfl
@[simp] theorem State.modMgroup_natShadow (s : State) (g : Nat) (f : MGroup → MGroup) : (s.modMgroup g f).natShadow = s.natShadow := rfl
@[simp] theorem State.modMgroup_natActive (s : State) (g : Nat) (f : MGroup → MGroup) : (s.modMgroup g f).natActive = s.natActive := rfl
@[simp] theorem State.modMgroup_widthShadow (s : State) (g : Nat) (f : MGroup → MGroup) : (s.modMgroup g f).widthShadow = s.widthShadow := rfl
@[simp] theorem State.modMgroup_widthActive (s : State) (g : Nat) (f : MGroup → MGroup) : (s.modMgroup g f).widthActive = s.widthActive := rfl
@[simp] theorem State.modMgroup_sine (s : State) (g : Nat) (f : MGroup → MGroup) : (s.modMgroup g f).sine = s.sine := rfl
@[simp] theorem State.modMgroup_pvtTab (s : State) (g : Nat) (f : MGroup → MGroup) : (s.modMgroup g f).pvtTab = s.pvtTab := rfl
@[simp] theorem State.modMgroup_ue (s : State) (g : Nat) (f : MGroup → MGroup) : (s.modMgroup g f).ue = s.ue := rfl
@[simp] theorem State.modMgroup_ce (s : State) (g : Nat) (f : MGroup → MGroup) : (s.modMgroup g f).ce = s.ce := rfl
@[simp] theorem State.modMgroup_eccCount (s : State) (g : Nat) (f : MGroup → MGroup) : (s.modMgroup g f).eccCount = s.eccCount := rfl
@[simp] theorem State.modMgroup_mem (s : State) (g : Nat) (f : MGroup → MGroup) : (s.modMgroup g f).mem = s.mem := rfl
@[simp] theorem State.modMgroup_memCfg (s : State) (g : Nat) (f : MGroup → MGroup) : (s.modMgroup g f).memCfg = s.memCfg := rfl
@[simp] theorem State.modMgroup_scrubAt (s : State) (g : Nat) (f : MGroup → MGroup) : (s.modMgroup g f).scrubAt = s.scrubAt := rfl
@[simp] theorem State.modMgroup_scrubbed (s : State) (g : Nat) (f : MGroup → MGroup) : (s.modMgroup g f).scrubbed = s.scrubbed := rfl
@[simp] theorem State.modMgroup_chans (s : State) (g : Nat) (f : MGroup → MGroup) : (s.modMgroup g f).chans = s.chans := rfl
@[simp] theorem State.modMgroup_axes (s : State) (g : Nat) (f : MGroup → MGroup) : (s.modMgroup g f).axes = s.axes := rfl
@[simp] theorem State.modMgroup_msets (s : State) (g : Nat) (f : MGroup → MGroup) : (s.modMgroup g f).msets = s.msets := rfl
@[simp] theorem State.modMgroup_jchans (s : State) (g : Nat) (f : MGroup → MGroup) : (s.modMgroup g f).jchans = s.jchans := rfl
@[simp] theorem State.modMgroup_engines (s : State) (g : Nat) (f : MGroup → MGroup) : (s.modMgroup g f).engines = s.engines := rfl
@[simp] theorem State.modMgroup_hal (s : State) (g : Nat) (f : MGroup → MGroup) : (s.modMgroup g f).hal = s.hal := rfl
@[simp] theorem State.modMgroup_eths (s : State) (g : Nat) (f : MGroup → MGroup) : (s.modMgroup g f).eths = s.eths := rfl
@[simp] theorem State.modMgroup_lnk (s : State) (g : Nat) (f : MGroup → MGroup) : (s.modMgroup g f).lnk = s.lnk := rfl
@[simp] theorem State.modMgroup_pcie (s : State) (g : Nat) (f : MGroup → MGroup) : (s.modMgroup g f).pcie = s.pcie := rfl
@[simp] theorem State.modMgroup_smp (s : State) (g : Nat) (f : MGroup → MGroup) : (s.modMgroup g f).smp = s.smp := rfl
@[simp] theorem State.modMgroup_kps (s : State) (g : Nat) (f : MGroup → MGroup) : (s.modMgroup g f).kps = s.kps := rfl
@[simp] theorem State.modMgroup_thm (s : State) (g : Nat) (f : MGroup → MGroup) : (s.modMgroup g f).thm = s.thm := rfl
@[simp] theorem State.modMgroup_cals (s : State) (g : Nat) (f : MGroup → MGroup) : (s.modMgroup g f).cals = s.cals := rfl
@[simp] theorem State.modMgroup_calTurn (s : State) (g : Nat) (f : MGroup → MGroup) : (s.modMgroup g f).calTurn = s.calTurn := rfl
@[simp] theorem State.modMgroup_upd (s : State) (g : Nat) (f : MGroup → MGroup) : (s.modMgroup g f).upd = s.upd := rfl
@[simp] theorem State.modMgroup_tap (s : State) (g : Nat) (f : MGroup → MGroup) : (s.modMgroup g f).tap = s.tap := rfl
@[simp] theorem State.modMgroup_clocks (s : State) (g : Nat) (f : MGroup → MGroup) : (s.modMgroup g f).clocks = s.clocks := rfl
@[simp] theorem State.modMgroup_ticks (s : State) (g : Nat) (f : MGroup → MGroup) : (s.modMgroup g f).ticks = s.ticks := rfl
@[simp] theorem State.modMgroup_free (s : State) (g : Nat) (f : MGroup → MGroup) : (s.modMgroup g f).free = s.free := rfl
@[simp] theorem State.modMgroup_pending (s : State) (g : Nat) (f : MGroup → MGroup) : (s.modMgroup g f).pending = s.pending := rfl

/-! ### modMset -/

@[simp] theorem State.modMset_now (s : State) (g k : Nat) (f : MSet → MSet) : (s.modMset g k f).now = s.now := rfl
@[simp] theorem State.modMset_porst (s : State) (g k : Nat) (f : MSet → MSet) : (s.modMset g k f).porst = s.porst := rfl
@[simp] theorem State.modMset_ul24 (s : State) (g k : Nat) (f : MSet → MSet) : (s.modMset g k f).ul24 = s.ul24 := rfl
@[simp] theorem State.modMset_ftmStrap (s : State) (g k : Nat) (f : MSet → MSet) : (s.modMset g k f).ftmStrap = s.ftmStrap := rfl
@[simp] theorem State.modMset_ftm (s : State) (g k : Nat) (f : MSet → MSet) : (s.modMset g k f).ftm = s.ftm := rfl
@[simp] theorem State.modMset_devOp (s : State) (g k : Nat) (f : MSet → MSet) : (s.modMset g k f).devOp = s.devOp := rfl
@[simp] theorem State.modMset_devOpBack (s : State) (g k : Nat) (f : MSet → MSet) : (s.modMset g k f).devOpBack = s.devOpBack := rfl
@[simp] theorem State.modMset_bootFrom (s : State) (g k : Nat) (f : MSet → MSet) : (s.modMset g k f).bootFrom = s.bootFrom := rfl
@[simp] theorem State.modMset_relAt (s : State) (g k : Nat) (f : MSet → MSet) : (s.modMset g k f).relAt = s.relAt := rfl
@[simp] theorem State.modMset_sillAt (s : State) (g k : Nat) (f : MSet → MSet) : (s.modMset g k f).sillAt = s.sillAt := rfl
@[simp] theorem State.modMset_kpsAt (s : State) (g k : Nat) (f : MSet → MSet) : (s.modMset g k f).kpsAt = s.kpsAt := rfl
@[simp] theorem State.modMset_powerAt (s : State) (g k : Nat) (f : MSet → MSet) : (s.modMset g k f).powerAt = s.powerAt := rfl
@[simp] theorem State.modMset_islandsAt (s : State) (g k : Nat) (f : MSet → MSet) : (s.modMset g k f).islandsAt = s.islandsAt := rfl
@[simp] theorem State.modMset_appliesRecords (s : State) (g k : Nat) (f : MSet → MSet) : (s.modMset g k f).appliesRecords = s.appliesRecords := rfl
@[simp] theorem State.modMset_regs (s : State) (g k : Nat) (f : MSet → MSet) : (s.modMset g k f).regs = s.regs := rfl
@[simp] theorem State.modMset_active (s : State) (g k : Nat) (f : MSet → MSet) : (s.modMset g k f).active = s.active := rfl
@[simp] theorem State.modMset_heldLow (s : State) (g k : Nat) (f : MSet → MSet) : (s.modMset g k f).heldLow = s.heldLow := rfl
@[simp] theorem State.modMset_captures (s : State) (g k : Nat) (f : MSet → MSet) : (s.modMset g k f).captures = s.captures := rfl
@[simp] theorem State.modMset_lastRead (s : State) (g k : Nat) (f : MSet → MSet) : (s.modMset g k f).lastRead = s.lastRead := rfl
@[simp] theorem State.modMset_bar2Data (s : State) (g k : Nat) (f : MSet → MSet) : (s.modMset g k f).bar2Data = s.bar2Data := rfl
@[simp] theorem State.modMset_waking (s : State) (g k : Nat) (f : MSet → MSet) : (s.modMset g k f).waking = s.waking := rfl
@[simp] theorem State.modMset_stopPending (s : State) (g k : Nat) (f : MSet → MSet) : (s.modMset g k f).stopPending = s.stopPending := rfl
@[simp] theorem State.modMset_ports (s : State) (g k : Nat) (f : MSet → MSet) : (s.modMset g k f).ports = s.ports := rfl
@[simp] theorem State.modMset_rings (s : State) (g k : Nat) (f : MSet → MSet) : (s.modMset g k f).rings = s.rings := rfl
@[simp] theorem State.modMset_band (s : State) (g k : Nat) (f : MSet → MSet) : (s.modMset g k f).band = s.band := rfl
@[simp] theorem State.modMset_spool (s : State) (g k : Nat) (f : MSet → MSet) : (s.modMset g k f).spool = s.spool := rfl
@[simp] theorem State.modMset_masks (s : State) (g k : Nat) (f : MSet → MSet) : (s.modMset g k f).masks = s.masks := rfl
@[simp] theorem State.modMset_flash (s : State) (g k : Nat) (f : MSet → MSet) : (s.modMset g k f).flash = s.flash := rfl
@[simp] theorem State.modMset_natShadow (s : State) (g k : Nat) (f : MSet → MSet) : (s.modMset g k f).natShadow = s.natShadow := rfl
@[simp] theorem State.modMset_natActive (s : State) (g k : Nat) (f : MSet → MSet) : (s.modMset g k f).natActive = s.natActive := rfl
@[simp] theorem State.modMset_widthShadow (s : State) (g k : Nat) (f : MSet → MSet) : (s.modMset g k f).widthShadow = s.widthShadow := rfl
@[simp] theorem State.modMset_widthActive (s : State) (g k : Nat) (f : MSet → MSet) : (s.modMset g k f).widthActive = s.widthActive := rfl
@[simp] theorem State.modMset_sine (s : State) (g k : Nat) (f : MSet → MSet) : (s.modMset g k f).sine = s.sine := rfl
@[simp] theorem State.modMset_pvtTab (s : State) (g k : Nat) (f : MSet → MSet) : (s.modMset g k f).pvtTab = s.pvtTab := rfl
@[simp] theorem State.modMset_ue (s : State) (g k : Nat) (f : MSet → MSet) : (s.modMset g k f).ue = s.ue := rfl
@[simp] theorem State.modMset_ce (s : State) (g k : Nat) (f : MSet → MSet) : (s.modMset g k f).ce = s.ce := rfl
@[simp] theorem State.modMset_eccCount (s : State) (g k : Nat) (f : MSet → MSet) : (s.modMset g k f).eccCount = s.eccCount := rfl
@[simp] theorem State.modMset_mem (s : State) (g k : Nat) (f : MSet → MSet) : (s.modMset g k f).mem = s.mem := rfl
@[simp] theorem State.modMset_memCfg (s : State) (g k : Nat) (f : MSet → MSet) : (s.modMset g k f).memCfg = s.memCfg := rfl
@[simp] theorem State.modMset_scrubAt (s : State) (g k : Nat) (f : MSet → MSet) : (s.modMset g k f).scrubAt = s.scrubAt := rfl
@[simp] theorem State.modMset_scrubbed (s : State) (g k : Nat) (f : MSet → MSet) : (s.modMset g k f).scrubbed = s.scrubbed := rfl
@[simp] theorem State.modMset_chans (s : State) (g k : Nat) (f : MSet → MSet) : (s.modMset g k f).chans = s.chans := rfl
@[simp] theorem State.modMset_axes (s : State) (g k : Nat) (f : MSet → MSet) : (s.modMset g k f).axes = s.axes := rfl
@[simp] theorem State.modMset_mgroups (s : State) (g k : Nat) (f : MSet → MSet) : (s.modMset g k f).mgroups = s.mgroups := rfl
@[simp] theorem State.modMset_jchans (s : State) (g k : Nat) (f : MSet → MSet) : (s.modMset g k f).jchans = s.jchans := rfl
@[simp] theorem State.modMset_engines (s : State) (g k : Nat) (f : MSet → MSet) : (s.modMset g k f).engines = s.engines := rfl
@[simp] theorem State.modMset_hal (s : State) (g k : Nat) (f : MSet → MSet) : (s.modMset g k f).hal = s.hal := rfl
@[simp] theorem State.modMset_eths (s : State) (g k : Nat) (f : MSet → MSet) : (s.modMset g k f).eths = s.eths := rfl
@[simp] theorem State.modMset_lnk (s : State) (g k : Nat) (f : MSet → MSet) : (s.modMset g k f).lnk = s.lnk := rfl
@[simp] theorem State.modMset_pcie (s : State) (g k : Nat) (f : MSet → MSet) : (s.modMset g k f).pcie = s.pcie := rfl
@[simp] theorem State.modMset_smp (s : State) (g k : Nat) (f : MSet → MSet) : (s.modMset g k f).smp = s.smp := rfl
@[simp] theorem State.modMset_kps (s : State) (g k : Nat) (f : MSet → MSet) : (s.modMset g k f).kps = s.kps := rfl
@[simp] theorem State.modMset_thm (s : State) (g k : Nat) (f : MSet → MSet) : (s.modMset g k f).thm = s.thm := rfl
@[simp] theorem State.modMset_cals (s : State) (g k : Nat) (f : MSet → MSet) : (s.modMset g k f).cals = s.cals := rfl
@[simp] theorem State.modMset_calTurn (s : State) (g k : Nat) (f : MSet → MSet) : (s.modMset g k f).calTurn = s.calTurn := rfl
@[simp] theorem State.modMset_upd (s : State) (g k : Nat) (f : MSet → MSet) : (s.modMset g k f).upd = s.upd := rfl
@[simp] theorem State.modMset_tap (s : State) (g k : Nat) (f : MSet → MSet) : (s.modMset g k f).tap = s.tap := rfl
@[simp] theorem State.modMset_clocks (s : State) (g k : Nat) (f : MSet → MSet) : (s.modMset g k f).clocks = s.clocks := rfl
@[simp] theorem State.modMset_ticks (s : State) (g k : Nat) (f : MSet → MSet) : (s.modMset g k f).ticks = s.ticks := rfl
@[simp] theorem State.modMset_free (s : State) (g k : Nat) (f : MSet → MSet) : (s.modMset g k f).free = s.free := rfl
@[simp] theorem State.modMset_pending (s : State) (g k : Nat) (f : MSet → MSet) : (s.modMset g k f).pending = s.pending := rfl

/-! ### modJchan -/

@[simp] theorem State.modJchan_now (s : State) (e c : Nat) (f : JChan → JChan) : (s.modJchan e c f).now = s.now := rfl
@[simp] theorem State.modJchan_porst (s : State) (e c : Nat) (f : JChan → JChan) : (s.modJchan e c f).porst = s.porst := rfl
@[simp] theorem State.modJchan_ul24 (s : State) (e c : Nat) (f : JChan → JChan) : (s.modJchan e c f).ul24 = s.ul24 := rfl
@[simp] theorem State.modJchan_ftmStrap (s : State) (e c : Nat) (f : JChan → JChan) : (s.modJchan e c f).ftmStrap = s.ftmStrap := rfl
@[simp] theorem State.modJchan_ftm (s : State) (e c : Nat) (f : JChan → JChan) : (s.modJchan e c f).ftm = s.ftm := rfl
@[simp] theorem State.modJchan_devOp (s : State) (e c : Nat) (f : JChan → JChan) : (s.modJchan e c f).devOp = s.devOp := rfl
@[simp] theorem State.modJchan_devOpBack (s : State) (e c : Nat) (f : JChan → JChan) : (s.modJchan e c f).devOpBack = s.devOpBack := rfl
@[simp] theorem State.modJchan_bootFrom (s : State) (e c : Nat) (f : JChan → JChan) : (s.modJchan e c f).bootFrom = s.bootFrom := rfl
@[simp] theorem State.modJchan_relAt (s : State) (e c : Nat) (f : JChan → JChan) : (s.modJchan e c f).relAt = s.relAt := rfl
@[simp] theorem State.modJchan_sillAt (s : State) (e c : Nat) (f : JChan → JChan) : (s.modJchan e c f).sillAt = s.sillAt := rfl
@[simp] theorem State.modJchan_kpsAt (s : State) (e c : Nat) (f : JChan → JChan) : (s.modJchan e c f).kpsAt = s.kpsAt := rfl
@[simp] theorem State.modJchan_powerAt (s : State) (e c : Nat) (f : JChan → JChan) : (s.modJchan e c f).powerAt = s.powerAt := rfl
@[simp] theorem State.modJchan_islandsAt (s : State) (e c : Nat) (f : JChan → JChan) : (s.modJchan e c f).islandsAt = s.islandsAt := rfl
@[simp] theorem State.modJchan_appliesRecords (s : State) (e c : Nat) (f : JChan → JChan) : (s.modJchan e c f).appliesRecords = s.appliesRecords := rfl
@[simp] theorem State.modJchan_regs (s : State) (e c : Nat) (f : JChan → JChan) : (s.modJchan e c f).regs = s.regs := rfl
@[simp] theorem State.modJchan_active (s : State) (e c : Nat) (f : JChan → JChan) : (s.modJchan e c f).active = s.active := rfl
@[simp] theorem State.modJchan_heldLow (s : State) (e c : Nat) (f : JChan → JChan) : (s.modJchan e c f).heldLow = s.heldLow := rfl
@[simp] theorem State.modJchan_captures (s : State) (e c : Nat) (f : JChan → JChan) : (s.modJchan e c f).captures = s.captures := rfl
@[simp] theorem State.modJchan_lastRead (s : State) (e c : Nat) (f : JChan → JChan) : (s.modJchan e c f).lastRead = s.lastRead := rfl
@[simp] theorem State.modJchan_bar2Data (s : State) (e c : Nat) (f : JChan → JChan) : (s.modJchan e c f).bar2Data = s.bar2Data := rfl
@[simp] theorem State.modJchan_waking (s : State) (e c : Nat) (f : JChan → JChan) : (s.modJchan e c f).waking = s.waking := rfl
@[simp] theorem State.modJchan_stopPending (s : State) (e c : Nat) (f : JChan → JChan) : (s.modJchan e c f).stopPending = s.stopPending := rfl
@[simp] theorem State.modJchan_ports (s : State) (e c : Nat) (f : JChan → JChan) : (s.modJchan e c f).ports = s.ports := rfl
@[simp] theorem State.modJchan_rings (s : State) (e c : Nat) (f : JChan → JChan) : (s.modJchan e c f).rings = s.rings := rfl
@[simp] theorem State.modJchan_band (s : State) (e c : Nat) (f : JChan → JChan) : (s.modJchan e c f).band = s.band := rfl
@[simp] theorem State.modJchan_spool (s : State) (e c : Nat) (f : JChan → JChan) : (s.modJchan e c f).spool = s.spool := rfl
@[simp] theorem State.modJchan_masks (s : State) (e c : Nat) (f : JChan → JChan) : (s.modJchan e c f).masks = s.masks := rfl
@[simp] theorem State.modJchan_flash (s : State) (e c : Nat) (f : JChan → JChan) : (s.modJchan e c f).flash = s.flash := rfl
@[simp] theorem State.modJchan_natShadow (s : State) (e c : Nat) (f : JChan → JChan) : (s.modJchan e c f).natShadow = s.natShadow := rfl
@[simp] theorem State.modJchan_natActive (s : State) (e c : Nat) (f : JChan → JChan) : (s.modJchan e c f).natActive = s.natActive := rfl
@[simp] theorem State.modJchan_widthShadow (s : State) (e c : Nat) (f : JChan → JChan) : (s.modJchan e c f).widthShadow = s.widthShadow := rfl
@[simp] theorem State.modJchan_widthActive (s : State) (e c : Nat) (f : JChan → JChan) : (s.modJchan e c f).widthActive = s.widthActive := rfl
@[simp] theorem State.modJchan_sine (s : State) (e c : Nat) (f : JChan → JChan) : (s.modJchan e c f).sine = s.sine := rfl
@[simp] theorem State.modJchan_pvtTab (s : State) (e c : Nat) (f : JChan → JChan) : (s.modJchan e c f).pvtTab = s.pvtTab := rfl
@[simp] theorem State.modJchan_ue (s : State) (e c : Nat) (f : JChan → JChan) : (s.modJchan e c f).ue = s.ue := rfl
@[simp] theorem State.modJchan_ce (s : State) (e c : Nat) (f : JChan → JChan) : (s.modJchan e c f).ce = s.ce := rfl
@[simp] theorem State.modJchan_eccCount (s : State) (e c : Nat) (f : JChan → JChan) : (s.modJchan e c f).eccCount = s.eccCount := rfl
@[simp] theorem State.modJchan_mem (s : State) (e c : Nat) (f : JChan → JChan) : (s.modJchan e c f).mem = s.mem := rfl
@[simp] theorem State.modJchan_memCfg (s : State) (e c : Nat) (f : JChan → JChan) : (s.modJchan e c f).memCfg = s.memCfg := rfl
@[simp] theorem State.modJchan_scrubAt (s : State) (e c : Nat) (f : JChan → JChan) : (s.modJchan e c f).scrubAt = s.scrubAt := rfl
@[simp] theorem State.modJchan_scrubbed (s : State) (e c : Nat) (f : JChan → JChan) : (s.modJchan e c f).scrubbed = s.scrubbed := rfl
@[simp] theorem State.modJchan_chans (s : State) (e c : Nat) (f : JChan → JChan) : (s.modJchan e c f).chans = s.chans := rfl
@[simp] theorem State.modJchan_axes (s : State) (e c : Nat) (f : JChan → JChan) : (s.modJchan e c f).axes = s.axes := rfl
@[simp] theorem State.modJchan_mgroups (s : State) (e c : Nat) (f : JChan → JChan) : (s.modJchan e c f).mgroups = s.mgroups := rfl
@[simp] theorem State.modJchan_msets (s : State) (e c : Nat) (f : JChan → JChan) : (s.modJchan e c f).msets = s.msets := rfl
@[simp] theorem State.modJchan_engines (s : State) (e c : Nat) (f : JChan → JChan) : (s.modJchan e c f).engines = s.engines := rfl
@[simp] theorem State.modJchan_hal (s : State) (e c : Nat) (f : JChan → JChan) : (s.modJchan e c f).hal = s.hal := rfl
@[simp] theorem State.modJchan_eths (s : State) (e c : Nat) (f : JChan → JChan) : (s.modJchan e c f).eths = s.eths := rfl
@[simp] theorem State.modJchan_lnk (s : State) (e c : Nat) (f : JChan → JChan) : (s.modJchan e c f).lnk = s.lnk := rfl
@[simp] theorem State.modJchan_pcie (s : State) (e c : Nat) (f : JChan → JChan) : (s.modJchan e c f).pcie = s.pcie := rfl
@[simp] theorem State.modJchan_smp (s : State) (e c : Nat) (f : JChan → JChan) : (s.modJchan e c f).smp = s.smp := rfl
@[simp] theorem State.modJchan_kps (s : State) (e c : Nat) (f : JChan → JChan) : (s.modJchan e c f).kps = s.kps := rfl
@[simp] theorem State.modJchan_thm (s : State) (e c : Nat) (f : JChan → JChan) : (s.modJchan e c f).thm = s.thm := rfl
@[simp] theorem State.modJchan_cals (s : State) (e c : Nat) (f : JChan → JChan) : (s.modJchan e c f).cals = s.cals := rfl
@[simp] theorem State.modJchan_calTurn (s : State) (e c : Nat) (f : JChan → JChan) : (s.modJchan e c f).calTurn = s.calTurn := rfl
@[simp] theorem State.modJchan_upd (s : State) (e c : Nat) (f : JChan → JChan) : (s.modJchan e c f).upd = s.upd := rfl
@[simp] theorem State.modJchan_tap (s : State) (e c : Nat) (f : JChan → JChan) : (s.modJchan e c f).tap = s.tap := rfl
@[simp] theorem State.modJchan_clocks (s : State) (e c : Nat) (f : JChan → JChan) : (s.modJchan e c f).clocks = s.clocks := rfl
@[simp] theorem State.modJchan_ticks (s : State) (e c : Nat) (f : JChan → JChan) : (s.modJchan e c f).ticks = s.ticks := rfl
@[simp] theorem State.modJchan_free (s : State) (e c : Nat) (f : JChan → JChan) : (s.modJchan e c f).free = s.free := rfl
@[simp] theorem State.modJchan_pending (s : State) (e c : Nat) (f : JChan → JChan) : (s.modJchan e c f).pending = s.pending := rfl

/-! ### modEngine -/

@[simp] theorem State.modEngine_now (s : State) (e : Nat) (f : Engine → Engine) : (s.modEngine e f).now = s.now := rfl
@[simp] theorem State.modEngine_porst (s : State) (e : Nat) (f : Engine → Engine) : (s.modEngine e f).porst = s.porst := rfl
@[simp] theorem State.modEngine_ul24 (s : State) (e : Nat) (f : Engine → Engine) : (s.modEngine e f).ul24 = s.ul24 := rfl
@[simp] theorem State.modEngine_ftmStrap (s : State) (e : Nat) (f : Engine → Engine) : (s.modEngine e f).ftmStrap = s.ftmStrap := rfl
@[simp] theorem State.modEngine_ftm (s : State) (e : Nat) (f : Engine → Engine) : (s.modEngine e f).ftm = s.ftm := rfl
@[simp] theorem State.modEngine_devOp (s : State) (e : Nat) (f : Engine → Engine) : (s.modEngine e f).devOp = s.devOp := rfl
@[simp] theorem State.modEngine_devOpBack (s : State) (e : Nat) (f : Engine → Engine) : (s.modEngine e f).devOpBack = s.devOpBack := rfl
@[simp] theorem State.modEngine_bootFrom (s : State) (e : Nat) (f : Engine → Engine) : (s.modEngine e f).bootFrom = s.bootFrom := rfl
@[simp] theorem State.modEngine_relAt (s : State) (e : Nat) (f : Engine → Engine) : (s.modEngine e f).relAt = s.relAt := rfl
@[simp] theorem State.modEngine_sillAt (s : State) (e : Nat) (f : Engine → Engine) : (s.modEngine e f).sillAt = s.sillAt := rfl
@[simp] theorem State.modEngine_kpsAt (s : State) (e : Nat) (f : Engine → Engine) : (s.modEngine e f).kpsAt = s.kpsAt := rfl
@[simp] theorem State.modEngine_powerAt (s : State) (e : Nat) (f : Engine → Engine) : (s.modEngine e f).powerAt = s.powerAt := rfl
@[simp] theorem State.modEngine_islandsAt (s : State) (e : Nat) (f : Engine → Engine) : (s.modEngine e f).islandsAt = s.islandsAt := rfl
@[simp] theorem State.modEngine_appliesRecords (s : State) (e : Nat) (f : Engine → Engine) : (s.modEngine e f).appliesRecords = s.appliesRecords := rfl
@[simp] theorem State.modEngine_regs (s : State) (e : Nat) (f : Engine → Engine) : (s.modEngine e f).regs = s.regs := rfl
@[simp] theorem State.modEngine_active (s : State) (e : Nat) (f : Engine → Engine) : (s.modEngine e f).active = s.active := rfl
@[simp] theorem State.modEngine_heldLow (s : State) (e : Nat) (f : Engine → Engine) : (s.modEngine e f).heldLow = s.heldLow := rfl
@[simp] theorem State.modEngine_captures (s : State) (e : Nat) (f : Engine → Engine) : (s.modEngine e f).captures = s.captures := rfl
@[simp] theorem State.modEngine_lastRead (s : State) (e : Nat) (f : Engine → Engine) : (s.modEngine e f).lastRead = s.lastRead := rfl
@[simp] theorem State.modEngine_bar2Data (s : State) (e : Nat) (f : Engine → Engine) : (s.modEngine e f).bar2Data = s.bar2Data := rfl
@[simp] theorem State.modEngine_waking (s : State) (e : Nat) (f : Engine → Engine) : (s.modEngine e f).waking = s.waking := rfl
@[simp] theorem State.modEngine_stopPending (s : State) (e : Nat) (f : Engine → Engine) : (s.modEngine e f).stopPending = s.stopPending := rfl
@[simp] theorem State.modEngine_ports (s : State) (e : Nat) (f : Engine → Engine) : (s.modEngine e f).ports = s.ports := rfl
@[simp] theorem State.modEngine_rings (s : State) (e : Nat) (f : Engine → Engine) : (s.modEngine e f).rings = s.rings := rfl
@[simp] theorem State.modEngine_band (s : State) (e : Nat) (f : Engine → Engine) : (s.modEngine e f).band = s.band := rfl
@[simp] theorem State.modEngine_spool (s : State) (e : Nat) (f : Engine → Engine) : (s.modEngine e f).spool = s.spool := rfl
@[simp] theorem State.modEngine_masks (s : State) (e : Nat) (f : Engine → Engine) : (s.modEngine e f).masks = s.masks := rfl
@[simp] theorem State.modEngine_flash (s : State) (e : Nat) (f : Engine → Engine) : (s.modEngine e f).flash = s.flash := rfl
@[simp] theorem State.modEngine_natShadow (s : State) (e : Nat) (f : Engine → Engine) : (s.modEngine e f).natShadow = s.natShadow := rfl
@[simp] theorem State.modEngine_natActive (s : State) (e : Nat) (f : Engine → Engine) : (s.modEngine e f).natActive = s.natActive := rfl
@[simp] theorem State.modEngine_widthShadow (s : State) (e : Nat) (f : Engine → Engine) : (s.modEngine e f).widthShadow = s.widthShadow := rfl
@[simp] theorem State.modEngine_widthActive (s : State) (e : Nat) (f : Engine → Engine) : (s.modEngine e f).widthActive = s.widthActive := rfl
@[simp] theorem State.modEngine_sine (s : State) (e : Nat) (f : Engine → Engine) : (s.modEngine e f).sine = s.sine := rfl
@[simp] theorem State.modEngine_pvtTab (s : State) (e : Nat) (f : Engine → Engine) : (s.modEngine e f).pvtTab = s.pvtTab := rfl
@[simp] theorem State.modEngine_ue (s : State) (e : Nat) (f : Engine → Engine) : (s.modEngine e f).ue = s.ue := rfl
@[simp] theorem State.modEngine_ce (s : State) (e : Nat) (f : Engine → Engine) : (s.modEngine e f).ce = s.ce := rfl
@[simp] theorem State.modEngine_eccCount (s : State) (e : Nat) (f : Engine → Engine) : (s.modEngine e f).eccCount = s.eccCount := rfl
@[simp] theorem State.modEngine_mem (s : State) (e : Nat) (f : Engine → Engine) : (s.modEngine e f).mem = s.mem := rfl
@[simp] theorem State.modEngine_memCfg (s : State) (e : Nat) (f : Engine → Engine) : (s.modEngine e f).memCfg = s.memCfg := rfl
@[simp] theorem State.modEngine_scrubAt (s : State) (e : Nat) (f : Engine → Engine) : (s.modEngine e f).scrubAt = s.scrubAt := rfl
@[simp] theorem State.modEngine_scrubbed (s : State) (e : Nat) (f : Engine → Engine) : (s.modEngine e f).scrubbed = s.scrubbed := rfl
@[simp] theorem State.modEngine_chans (s : State) (e : Nat) (f : Engine → Engine) : (s.modEngine e f).chans = s.chans := rfl
@[simp] theorem State.modEngine_axes (s : State) (e : Nat) (f : Engine → Engine) : (s.modEngine e f).axes = s.axes := rfl
@[simp] theorem State.modEngine_mgroups (s : State) (e : Nat) (f : Engine → Engine) : (s.modEngine e f).mgroups = s.mgroups := rfl
@[simp] theorem State.modEngine_msets (s : State) (e : Nat) (f : Engine → Engine) : (s.modEngine e f).msets = s.msets := rfl
@[simp] theorem State.modEngine_jchans (s : State) (e : Nat) (f : Engine → Engine) : (s.modEngine e f).jchans = s.jchans := rfl
@[simp] theorem State.modEngine_hal (s : State) (e : Nat) (f : Engine → Engine) : (s.modEngine e f).hal = s.hal := rfl
@[simp] theorem State.modEngine_eths (s : State) (e : Nat) (f : Engine → Engine) : (s.modEngine e f).eths = s.eths := rfl
@[simp] theorem State.modEngine_lnk (s : State) (e : Nat) (f : Engine → Engine) : (s.modEngine e f).lnk = s.lnk := rfl
@[simp] theorem State.modEngine_pcie (s : State) (e : Nat) (f : Engine → Engine) : (s.modEngine e f).pcie = s.pcie := rfl
@[simp] theorem State.modEngine_smp (s : State) (e : Nat) (f : Engine → Engine) : (s.modEngine e f).smp = s.smp := rfl
@[simp] theorem State.modEngine_kps (s : State) (e : Nat) (f : Engine → Engine) : (s.modEngine e f).kps = s.kps := rfl
@[simp] theorem State.modEngine_thm (s : State) (e : Nat) (f : Engine → Engine) : (s.modEngine e f).thm = s.thm := rfl
@[simp] theorem State.modEngine_cals (s : State) (e : Nat) (f : Engine → Engine) : (s.modEngine e f).cals = s.cals := rfl
@[simp] theorem State.modEngine_calTurn (s : State) (e : Nat) (f : Engine → Engine) : (s.modEngine e f).calTurn = s.calTurn := rfl
@[simp] theorem State.modEngine_upd (s : State) (e : Nat) (f : Engine → Engine) : (s.modEngine e f).upd = s.upd := rfl
@[simp] theorem State.modEngine_tap (s : State) (e : Nat) (f : Engine → Engine) : (s.modEngine e f).tap = s.tap := rfl
@[simp] theorem State.modEngine_clocks (s : State) (e : Nat) (f : Engine → Engine) : (s.modEngine e f).clocks = s.clocks := rfl
@[simp] theorem State.modEngine_ticks (s : State) (e : Nat) (f : Engine → Engine) : (s.modEngine e f).ticks = s.ticks := rfl
@[simp] theorem State.modEngine_free (s : State) (e : Nat) (f : Engine → Engine) : (s.modEngine e f).free = s.free := rfl
@[simp] theorem State.modEngine_pending (s : State) (e : Nat) (f : Engine → Engine) : (s.modEngine e f).pending = s.pending := rfl

/-! ### modEth -/

@[simp] theorem State.modEth_now (s : State) (e : Nat) (f : Eth → Eth) : (s.modEth e f).now = s.now := rfl
@[simp] theorem State.modEth_porst (s : State) (e : Nat) (f : Eth → Eth) : (s.modEth e f).porst = s.porst := rfl
@[simp] theorem State.modEth_ul24 (s : State) (e : Nat) (f : Eth → Eth) : (s.modEth e f).ul24 = s.ul24 := rfl
@[simp] theorem State.modEth_ftmStrap (s : State) (e : Nat) (f : Eth → Eth) : (s.modEth e f).ftmStrap = s.ftmStrap := rfl
@[simp] theorem State.modEth_ftm (s : State) (e : Nat) (f : Eth → Eth) : (s.modEth e f).ftm = s.ftm := rfl
@[simp] theorem State.modEth_devOp (s : State) (e : Nat) (f : Eth → Eth) : (s.modEth e f).devOp = s.devOp := rfl
@[simp] theorem State.modEth_devOpBack (s : State) (e : Nat) (f : Eth → Eth) : (s.modEth e f).devOpBack = s.devOpBack := rfl
@[simp] theorem State.modEth_bootFrom (s : State) (e : Nat) (f : Eth → Eth) : (s.modEth e f).bootFrom = s.bootFrom := rfl
@[simp] theorem State.modEth_relAt (s : State) (e : Nat) (f : Eth → Eth) : (s.modEth e f).relAt = s.relAt := rfl
@[simp] theorem State.modEth_sillAt (s : State) (e : Nat) (f : Eth → Eth) : (s.modEth e f).sillAt = s.sillAt := rfl
@[simp] theorem State.modEth_kpsAt (s : State) (e : Nat) (f : Eth → Eth) : (s.modEth e f).kpsAt = s.kpsAt := rfl
@[simp] theorem State.modEth_powerAt (s : State) (e : Nat) (f : Eth → Eth) : (s.modEth e f).powerAt = s.powerAt := rfl
@[simp] theorem State.modEth_islandsAt (s : State) (e : Nat) (f : Eth → Eth) : (s.modEth e f).islandsAt = s.islandsAt := rfl
@[simp] theorem State.modEth_appliesRecords (s : State) (e : Nat) (f : Eth → Eth) : (s.modEth e f).appliesRecords = s.appliesRecords := rfl
@[simp] theorem State.modEth_regs (s : State) (e : Nat) (f : Eth → Eth) : (s.modEth e f).regs = s.regs := rfl
@[simp] theorem State.modEth_active (s : State) (e : Nat) (f : Eth → Eth) : (s.modEth e f).active = s.active := rfl
@[simp] theorem State.modEth_heldLow (s : State) (e : Nat) (f : Eth → Eth) : (s.modEth e f).heldLow = s.heldLow := rfl
@[simp] theorem State.modEth_captures (s : State) (e : Nat) (f : Eth → Eth) : (s.modEth e f).captures = s.captures := rfl
@[simp] theorem State.modEth_lastRead (s : State) (e : Nat) (f : Eth → Eth) : (s.modEth e f).lastRead = s.lastRead := rfl
@[simp] theorem State.modEth_bar2Data (s : State) (e : Nat) (f : Eth → Eth) : (s.modEth e f).bar2Data = s.bar2Data := rfl
@[simp] theorem State.modEth_waking (s : State) (e : Nat) (f : Eth → Eth) : (s.modEth e f).waking = s.waking := rfl
@[simp] theorem State.modEth_stopPending (s : State) (e : Nat) (f : Eth → Eth) : (s.modEth e f).stopPending = s.stopPending := rfl
@[simp] theorem State.modEth_ports (s : State) (e : Nat) (f : Eth → Eth) : (s.modEth e f).ports = s.ports := rfl
@[simp] theorem State.modEth_rings (s : State) (e : Nat) (f : Eth → Eth) : (s.modEth e f).rings = s.rings := rfl
@[simp] theorem State.modEth_band (s : State) (e : Nat) (f : Eth → Eth) : (s.modEth e f).band = s.band := rfl
@[simp] theorem State.modEth_spool (s : State) (e : Nat) (f : Eth → Eth) : (s.modEth e f).spool = s.spool := rfl
@[simp] theorem State.modEth_masks (s : State) (e : Nat) (f : Eth → Eth) : (s.modEth e f).masks = s.masks := rfl
@[simp] theorem State.modEth_flash (s : State) (e : Nat) (f : Eth → Eth) : (s.modEth e f).flash = s.flash := rfl
@[simp] theorem State.modEth_natShadow (s : State) (e : Nat) (f : Eth → Eth) : (s.modEth e f).natShadow = s.natShadow := rfl
@[simp] theorem State.modEth_natActive (s : State) (e : Nat) (f : Eth → Eth) : (s.modEth e f).natActive = s.natActive := rfl
@[simp] theorem State.modEth_widthShadow (s : State) (e : Nat) (f : Eth → Eth) : (s.modEth e f).widthShadow = s.widthShadow := rfl
@[simp] theorem State.modEth_widthActive (s : State) (e : Nat) (f : Eth → Eth) : (s.modEth e f).widthActive = s.widthActive := rfl
@[simp] theorem State.modEth_sine (s : State) (e : Nat) (f : Eth → Eth) : (s.modEth e f).sine = s.sine := rfl
@[simp] theorem State.modEth_pvtTab (s : State) (e : Nat) (f : Eth → Eth) : (s.modEth e f).pvtTab = s.pvtTab := rfl
@[simp] theorem State.modEth_ue (s : State) (e : Nat) (f : Eth → Eth) : (s.modEth e f).ue = s.ue := rfl
@[simp] theorem State.modEth_ce (s : State) (e : Nat) (f : Eth → Eth) : (s.modEth e f).ce = s.ce := rfl
@[simp] theorem State.modEth_eccCount (s : State) (e : Nat) (f : Eth → Eth) : (s.modEth e f).eccCount = s.eccCount := rfl
@[simp] theorem State.modEth_mem (s : State) (e : Nat) (f : Eth → Eth) : (s.modEth e f).mem = s.mem := rfl
@[simp] theorem State.modEth_memCfg (s : State) (e : Nat) (f : Eth → Eth) : (s.modEth e f).memCfg = s.memCfg := rfl
@[simp] theorem State.modEth_scrubAt (s : State) (e : Nat) (f : Eth → Eth) : (s.modEth e f).scrubAt = s.scrubAt := rfl
@[simp] theorem State.modEth_scrubbed (s : State) (e : Nat) (f : Eth → Eth) : (s.modEth e f).scrubbed = s.scrubbed := rfl
@[simp] theorem State.modEth_chans (s : State) (e : Nat) (f : Eth → Eth) : (s.modEth e f).chans = s.chans := rfl
@[simp] theorem State.modEth_axes (s : State) (e : Nat) (f : Eth → Eth) : (s.modEth e f).axes = s.axes := rfl
@[simp] theorem State.modEth_mgroups (s : State) (e : Nat) (f : Eth → Eth) : (s.modEth e f).mgroups = s.mgroups := rfl
@[simp] theorem State.modEth_msets (s : State) (e : Nat) (f : Eth → Eth) : (s.modEth e f).msets = s.msets := rfl
@[simp] theorem State.modEth_jchans (s : State) (e : Nat) (f : Eth → Eth) : (s.modEth e f).jchans = s.jchans := rfl
@[simp] theorem State.modEth_engines (s : State) (e : Nat) (f : Eth → Eth) : (s.modEth e f).engines = s.engines := rfl
@[simp] theorem State.modEth_hal (s : State) (e : Nat) (f : Eth → Eth) : (s.modEth e f).hal = s.hal := rfl
@[simp] theorem State.modEth_lnk (s : State) (e : Nat) (f : Eth → Eth) : (s.modEth e f).lnk = s.lnk := rfl
@[simp] theorem State.modEth_pcie (s : State) (e : Nat) (f : Eth → Eth) : (s.modEth e f).pcie = s.pcie := rfl
@[simp] theorem State.modEth_smp (s : State) (e : Nat) (f : Eth → Eth) : (s.modEth e f).smp = s.smp := rfl
@[simp] theorem State.modEth_kps (s : State) (e : Nat) (f : Eth → Eth) : (s.modEth e f).kps = s.kps := rfl
@[simp] theorem State.modEth_thm (s : State) (e : Nat) (f : Eth → Eth) : (s.modEth e f).thm = s.thm := rfl
@[simp] theorem State.modEth_cals (s : State) (e : Nat) (f : Eth → Eth) : (s.modEth e f).cals = s.cals := rfl
@[simp] theorem State.modEth_calTurn (s : State) (e : Nat) (f : Eth → Eth) : (s.modEth e f).calTurn = s.calTurn := rfl
@[simp] theorem State.modEth_upd (s : State) (e : Nat) (f : Eth → Eth) : (s.modEth e f).upd = s.upd := rfl
@[simp] theorem State.modEth_tap (s : State) (e : Nat) (f : Eth → Eth) : (s.modEth e f).tap = s.tap := rfl
@[simp] theorem State.modEth_clocks (s : State) (e : Nat) (f : Eth → Eth) : (s.modEth e f).clocks = s.clocks := rfl
@[simp] theorem State.modEth_ticks (s : State) (e : Nat) (f : Eth → Eth) : (s.modEth e f).ticks = s.ticks := rfl
@[simp] theorem State.modEth_free (s : State) (e : Nat) (f : Eth → Eth) : (s.modEth e f).free = s.free := rfl
@[simp] theorem State.modEth_pending (s : State) (e : Nat) (f : Eth → Eth) : (s.modEth e f).pending = s.pending := rfl

/-! ### modBx -/

@[simp] theorem State.modBx_now (s : State) (l : Nat) (f : BxLink → BxLink) : (s.modBx l f).now = s.now := rfl
@[simp] theorem State.modBx_porst (s : State) (l : Nat) (f : BxLink → BxLink) : (s.modBx l f).porst = s.porst := rfl
@[simp] theorem State.modBx_ul24 (s : State) (l : Nat) (f : BxLink → BxLink) : (s.modBx l f).ul24 = s.ul24 := rfl
@[simp] theorem State.modBx_ftmStrap (s : State) (l : Nat) (f : BxLink → BxLink) : (s.modBx l f).ftmStrap = s.ftmStrap := rfl
@[simp] theorem State.modBx_ftm (s : State) (l : Nat) (f : BxLink → BxLink) : (s.modBx l f).ftm = s.ftm := rfl
@[simp] theorem State.modBx_devOp (s : State) (l : Nat) (f : BxLink → BxLink) : (s.modBx l f).devOp = s.devOp := rfl
@[simp] theorem State.modBx_devOpBack (s : State) (l : Nat) (f : BxLink → BxLink) : (s.modBx l f).devOpBack = s.devOpBack := rfl
@[simp] theorem State.modBx_bootFrom (s : State) (l : Nat) (f : BxLink → BxLink) : (s.modBx l f).bootFrom = s.bootFrom := rfl
@[simp] theorem State.modBx_relAt (s : State) (l : Nat) (f : BxLink → BxLink) : (s.modBx l f).relAt = s.relAt := rfl
@[simp] theorem State.modBx_sillAt (s : State) (l : Nat) (f : BxLink → BxLink) : (s.modBx l f).sillAt = s.sillAt := rfl
@[simp] theorem State.modBx_kpsAt (s : State) (l : Nat) (f : BxLink → BxLink) : (s.modBx l f).kpsAt = s.kpsAt := rfl
@[simp] theorem State.modBx_powerAt (s : State) (l : Nat) (f : BxLink → BxLink) : (s.modBx l f).powerAt = s.powerAt := rfl
@[simp] theorem State.modBx_islandsAt (s : State) (l : Nat) (f : BxLink → BxLink) : (s.modBx l f).islandsAt = s.islandsAt := rfl
@[simp] theorem State.modBx_appliesRecords (s : State) (l : Nat) (f : BxLink → BxLink) : (s.modBx l f).appliesRecords = s.appliesRecords := rfl
@[simp] theorem State.modBx_regs (s : State) (l : Nat) (f : BxLink → BxLink) : (s.modBx l f).regs = s.regs := rfl
@[simp] theorem State.modBx_active (s : State) (l : Nat) (f : BxLink → BxLink) : (s.modBx l f).active = s.active := rfl
@[simp] theorem State.modBx_heldLow (s : State) (l : Nat) (f : BxLink → BxLink) : (s.modBx l f).heldLow = s.heldLow := rfl
@[simp] theorem State.modBx_captures (s : State) (l : Nat) (f : BxLink → BxLink) : (s.modBx l f).captures = s.captures := rfl
@[simp] theorem State.modBx_lastRead (s : State) (l : Nat) (f : BxLink → BxLink) : (s.modBx l f).lastRead = s.lastRead := rfl
@[simp] theorem State.modBx_bar2Data (s : State) (l : Nat) (f : BxLink → BxLink) : (s.modBx l f).bar2Data = s.bar2Data := rfl
@[simp] theorem State.modBx_waking (s : State) (l : Nat) (f : BxLink → BxLink) : (s.modBx l f).waking = s.waking := rfl
@[simp] theorem State.modBx_stopPending (s : State) (l : Nat) (f : BxLink → BxLink) : (s.modBx l f).stopPending = s.stopPending := rfl
@[simp] theorem State.modBx_ports (s : State) (l : Nat) (f : BxLink → BxLink) : (s.modBx l f).ports = s.ports := rfl
@[simp] theorem State.modBx_rings (s : State) (l : Nat) (f : BxLink → BxLink) : (s.modBx l f).rings = s.rings := rfl
@[simp] theorem State.modBx_band (s : State) (l : Nat) (f : BxLink → BxLink) : (s.modBx l f).band = s.band := rfl
@[simp] theorem State.modBx_spool (s : State) (l : Nat) (f : BxLink → BxLink) : (s.modBx l f).spool = s.spool := rfl
@[simp] theorem State.modBx_masks (s : State) (l : Nat) (f : BxLink → BxLink) : (s.modBx l f).masks = s.masks := rfl
@[simp] theorem State.modBx_flash (s : State) (l : Nat) (f : BxLink → BxLink) : (s.modBx l f).flash = s.flash := rfl
@[simp] theorem State.modBx_natShadow (s : State) (l : Nat) (f : BxLink → BxLink) : (s.modBx l f).natShadow = s.natShadow := rfl
@[simp] theorem State.modBx_natActive (s : State) (l : Nat) (f : BxLink → BxLink) : (s.modBx l f).natActive = s.natActive := rfl
@[simp] theorem State.modBx_widthShadow (s : State) (l : Nat) (f : BxLink → BxLink) : (s.modBx l f).widthShadow = s.widthShadow := rfl
@[simp] theorem State.modBx_widthActive (s : State) (l : Nat) (f : BxLink → BxLink) : (s.modBx l f).widthActive = s.widthActive := rfl
@[simp] theorem State.modBx_sine (s : State) (l : Nat) (f : BxLink → BxLink) : (s.modBx l f).sine = s.sine := rfl
@[simp] theorem State.modBx_pvtTab (s : State) (l : Nat) (f : BxLink → BxLink) : (s.modBx l f).pvtTab = s.pvtTab := rfl
@[simp] theorem State.modBx_ue (s : State) (l : Nat) (f : BxLink → BxLink) : (s.modBx l f).ue = s.ue := rfl
@[simp] theorem State.modBx_ce (s : State) (l : Nat) (f : BxLink → BxLink) : (s.modBx l f).ce = s.ce := rfl
@[simp] theorem State.modBx_eccCount (s : State) (l : Nat) (f : BxLink → BxLink) : (s.modBx l f).eccCount = s.eccCount := rfl
@[simp] theorem State.modBx_mem (s : State) (l : Nat) (f : BxLink → BxLink) : (s.modBx l f).mem = s.mem := rfl
@[simp] theorem State.modBx_memCfg (s : State) (l : Nat) (f : BxLink → BxLink) : (s.modBx l f).memCfg = s.memCfg := rfl
@[simp] theorem State.modBx_scrubAt (s : State) (l : Nat) (f : BxLink → BxLink) : (s.modBx l f).scrubAt = s.scrubAt := rfl
@[simp] theorem State.modBx_scrubbed (s : State) (l : Nat) (f : BxLink → BxLink) : (s.modBx l f).scrubbed = s.scrubbed := rfl
@[simp] theorem State.modBx_chans (s : State) (l : Nat) (f : BxLink → BxLink) : (s.modBx l f).chans = s.chans := rfl
@[simp] theorem State.modBx_axes (s : State) (l : Nat) (f : BxLink → BxLink) : (s.modBx l f).axes = s.axes := rfl
@[simp] theorem State.modBx_mgroups (s : State) (l : Nat) (f : BxLink → BxLink) : (s.modBx l f).mgroups = s.mgroups := rfl
@[simp] theorem State.modBx_msets (s : State) (l : Nat) (f : BxLink → BxLink) : (s.modBx l f).msets = s.msets := rfl
@[simp] theorem State.modBx_jchans (s : State) (l : Nat) (f : BxLink → BxLink) : (s.modBx l f).jchans = s.jchans := rfl
@[simp] theorem State.modBx_engines (s : State) (l : Nat) (f : BxLink → BxLink) : (s.modBx l f).engines = s.engines := rfl
@[simp] theorem State.modBx_hal (s : State) (l : Nat) (f : BxLink → BxLink) : (s.modBx l f).hal = s.hal := rfl
@[simp] theorem State.modBx_eths (s : State) (l : Nat) (f : BxLink → BxLink) : (s.modBx l f).eths = s.eths := rfl
@[simp] theorem State.modBx_pcie (s : State) (l : Nat) (f : BxLink → BxLink) : (s.modBx l f).pcie = s.pcie := rfl
@[simp] theorem State.modBx_smp (s : State) (l : Nat) (f : BxLink → BxLink) : (s.modBx l f).smp = s.smp := rfl
@[simp] theorem State.modBx_kps (s : State) (l : Nat) (f : BxLink → BxLink) : (s.modBx l f).kps = s.kps := rfl
@[simp] theorem State.modBx_thm (s : State) (l : Nat) (f : BxLink → BxLink) : (s.modBx l f).thm = s.thm := rfl
@[simp] theorem State.modBx_cals (s : State) (l : Nat) (f : BxLink → BxLink) : (s.modBx l f).cals = s.cals := rfl
@[simp] theorem State.modBx_calTurn (s : State) (l : Nat) (f : BxLink → BxLink) : (s.modBx l f).calTurn = s.calTurn := rfl
@[simp] theorem State.modBx_upd (s : State) (l : Nat) (f : BxLink → BxLink) : (s.modBx l f).upd = s.upd := rfl
@[simp] theorem State.modBx_tap (s : State) (l : Nat) (f : BxLink → BxLink) : (s.modBx l f).tap = s.tap := rfl
@[simp] theorem State.modBx_clocks (s : State) (l : Nat) (f : BxLink → BxLink) : (s.modBx l f).clocks = s.clocks := rfl
@[simp] theorem State.modBx_ticks (s : State) (l : Nat) (f : BxLink → BxLink) : (s.modBx l f).ticks = s.ticks := rfl
@[simp] theorem State.modBx_free (s : State) (l : Nat) (f : BxLink → BxLink) : (s.modBx l f).free = s.free := rfl
@[simp] theorem State.modBx_pending (s : State) (l : Nat) (f : BxLink → BxLink) : (s.modBx l f).pending = s.pending := rfl

/-! ### modTx -/

@[simp] theorem State.modTx_now (s : State) (n : Nat) (f : TxStream → TxStream) : (s.modTx n f).now = s.now := rfl
@[simp] theorem State.modTx_porst (s : State) (n : Nat) (f : TxStream → TxStream) : (s.modTx n f).porst = s.porst := rfl
@[simp] theorem State.modTx_ul24 (s : State) (n : Nat) (f : TxStream → TxStream) : (s.modTx n f).ul24 = s.ul24 := rfl
@[simp] theorem State.modTx_ftmStrap (s : State) (n : Nat) (f : TxStream → TxStream) : (s.modTx n f).ftmStrap = s.ftmStrap := rfl
@[simp] theorem State.modTx_ftm (s : State) (n : Nat) (f : TxStream → TxStream) : (s.modTx n f).ftm = s.ftm := rfl
@[simp] theorem State.modTx_devOp (s : State) (n : Nat) (f : TxStream → TxStream) : (s.modTx n f).devOp = s.devOp := rfl
@[simp] theorem State.modTx_devOpBack (s : State) (n : Nat) (f : TxStream → TxStream) : (s.modTx n f).devOpBack = s.devOpBack := rfl
@[simp] theorem State.modTx_bootFrom (s : State) (n : Nat) (f : TxStream → TxStream) : (s.modTx n f).bootFrom = s.bootFrom := rfl
@[simp] theorem State.modTx_relAt (s : State) (n : Nat) (f : TxStream → TxStream) : (s.modTx n f).relAt = s.relAt := rfl
@[simp] theorem State.modTx_sillAt (s : State) (n : Nat) (f : TxStream → TxStream) : (s.modTx n f).sillAt = s.sillAt := rfl
@[simp] theorem State.modTx_kpsAt (s : State) (n : Nat) (f : TxStream → TxStream) : (s.modTx n f).kpsAt = s.kpsAt := rfl
@[simp] theorem State.modTx_powerAt (s : State) (n : Nat) (f : TxStream → TxStream) : (s.modTx n f).powerAt = s.powerAt := rfl
@[simp] theorem State.modTx_islandsAt (s : State) (n : Nat) (f : TxStream → TxStream) : (s.modTx n f).islandsAt = s.islandsAt := rfl
@[simp] theorem State.modTx_appliesRecords (s : State) (n : Nat) (f : TxStream → TxStream) : (s.modTx n f).appliesRecords = s.appliesRecords := rfl
@[simp] theorem State.modTx_regs (s : State) (n : Nat) (f : TxStream → TxStream) : (s.modTx n f).regs = s.regs := rfl
@[simp] theorem State.modTx_active (s : State) (n : Nat) (f : TxStream → TxStream) : (s.modTx n f).active = s.active := rfl
@[simp] theorem State.modTx_heldLow (s : State) (n : Nat) (f : TxStream → TxStream) : (s.modTx n f).heldLow = s.heldLow := rfl
@[simp] theorem State.modTx_captures (s : State) (n : Nat) (f : TxStream → TxStream) : (s.modTx n f).captures = s.captures := rfl
@[simp] theorem State.modTx_lastRead (s : State) (n : Nat) (f : TxStream → TxStream) : (s.modTx n f).lastRead = s.lastRead := rfl
@[simp] theorem State.modTx_bar2Data (s : State) (n : Nat) (f : TxStream → TxStream) : (s.modTx n f).bar2Data = s.bar2Data := rfl
@[simp] theorem State.modTx_waking (s : State) (n : Nat) (f : TxStream → TxStream) : (s.modTx n f).waking = s.waking := rfl
@[simp] theorem State.modTx_stopPending (s : State) (n : Nat) (f : TxStream → TxStream) : (s.modTx n f).stopPending = s.stopPending := rfl
@[simp] theorem State.modTx_ports (s : State) (n : Nat) (f : TxStream → TxStream) : (s.modTx n f).ports = s.ports := rfl
@[simp] theorem State.modTx_rings (s : State) (n : Nat) (f : TxStream → TxStream) : (s.modTx n f).rings = s.rings := rfl
@[simp] theorem State.modTx_band (s : State) (n : Nat) (f : TxStream → TxStream) : (s.modTx n f).band = s.band := rfl
@[simp] theorem State.modTx_spool (s : State) (n : Nat) (f : TxStream → TxStream) : (s.modTx n f).spool = s.spool := rfl
@[simp] theorem State.modTx_masks (s : State) (n : Nat) (f : TxStream → TxStream) : (s.modTx n f).masks = s.masks := rfl
@[simp] theorem State.modTx_flash (s : State) (n : Nat) (f : TxStream → TxStream) : (s.modTx n f).flash = s.flash := rfl
@[simp] theorem State.modTx_natShadow (s : State) (n : Nat) (f : TxStream → TxStream) : (s.modTx n f).natShadow = s.natShadow := rfl
@[simp] theorem State.modTx_natActive (s : State) (n : Nat) (f : TxStream → TxStream) : (s.modTx n f).natActive = s.natActive := rfl
@[simp] theorem State.modTx_widthShadow (s : State) (n : Nat) (f : TxStream → TxStream) : (s.modTx n f).widthShadow = s.widthShadow := rfl
@[simp] theorem State.modTx_widthActive (s : State) (n : Nat) (f : TxStream → TxStream) : (s.modTx n f).widthActive = s.widthActive := rfl
@[simp] theorem State.modTx_sine (s : State) (n : Nat) (f : TxStream → TxStream) : (s.modTx n f).sine = s.sine := rfl
@[simp] theorem State.modTx_pvtTab (s : State) (n : Nat) (f : TxStream → TxStream) : (s.modTx n f).pvtTab = s.pvtTab := rfl
@[simp] theorem State.modTx_ue (s : State) (n : Nat) (f : TxStream → TxStream) : (s.modTx n f).ue = s.ue := rfl
@[simp] theorem State.modTx_ce (s : State) (n : Nat) (f : TxStream → TxStream) : (s.modTx n f).ce = s.ce := rfl
@[simp] theorem State.modTx_eccCount (s : State) (n : Nat) (f : TxStream → TxStream) : (s.modTx n f).eccCount = s.eccCount := rfl
@[simp] theorem State.modTx_mem (s : State) (n : Nat) (f : TxStream → TxStream) : (s.modTx n f).mem = s.mem := rfl
@[simp] theorem State.modTx_memCfg (s : State) (n : Nat) (f : TxStream → TxStream) : (s.modTx n f).memCfg = s.memCfg := rfl
@[simp] theorem State.modTx_scrubAt (s : State) (n : Nat) (f : TxStream → TxStream) : (s.modTx n f).scrubAt = s.scrubAt := rfl
@[simp] theorem State.modTx_scrubbed (s : State) (n : Nat) (f : TxStream → TxStream) : (s.modTx n f).scrubbed = s.scrubbed := rfl
@[simp] theorem State.modTx_chans (s : State) (n : Nat) (f : TxStream → TxStream) : (s.modTx n f).chans = s.chans := rfl
@[simp] theorem State.modTx_axes (s : State) (n : Nat) (f : TxStream → TxStream) : (s.modTx n f).axes = s.axes := rfl
@[simp] theorem State.modTx_mgroups (s : State) (n : Nat) (f : TxStream → TxStream) : (s.modTx n f).mgroups = s.mgroups := rfl
@[simp] theorem State.modTx_msets (s : State) (n : Nat) (f : TxStream → TxStream) : (s.modTx n f).msets = s.msets := rfl
@[simp] theorem State.modTx_jchans (s : State) (n : Nat) (f : TxStream → TxStream) : (s.modTx n f).jchans = s.jchans := rfl
@[simp] theorem State.modTx_engines (s : State) (n : Nat) (f : TxStream → TxStream) : (s.modTx n f).engines = s.engines := rfl
@[simp] theorem State.modTx_hal (s : State) (n : Nat) (f : TxStream → TxStream) : (s.modTx n f).hal = s.hal := rfl
@[simp] theorem State.modTx_eths (s : State) (n : Nat) (f : TxStream → TxStream) : (s.modTx n f).eths = s.eths := rfl
@[simp] theorem State.modTx_pcie (s : State) (n : Nat) (f : TxStream → TxStream) : (s.modTx n f).pcie = s.pcie := rfl
@[simp] theorem State.modTx_smp (s : State) (n : Nat) (f : TxStream → TxStream) : (s.modTx n f).smp = s.smp := rfl
@[simp] theorem State.modTx_kps (s : State) (n : Nat) (f : TxStream → TxStream) : (s.modTx n f).kps = s.kps := rfl
@[simp] theorem State.modTx_thm (s : State) (n : Nat) (f : TxStream → TxStream) : (s.modTx n f).thm = s.thm := rfl
@[simp] theorem State.modTx_cals (s : State) (n : Nat) (f : TxStream → TxStream) : (s.modTx n f).cals = s.cals := rfl
@[simp] theorem State.modTx_calTurn (s : State) (n : Nat) (f : TxStream → TxStream) : (s.modTx n f).calTurn = s.calTurn := rfl
@[simp] theorem State.modTx_upd (s : State) (n : Nat) (f : TxStream → TxStream) : (s.modTx n f).upd = s.upd := rfl
@[simp] theorem State.modTx_tap (s : State) (n : Nat) (f : TxStream → TxStream) : (s.modTx n f).tap = s.tap := rfl
@[simp] theorem State.modTx_clocks (s : State) (n : Nat) (f : TxStream → TxStream) : (s.modTx n f).clocks = s.clocks := rfl
@[simp] theorem State.modTx_ticks (s : State) (n : Nat) (f : TxStream → TxStream) : (s.modTx n f).ticks = s.ticks := rfl
@[simp] theorem State.modTx_free (s : State) (n : Nat) (f : TxStream → TxStream) : (s.modTx n f).free = s.free := rfl
@[simp] theorem State.modTx_pending (s : State) (n : Nat) (f : TxStream → TxStream) : (s.modTx n f).pending = s.pending := rfl

/-! ### modRx -/

@[simp] theorem State.modRx_now (s : State) (n : Nat) (f : RxStream → RxStream) : (s.modRx n f).now = s.now := rfl
@[simp] theorem State.modRx_porst (s : State) (n : Nat) (f : RxStream → RxStream) : (s.modRx n f).porst = s.porst := rfl
@[simp] theorem State.modRx_ul24 (s : State) (n : Nat) (f : RxStream → RxStream) : (s.modRx n f).ul24 = s.ul24 := rfl
@[simp] theorem State.modRx_ftmStrap (s : State) (n : Nat) (f : RxStream → RxStream) : (s.modRx n f).ftmStrap = s.ftmStrap := rfl
@[simp] theorem State.modRx_ftm (s : State) (n : Nat) (f : RxStream → RxStream) : (s.modRx n f).ftm = s.ftm := rfl
@[simp] theorem State.modRx_devOp (s : State) (n : Nat) (f : RxStream → RxStream) : (s.modRx n f).devOp = s.devOp := rfl
@[simp] theorem State.modRx_devOpBack (s : State) (n : Nat) (f : RxStream → RxStream) : (s.modRx n f).devOpBack = s.devOpBack := rfl
@[simp] theorem State.modRx_bootFrom (s : State) (n : Nat) (f : RxStream → RxStream) : (s.modRx n f).bootFrom = s.bootFrom := rfl
@[simp] theorem State.modRx_relAt (s : State) (n : Nat) (f : RxStream → RxStream) : (s.modRx n f).relAt = s.relAt := rfl
@[simp] theorem State.modRx_sillAt (s : State) (n : Nat) (f : RxStream → RxStream) : (s.modRx n f).sillAt = s.sillAt := rfl
@[simp] theorem State.modRx_kpsAt (s : State) (n : Nat) (f : RxStream → RxStream) : (s.modRx n f).kpsAt = s.kpsAt := rfl
@[simp] theorem State.modRx_powerAt (s : State) (n : Nat) (f : RxStream → RxStream) : (s.modRx n f).powerAt = s.powerAt := rfl
@[simp] theorem State.modRx_islandsAt (s : State) (n : Nat) (f : RxStream → RxStream) : (s.modRx n f).islandsAt = s.islandsAt := rfl
@[simp] theorem State.modRx_appliesRecords (s : State) (n : Nat) (f : RxStream → RxStream) : (s.modRx n f).appliesRecords = s.appliesRecords := rfl
@[simp] theorem State.modRx_regs (s : State) (n : Nat) (f : RxStream → RxStream) : (s.modRx n f).regs = s.regs := rfl
@[simp] theorem State.modRx_active (s : State) (n : Nat) (f : RxStream → RxStream) : (s.modRx n f).active = s.active := rfl
@[simp] theorem State.modRx_heldLow (s : State) (n : Nat) (f : RxStream → RxStream) : (s.modRx n f).heldLow = s.heldLow := rfl
@[simp] theorem State.modRx_captures (s : State) (n : Nat) (f : RxStream → RxStream) : (s.modRx n f).captures = s.captures := rfl
@[simp] theorem State.modRx_lastRead (s : State) (n : Nat) (f : RxStream → RxStream) : (s.modRx n f).lastRead = s.lastRead := rfl
@[simp] theorem State.modRx_bar2Data (s : State) (n : Nat) (f : RxStream → RxStream) : (s.modRx n f).bar2Data = s.bar2Data := rfl
@[simp] theorem State.modRx_waking (s : State) (n : Nat) (f : RxStream → RxStream) : (s.modRx n f).waking = s.waking := rfl
@[simp] theorem State.modRx_stopPending (s : State) (n : Nat) (f : RxStream → RxStream) : (s.modRx n f).stopPending = s.stopPending := rfl
@[simp] theorem State.modRx_ports (s : State) (n : Nat) (f : RxStream → RxStream) : (s.modRx n f).ports = s.ports := rfl
@[simp] theorem State.modRx_rings (s : State) (n : Nat) (f : RxStream → RxStream) : (s.modRx n f).rings = s.rings := rfl
@[simp] theorem State.modRx_band (s : State) (n : Nat) (f : RxStream → RxStream) : (s.modRx n f).band = s.band := rfl
@[simp] theorem State.modRx_spool (s : State) (n : Nat) (f : RxStream → RxStream) : (s.modRx n f).spool = s.spool := rfl
@[simp] theorem State.modRx_masks (s : State) (n : Nat) (f : RxStream → RxStream) : (s.modRx n f).masks = s.masks := rfl
@[simp] theorem State.modRx_flash (s : State) (n : Nat) (f : RxStream → RxStream) : (s.modRx n f).flash = s.flash := rfl
@[simp] theorem State.modRx_natShadow (s : State) (n : Nat) (f : RxStream → RxStream) : (s.modRx n f).natShadow = s.natShadow := rfl
@[simp] theorem State.modRx_natActive (s : State) (n : Nat) (f : RxStream → RxStream) : (s.modRx n f).natActive = s.natActive := rfl
@[simp] theorem State.modRx_widthShadow (s : State) (n : Nat) (f : RxStream → RxStream) : (s.modRx n f).widthShadow = s.widthShadow := rfl
@[simp] theorem State.modRx_widthActive (s : State) (n : Nat) (f : RxStream → RxStream) : (s.modRx n f).widthActive = s.widthActive := rfl
@[simp] theorem State.modRx_sine (s : State) (n : Nat) (f : RxStream → RxStream) : (s.modRx n f).sine = s.sine := rfl
@[simp] theorem State.modRx_pvtTab (s : State) (n : Nat) (f : RxStream → RxStream) : (s.modRx n f).pvtTab = s.pvtTab := rfl
@[simp] theorem State.modRx_ue (s : State) (n : Nat) (f : RxStream → RxStream) : (s.modRx n f).ue = s.ue := rfl
@[simp] theorem State.modRx_ce (s : State) (n : Nat) (f : RxStream → RxStream) : (s.modRx n f).ce = s.ce := rfl
@[simp] theorem State.modRx_eccCount (s : State) (n : Nat) (f : RxStream → RxStream) : (s.modRx n f).eccCount = s.eccCount := rfl
@[simp] theorem State.modRx_mem (s : State) (n : Nat) (f : RxStream → RxStream) : (s.modRx n f).mem = s.mem := rfl
@[simp] theorem State.modRx_memCfg (s : State) (n : Nat) (f : RxStream → RxStream) : (s.modRx n f).memCfg = s.memCfg := rfl
@[simp] theorem State.modRx_scrubAt (s : State) (n : Nat) (f : RxStream → RxStream) : (s.modRx n f).scrubAt = s.scrubAt := rfl
@[simp] theorem State.modRx_scrubbed (s : State) (n : Nat) (f : RxStream → RxStream) : (s.modRx n f).scrubbed = s.scrubbed := rfl
@[simp] theorem State.modRx_chans (s : State) (n : Nat) (f : RxStream → RxStream) : (s.modRx n f).chans = s.chans := rfl
@[simp] theorem State.modRx_axes (s : State) (n : Nat) (f : RxStream → RxStream) : (s.modRx n f).axes = s.axes := rfl
@[simp] theorem State.modRx_mgroups (s : State) (n : Nat) (f : RxStream → RxStream) : (s.modRx n f).mgroups = s.mgroups := rfl
@[simp] theorem State.modRx_msets (s : State) (n : Nat) (f : RxStream → RxStream) : (s.modRx n f).msets = s.msets := rfl
@[simp] theorem State.modRx_jchans (s : State) (n : Nat) (f : RxStream → RxStream) : (s.modRx n f).jchans = s.jchans := rfl
@[simp] theorem State.modRx_engines (s : State) (n : Nat) (f : RxStream → RxStream) : (s.modRx n f).engines = s.engines := rfl
@[simp] theorem State.modRx_hal (s : State) (n : Nat) (f : RxStream → RxStream) : (s.modRx n f).hal = s.hal := rfl
@[simp] theorem State.modRx_eths (s : State) (n : Nat) (f : RxStream → RxStream) : (s.modRx n f).eths = s.eths := rfl
@[simp] theorem State.modRx_pcie (s : State) (n : Nat) (f : RxStream → RxStream) : (s.modRx n f).pcie = s.pcie := rfl
@[simp] theorem State.modRx_smp (s : State) (n : Nat) (f : RxStream → RxStream) : (s.modRx n f).smp = s.smp := rfl
@[simp] theorem State.modRx_kps (s : State) (n : Nat) (f : RxStream → RxStream) : (s.modRx n f).kps = s.kps := rfl
@[simp] theorem State.modRx_thm (s : State) (n : Nat) (f : RxStream → RxStream) : (s.modRx n f).thm = s.thm := rfl
@[simp] theorem State.modRx_cals (s : State) (n : Nat) (f : RxStream → RxStream) : (s.modRx n f).cals = s.cals := rfl
@[simp] theorem State.modRx_calTurn (s : State) (n : Nat) (f : RxStream → RxStream) : (s.modRx n f).calTurn = s.calTurn := rfl
@[simp] theorem State.modRx_upd (s : State) (n : Nat) (f : RxStream → RxStream) : (s.modRx n f).upd = s.upd := rfl
@[simp] theorem State.modRx_tap (s : State) (n : Nat) (f : RxStream → RxStream) : (s.modRx n f).tap = s.tap := rfl
@[simp] theorem State.modRx_clocks (s : State) (n : Nat) (f : RxStream → RxStream) : (s.modRx n f).clocks = s.clocks := rfl
@[simp] theorem State.modRx_ticks (s : State) (n : Nat) (f : RxStream → RxStream) : (s.modRx n f).ticks = s.ticks := rfl
@[simp] theorem State.modRx_free (s : State) (n : Nat) (f : RxStream → RxStream) : (s.modRx n f).free = s.free := rfl
@[simp] theorem State.modRx_pending (s : State) (n : Nat) (f : RxStream → RxStream) : (s.modRx n f).pending = s.pending := rfl

/-! ### modCal -/

@[simp] theorem State.modCal_now (s : State) (c : Nat) (f : CalChan → CalChan) : (s.modCal c f).now = s.now := rfl
@[simp] theorem State.modCal_porst (s : State) (c : Nat) (f : CalChan → CalChan) : (s.modCal c f).porst = s.porst := rfl
@[simp] theorem State.modCal_ul24 (s : State) (c : Nat) (f : CalChan → CalChan) : (s.modCal c f).ul24 = s.ul24 := rfl
@[simp] theorem State.modCal_ftmStrap (s : State) (c : Nat) (f : CalChan → CalChan) : (s.modCal c f).ftmStrap = s.ftmStrap := rfl
@[simp] theorem State.modCal_ftm (s : State) (c : Nat) (f : CalChan → CalChan) : (s.modCal c f).ftm = s.ftm := rfl
@[simp] theorem State.modCal_devOp (s : State) (c : Nat) (f : CalChan → CalChan) : (s.modCal c f).devOp = s.devOp := rfl
@[simp] theorem State.modCal_devOpBack (s : State) (c : Nat) (f : CalChan → CalChan) : (s.modCal c f).devOpBack = s.devOpBack := rfl
@[simp] theorem State.modCal_bootFrom (s : State) (c : Nat) (f : CalChan → CalChan) : (s.modCal c f).bootFrom = s.bootFrom := rfl
@[simp] theorem State.modCal_relAt (s : State) (c : Nat) (f : CalChan → CalChan) : (s.modCal c f).relAt = s.relAt := rfl
@[simp] theorem State.modCal_sillAt (s : State) (c : Nat) (f : CalChan → CalChan) : (s.modCal c f).sillAt = s.sillAt := rfl
@[simp] theorem State.modCal_kpsAt (s : State) (c : Nat) (f : CalChan → CalChan) : (s.modCal c f).kpsAt = s.kpsAt := rfl
@[simp] theorem State.modCal_powerAt (s : State) (c : Nat) (f : CalChan → CalChan) : (s.modCal c f).powerAt = s.powerAt := rfl
@[simp] theorem State.modCal_islandsAt (s : State) (c : Nat) (f : CalChan → CalChan) : (s.modCal c f).islandsAt = s.islandsAt := rfl
@[simp] theorem State.modCal_appliesRecords (s : State) (c : Nat) (f : CalChan → CalChan) : (s.modCal c f).appliesRecords = s.appliesRecords := rfl
@[simp] theorem State.modCal_regs (s : State) (c : Nat) (f : CalChan → CalChan) : (s.modCal c f).regs = s.regs := rfl
@[simp] theorem State.modCal_active (s : State) (c : Nat) (f : CalChan → CalChan) : (s.modCal c f).active = s.active := rfl
@[simp] theorem State.modCal_heldLow (s : State) (c : Nat) (f : CalChan → CalChan) : (s.modCal c f).heldLow = s.heldLow := rfl
@[simp] theorem State.modCal_captures (s : State) (c : Nat) (f : CalChan → CalChan) : (s.modCal c f).captures = s.captures := rfl
@[simp] theorem State.modCal_lastRead (s : State) (c : Nat) (f : CalChan → CalChan) : (s.modCal c f).lastRead = s.lastRead := rfl
@[simp] theorem State.modCal_bar2Data (s : State) (c : Nat) (f : CalChan → CalChan) : (s.modCal c f).bar2Data = s.bar2Data := rfl
@[simp] theorem State.modCal_waking (s : State) (c : Nat) (f : CalChan → CalChan) : (s.modCal c f).waking = s.waking := rfl
@[simp] theorem State.modCal_stopPending (s : State) (c : Nat) (f : CalChan → CalChan) : (s.modCal c f).stopPending = s.stopPending := rfl
@[simp] theorem State.modCal_ports (s : State) (c : Nat) (f : CalChan → CalChan) : (s.modCal c f).ports = s.ports := rfl
@[simp] theorem State.modCal_rings (s : State) (c : Nat) (f : CalChan → CalChan) : (s.modCal c f).rings = s.rings := rfl
@[simp] theorem State.modCal_band (s : State) (c : Nat) (f : CalChan → CalChan) : (s.modCal c f).band = s.band := rfl
@[simp] theorem State.modCal_spool (s : State) (c : Nat) (f : CalChan → CalChan) : (s.modCal c f).spool = s.spool := rfl
@[simp] theorem State.modCal_masks (s : State) (c : Nat) (f : CalChan → CalChan) : (s.modCal c f).masks = s.masks := rfl
@[simp] theorem State.modCal_flash (s : State) (c : Nat) (f : CalChan → CalChan) : (s.modCal c f).flash = s.flash := rfl
@[simp] theorem State.modCal_natShadow (s : State) (c : Nat) (f : CalChan → CalChan) : (s.modCal c f).natShadow = s.natShadow := rfl
@[simp] theorem State.modCal_natActive (s : State) (c : Nat) (f : CalChan → CalChan) : (s.modCal c f).natActive = s.natActive := rfl
@[simp] theorem State.modCal_widthShadow (s : State) (c : Nat) (f : CalChan → CalChan) : (s.modCal c f).widthShadow = s.widthShadow := rfl
@[simp] theorem State.modCal_widthActive (s : State) (c : Nat) (f : CalChan → CalChan) : (s.modCal c f).widthActive = s.widthActive := rfl
@[simp] theorem State.modCal_sine (s : State) (c : Nat) (f : CalChan → CalChan) : (s.modCal c f).sine = s.sine := rfl
@[simp] theorem State.modCal_pvtTab (s : State) (c : Nat) (f : CalChan → CalChan) : (s.modCal c f).pvtTab = s.pvtTab := rfl
@[simp] theorem State.modCal_ue (s : State) (c : Nat) (f : CalChan → CalChan) : (s.modCal c f).ue = s.ue := rfl
@[simp] theorem State.modCal_ce (s : State) (c : Nat) (f : CalChan → CalChan) : (s.modCal c f).ce = s.ce := rfl
@[simp] theorem State.modCal_eccCount (s : State) (c : Nat) (f : CalChan → CalChan) : (s.modCal c f).eccCount = s.eccCount := rfl
@[simp] theorem State.modCal_mem (s : State) (c : Nat) (f : CalChan → CalChan) : (s.modCal c f).mem = s.mem := rfl
@[simp] theorem State.modCal_memCfg (s : State) (c : Nat) (f : CalChan → CalChan) : (s.modCal c f).memCfg = s.memCfg := rfl
@[simp] theorem State.modCal_scrubAt (s : State) (c : Nat) (f : CalChan → CalChan) : (s.modCal c f).scrubAt = s.scrubAt := rfl
@[simp] theorem State.modCal_scrubbed (s : State) (c : Nat) (f : CalChan → CalChan) : (s.modCal c f).scrubbed = s.scrubbed := rfl
@[simp] theorem State.modCal_chans (s : State) (c : Nat) (f : CalChan → CalChan) : (s.modCal c f).chans = s.chans := rfl
@[simp] theorem State.modCal_axes (s : State) (c : Nat) (f : CalChan → CalChan) : (s.modCal c f).axes = s.axes := rfl
@[simp] theorem State.modCal_mgroups (s : State) (c : Nat) (f : CalChan → CalChan) : (s.modCal c f).mgroups = s.mgroups := rfl
@[simp] theorem State.modCal_msets (s : State) (c : Nat) (f : CalChan → CalChan) : (s.modCal c f).msets = s.msets := rfl
@[simp] theorem State.modCal_jchans (s : State) (c : Nat) (f : CalChan → CalChan) : (s.modCal c f).jchans = s.jchans := rfl
@[simp] theorem State.modCal_engines (s : State) (c : Nat) (f : CalChan → CalChan) : (s.modCal c f).engines = s.engines := rfl
@[simp] theorem State.modCal_hal (s : State) (c : Nat) (f : CalChan → CalChan) : (s.modCal c f).hal = s.hal := rfl
@[simp] theorem State.modCal_eths (s : State) (c : Nat) (f : CalChan → CalChan) : (s.modCal c f).eths = s.eths := rfl
@[simp] theorem State.modCal_lnk (s : State) (c : Nat) (f : CalChan → CalChan) : (s.modCal c f).lnk = s.lnk := rfl
@[simp] theorem State.modCal_pcie (s : State) (c : Nat) (f : CalChan → CalChan) : (s.modCal c f).pcie = s.pcie := rfl
@[simp] theorem State.modCal_smp (s : State) (c : Nat) (f : CalChan → CalChan) : (s.modCal c f).smp = s.smp := rfl
@[simp] theorem State.modCal_kps (s : State) (c : Nat) (f : CalChan → CalChan) : (s.modCal c f).kps = s.kps := rfl
@[simp] theorem State.modCal_thm (s : State) (c : Nat) (f : CalChan → CalChan) : (s.modCal c f).thm = s.thm := rfl
@[simp] theorem State.modCal_calTurn (s : State) (c : Nat) (f : CalChan → CalChan) : (s.modCal c f).calTurn = s.calTurn := rfl
@[simp] theorem State.modCal_upd (s : State) (c : Nat) (f : CalChan → CalChan) : (s.modCal c f).upd = s.upd := rfl
@[simp] theorem State.modCal_tap (s : State) (c : Nat) (f : CalChan → CalChan) : (s.modCal c f).tap = s.tap := rfl
@[simp] theorem State.modCal_clocks (s : State) (c : Nat) (f : CalChan → CalChan) : (s.modCal c f).clocks = s.clocks := rfl
@[simp] theorem State.modCal_ticks (s : State) (c : Nat) (f : CalChan → CalChan) : (s.modCal c f).ticks = s.ticks := rfl
@[simp] theorem State.modCal_free (s : State) (c : Nat) (f : CalChan → CalChan) : (s.modCal c f).free = s.free := rfl
@[simp] theorem State.modCal_pending (s : State) (c : Nat) (f : CalChan → CalChan) : (s.modCal c f).pending = s.pending := rfl

/-! ### setPath -/

@[simp] theorem State.setPath_now (s : State) (i : Nat) (x : MsgPath) : (s.setPath i x).now = s.now := rfl
@[simp] theorem State.setPath_porst (s : State) (i : Nat) (x : MsgPath) : (s.setPath i x).porst = s.porst := rfl
@[simp] theorem State.setPath_ul24 (s : State) (i : Nat) (x : MsgPath) : (s.setPath i x).ul24 = s.ul24 := rfl
@[simp] theorem State.setPath_ftmStrap (s : State) (i : Nat) (x : MsgPath) : (s.setPath i x).ftmStrap = s.ftmStrap := rfl
@[simp] theorem State.setPath_ftm (s : State) (i : Nat) (x : MsgPath) : (s.setPath i x).ftm = s.ftm := rfl
@[simp] theorem State.setPath_devOp (s : State) (i : Nat) (x : MsgPath) : (s.setPath i x).devOp = s.devOp := rfl
@[simp] theorem State.setPath_devOpBack (s : State) (i : Nat) (x : MsgPath) : (s.setPath i x).devOpBack = s.devOpBack := rfl
@[simp] theorem State.setPath_bootFrom (s : State) (i : Nat) (x : MsgPath) : (s.setPath i x).bootFrom = s.bootFrom := rfl
@[simp] theorem State.setPath_relAt (s : State) (i : Nat) (x : MsgPath) : (s.setPath i x).relAt = s.relAt := rfl
@[simp] theorem State.setPath_sillAt (s : State) (i : Nat) (x : MsgPath) : (s.setPath i x).sillAt = s.sillAt := rfl
@[simp] theorem State.setPath_kpsAt (s : State) (i : Nat) (x : MsgPath) : (s.setPath i x).kpsAt = s.kpsAt := rfl
@[simp] theorem State.setPath_powerAt (s : State) (i : Nat) (x : MsgPath) : (s.setPath i x).powerAt = s.powerAt := rfl
@[simp] theorem State.setPath_islandsAt (s : State) (i : Nat) (x : MsgPath) : (s.setPath i x).islandsAt = s.islandsAt := rfl
@[simp] theorem State.setPath_appliesRecords (s : State) (i : Nat) (x : MsgPath) : (s.setPath i x).appliesRecords = s.appliesRecords := rfl
@[simp] theorem State.setPath_regs (s : State) (i : Nat) (x : MsgPath) : (s.setPath i x).regs = s.regs := rfl
@[simp] theorem State.setPath_active (s : State) (i : Nat) (x : MsgPath) : (s.setPath i x).active = s.active := rfl
@[simp] theorem State.setPath_heldLow (s : State) (i : Nat) (x : MsgPath) : (s.setPath i x).heldLow = s.heldLow := rfl
@[simp] theorem State.setPath_captures (s : State) (i : Nat) (x : MsgPath) : (s.setPath i x).captures = s.captures := rfl
@[simp] theorem State.setPath_lastRead (s : State) (i : Nat) (x : MsgPath) : (s.setPath i x).lastRead = s.lastRead := rfl
@[simp] theorem State.setPath_bar2Data (s : State) (i : Nat) (x : MsgPath) : (s.setPath i x).bar2Data = s.bar2Data := rfl
@[simp] theorem State.setPath_waking (s : State) (i : Nat) (x : MsgPath) : (s.setPath i x).waking = s.waking := rfl
@[simp] theorem State.setPath_stopPending (s : State) (i : Nat) (x : MsgPath) : (s.setPath i x).stopPending = s.stopPending := rfl
@[simp] theorem State.setPath_ports (s : State) (i : Nat) (x : MsgPath) : (s.setPath i x).ports = s.ports := rfl
@[simp] theorem State.setPath_rings (s : State) (i : Nat) (x : MsgPath) : (s.setPath i x).rings = s.rings := rfl
@[simp] theorem State.setPath_band (s : State) (i : Nat) (x : MsgPath) : (s.setPath i x).band = s.band := rfl
@[simp] theorem State.setPath_spool (s : State) (i : Nat) (x : MsgPath) : (s.setPath i x).spool = s.spool := rfl
@[simp] theorem State.setPath_masks (s : State) (i : Nat) (x : MsgPath) : (s.setPath i x).masks = s.masks := rfl
@[simp] theorem State.setPath_flash (s : State) (i : Nat) (x : MsgPath) : (s.setPath i x).flash = s.flash := rfl
@[simp] theorem State.setPath_natShadow (s : State) (i : Nat) (x : MsgPath) : (s.setPath i x).natShadow = s.natShadow := rfl
@[simp] theorem State.setPath_natActive (s : State) (i : Nat) (x : MsgPath) : (s.setPath i x).natActive = s.natActive := rfl
@[simp] theorem State.setPath_widthShadow (s : State) (i : Nat) (x : MsgPath) : (s.setPath i x).widthShadow = s.widthShadow := rfl
@[simp] theorem State.setPath_widthActive (s : State) (i : Nat) (x : MsgPath) : (s.setPath i x).widthActive = s.widthActive := rfl
@[simp] theorem State.setPath_sine (s : State) (i : Nat) (x : MsgPath) : (s.setPath i x).sine = s.sine := rfl
@[simp] theorem State.setPath_pvtTab (s : State) (i : Nat) (x : MsgPath) : (s.setPath i x).pvtTab = s.pvtTab := rfl
@[simp] theorem State.setPath_ue (s : State) (i : Nat) (x : MsgPath) : (s.setPath i x).ue = s.ue := rfl
@[simp] theorem State.setPath_ce (s : State) (i : Nat) (x : MsgPath) : (s.setPath i x).ce = s.ce := rfl
@[simp] theorem State.setPath_eccCount (s : State) (i : Nat) (x : MsgPath) : (s.setPath i x).eccCount = s.eccCount := rfl
@[simp] theorem State.setPath_mem (s : State) (i : Nat) (x : MsgPath) : (s.setPath i x).mem = s.mem := rfl
@[simp] theorem State.setPath_memCfg (s : State) (i : Nat) (x : MsgPath) : (s.setPath i x).memCfg = s.memCfg := rfl
@[simp] theorem State.setPath_scrubAt (s : State) (i : Nat) (x : MsgPath) : (s.setPath i x).scrubAt = s.scrubAt := rfl
@[simp] theorem State.setPath_scrubbed (s : State) (i : Nat) (x : MsgPath) : (s.setPath i x).scrubbed = s.scrubbed := rfl
@[simp] theorem State.setPath_chans (s : State) (i : Nat) (x : MsgPath) : (s.setPath i x).chans = s.chans := rfl
@[simp] theorem State.setPath_axes (s : State) (i : Nat) (x : MsgPath) : (s.setPath i x).axes = s.axes := rfl
@[simp] theorem State.setPath_mgroups (s : State) (i : Nat) (x : MsgPath) : (s.setPath i x).mgroups = s.mgroups := rfl
@[simp] theorem State.setPath_msets (s : State) (i : Nat) (x : MsgPath) : (s.setPath i x).msets = s.msets := rfl
@[simp] theorem State.setPath_jchans (s : State) (i : Nat) (x : MsgPath) : (s.setPath i x).jchans = s.jchans := rfl
@[simp] theorem State.setPath_engines (s : State) (i : Nat) (x : MsgPath) : (s.setPath i x).engines = s.engines := rfl
@[simp] theorem State.setPath_hal (s : State) (i : Nat) (x : MsgPath) : (s.setPath i x).hal = s.hal := rfl
@[simp] theorem State.setPath_eths (s : State) (i : Nat) (x : MsgPath) : (s.setPath i x).eths = s.eths := rfl
@[simp] theorem State.setPath_lnk (s : State) (i : Nat) (x : MsgPath) : (s.setPath i x).lnk = s.lnk := rfl
@[simp] theorem State.setPath_pcie (s : State) (i : Nat) (x : MsgPath) : (s.setPath i x).pcie = s.pcie := rfl
@[simp] theorem State.setPath_smp (s : State) (i : Nat) (x : MsgPath) : (s.setPath i x).smp = s.smp := rfl
@[simp] theorem State.setPath_thm (s : State) (i : Nat) (x : MsgPath) : (s.setPath i x).thm = s.thm := rfl
@[simp] theorem State.setPath_cals (s : State) (i : Nat) (x : MsgPath) : (s.setPath i x).cals = s.cals := rfl
@[simp] theorem State.setPath_calTurn (s : State) (i : Nat) (x : MsgPath) : (s.setPath i x).calTurn = s.calTurn := rfl
@[simp] theorem State.setPath_upd (s : State) (i : Nat) (x : MsgPath) : (s.setPath i x).upd = s.upd := rfl
@[simp] theorem State.setPath_tap (s : State) (i : Nat) (x : MsgPath) : (s.setPath i x).tap = s.tap := rfl
@[simp] theorem State.setPath_clocks (s : State) (i : Nat) (x : MsgPath) : (s.setPath i x).clocks = s.clocks := rfl
@[simp] theorem State.setPath_ticks (s : State) (i : Nat) (x : MsgPath) : (s.setPath i x).ticks = s.ticks := rfl
@[simp] theorem State.setPath_free (s : State) (i : Nat) (x : MsgPath) : (s.setPath i x).free = s.free := rfl
@[simp] theorem State.setPath_pending (s : State) (i : Nat) (x : MsgPath) : (s.setPath i x).pending = s.pending := rfl

/-! ### drew -/

@[simp] theorem State.drew_now (s : State) : (s.drew).now = s.now := rfl
@[simp] theorem State.drew_porst (s : State) : (s.drew).porst = s.porst := rfl
@[simp] theorem State.drew_ul24 (s : State) : (s.drew).ul24 = s.ul24 := rfl
@[simp] theorem State.drew_ftmStrap (s : State) : (s.drew).ftmStrap = s.ftmStrap := rfl
@[simp] theorem State.drew_ftm (s : State) : (s.drew).ftm = s.ftm := rfl
@[simp] theorem State.drew_devOp (s : State) : (s.drew).devOp = s.devOp := rfl
@[simp] theorem State.drew_devOpBack (s : State) : (s.drew).devOpBack = s.devOpBack := rfl
@[simp] theorem State.drew_bootFrom (s : State) : (s.drew).bootFrom = s.bootFrom := rfl
@[simp] theorem State.drew_relAt (s : State) : (s.drew).relAt = s.relAt := rfl
@[simp] theorem State.drew_sillAt (s : State) : (s.drew).sillAt = s.sillAt := rfl
@[simp] theorem State.drew_kpsAt (s : State) : (s.drew).kpsAt = s.kpsAt := rfl
@[simp] theorem State.drew_powerAt (s : State) : (s.drew).powerAt = s.powerAt := rfl
@[simp] theorem State.drew_islandsAt (s : State) : (s.drew).islandsAt = s.islandsAt := rfl
@[simp] theorem State.drew_appliesRecords (s : State) : (s.drew).appliesRecords = s.appliesRecords := rfl
@[simp] theorem State.drew_regs (s : State) : (s.drew).regs = s.regs := rfl
@[simp] theorem State.drew_active (s : State) : (s.drew).active = s.active := rfl
@[simp] theorem State.drew_heldLow (s : State) : (s.drew).heldLow = s.heldLow := rfl
@[simp] theorem State.drew_captures (s : State) : (s.drew).captures = s.captures := rfl
@[simp] theorem State.drew_lastRead (s : State) : (s.drew).lastRead = s.lastRead := rfl
@[simp] theorem State.drew_bar2Data (s : State) : (s.drew).bar2Data = s.bar2Data := rfl
@[simp] theorem State.drew_waking (s : State) : (s.drew).waking = s.waking := rfl
@[simp] theorem State.drew_stopPending (s : State) : (s.drew).stopPending = s.stopPending := rfl
@[simp] theorem State.drew_ports (s : State) : (s.drew).ports = s.ports := rfl
@[simp] theorem State.drew_rings (s : State) : (s.drew).rings = s.rings := rfl
@[simp] theorem State.drew_band (s : State) : (s.drew).band = s.band := rfl
@[simp] theorem State.drew_spool (s : State) : (s.drew).spool = s.spool := rfl
@[simp] theorem State.drew_masks (s : State) : (s.drew).masks = s.masks := rfl
@[simp] theorem State.drew_flash (s : State) : (s.drew).flash = s.flash := rfl
@[simp] theorem State.drew_natShadow (s : State) : (s.drew).natShadow = s.natShadow := rfl
@[simp] theorem State.drew_natActive (s : State) : (s.drew).natActive = s.natActive := rfl
@[simp] theorem State.drew_widthShadow (s : State) : (s.drew).widthShadow = s.widthShadow := rfl
@[simp] theorem State.drew_widthActive (s : State) : (s.drew).widthActive = s.widthActive := rfl
@[simp] theorem State.drew_sine (s : State) : (s.drew).sine = s.sine := rfl
@[simp] theorem State.drew_pvtTab (s : State) : (s.drew).pvtTab = s.pvtTab := rfl
@[simp] theorem State.drew_ue (s : State) : (s.drew).ue = s.ue := rfl
@[simp] theorem State.drew_ce (s : State) : (s.drew).ce = s.ce := rfl
@[simp] theorem State.drew_eccCount (s : State) : (s.drew).eccCount = s.eccCount := rfl
@[simp] theorem State.drew_mem (s : State) : (s.drew).mem = s.mem := rfl
@[simp] theorem State.drew_memCfg (s : State) : (s.drew).memCfg = s.memCfg := rfl
@[simp] theorem State.drew_scrubAt (s : State) : (s.drew).scrubAt = s.scrubAt := rfl
@[simp] theorem State.drew_scrubbed (s : State) : (s.drew).scrubbed = s.scrubbed := rfl
@[simp] theorem State.drew_chans (s : State) : (s.drew).chans = s.chans := rfl
@[simp] theorem State.drew_axes (s : State) : (s.drew).axes = s.axes := rfl
@[simp] theorem State.drew_mgroups (s : State) : (s.drew).mgroups = s.mgroups := rfl
@[simp] theorem State.drew_msets (s : State) : (s.drew).msets = s.msets := rfl
@[simp] theorem State.drew_jchans (s : State) : (s.drew).jchans = s.jchans := rfl
@[simp] theorem State.drew_engines (s : State) : (s.drew).engines = s.engines := rfl
@[simp] theorem State.drew_hal (s : State) : (s.drew).hal = s.hal := rfl
@[simp] theorem State.drew_eths (s : State) : (s.drew).eths = s.eths := rfl
@[simp] theorem State.drew_lnk (s : State) : (s.drew).lnk = s.lnk := rfl
@[simp] theorem State.drew_pcie (s : State) : (s.drew).pcie = s.pcie := rfl
@[simp] theorem State.drew_smp (s : State) : (s.drew).smp = s.smp := rfl
@[simp] theorem State.drew_kps (s : State) : (s.drew).kps = s.kps := rfl
@[simp] theorem State.drew_thm (s : State) : (s.drew).thm = s.thm := rfl
@[simp] theorem State.drew_cals (s : State) : (s.drew).cals = s.cals := rfl
@[simp] theorem State.drew_calTurn (s : State) : (s.drew).calTurn = s.calTurn := rfl
@[simp] theorem State.drew_upd (s : State) : (s.drew).upd = s.upd := rfl
@[simp] theorem State.drew_tap (s : State) : (s.drew).tap = s.tap := rfl
@[simp] theorem State.drew_clocks (s : State) : (s.drew).clocks = s.clocks := rfl
@[simp] theorem State.drew_ticks (s : State) : (s.drew).ticks = s.ticks := rfl
@[simp] theorem State.drew_pending (s : State) : (s.drew).pending = s.pending := rfl

/-! ### setNatS -/

@[simp] theorem State.setNatS_now (s : State) (p j : Nat) (w : Word) : (s.setNatS p j w).now = s.now := rfl
@[simp] theorem State.setNatS_porst (s : State) (p j : Nat) (w : Word) : (s.setNatS p j w).porst = s.porst := rfl
@[simp] theorem State.setNatS_ul24 (s : State) (p j : Nat) (w : Word) : (s.setNatS p j w).ul24 = s.ul24 := rfl
@[simp] theorem State.setNatS_ftmStrap (s : State) (p j : Nat) (w : Word) : (s.setNatS p j w).ftmStrap = s.ftmStrap := rfl
@[simp] theorem State.setNatS_ftm (s : State) (p j : Nat) (w : Word) : (s.setNatS p j w).ftm = s.ftm := rfl
@[simp] theorem State.setNatS_devOp (s : State) (p j : Nat) (w : Word) : (s.setNatS p j w).devOp = s.devOp := rfl
@[simp] theorem State.setNatS_devOpBack (s : State) (p j : Nat) (w : Word) : (s.setNatS p j w).devOpBack = s.devOpBack := rfl
@[simp] theorem State.setNatS_bootFrom (s : State) (p j : Nat) (w : Word) : (s.setNatS p j w).bootFrom = s.bootFrom := rfl
@[simp] theorem State.setNatS_relAt (s : State) (p j : Nat) (w : Word) : (s.setNatS p j w).relAt = s.relAt := rfl
@[simp] theorem State.setNatS_sillAt (s : State) (p j : Nat) (w : Word) : (s.setNatS p j w).sillAt = s.sillAt := rfl
@[simp] theorem State.setNatS_kpsAt (s : State) (p j : Nat) (w : Word) : (s.setNatS p j w).kpsAt = s.kpsAt := rfl
@[simp] theorem State.setNatS_powerAt (s : State) (p j : Nat) (w : Word) : (s.setNatS p j w).powerAt = s.powerAt := rfl
@[simp] theorem State.setNatS_islandsAt (s : State) (p j : Nat) (w : Word) : (s.setNatS p j w).islandsAt = s.islandsAt := rfl
@[simp] theorem State.setNatS_appliesRecords (s : State) (p j : Nat) (w : Word) : (s.setNatS p j w).appliesRecords = s.appliesRecords := rfl
@[simp] theorem State.setNatS_regs (s : State) (p j : Nat) (w : Word) : (s.setNatS p j w).regs = s.regs := rfl
@[simp] theorem State.setNatS_active (s : State) (p j : Nat) (w : Word) : (s.setNatS p j w).active = s.active := rfl
@[simp] theorem State.setNatS_heldLow (s : State) (p j : Nat) (w : Word) : (s.setNatS p j w).heldLow = s.heldLow := rfl
@[simp] theorem State.setNatS_captures (s : State) (p j : Nat) (w : Word) : (s.setNatS p j w).captures = s.captures := rfl
@[simp] theorem State.setNatS_lastRead (s : State) (p j : Nat) (w : Word) : (s.setNatS p j w).lastRead = s.lastRead := rfl
@[simp] theorem State.setNatS_bar2Data (s : State) (p j : Nat) (w : Word) : (s.setNatS p j w).bar2Data = s.bar2Data := rfl
@[simp] theorem State.setNatS_waking (s : State) (p j : Nat) (w : Word) : (s.setNatS p j w).waking = s.waking := rfl
@[simp] theorem State.setNatS_stopPending (s : State) (p j : Nat) (w : Word) : (s.setNatS p j w).stopPending = s.stopPending := rfl
@[simp] theorem State.setNatS_ports (s : State) (p j : Nat) (w : Word) : (s.setNatS p j w).ports = s.ports := rfl
@[simp] theorem State.setNatS_rings (s : State) (p j : Nat) (w : Word) : (s.setNatS p j w).rings = s.rings := rfl
@[simp] theorem State.setNatS_band (s : State) (p j : Nat) (w : Word) : (s.setNatS p j w).band = s.band := rfl
@[simp] theorem State.setNatS_spool (s : State) (p j : Nat) (w : Word) : (s.setNatS p j w).spool = s.spool := rfl
@[simp] theorem State.setNatS_masks (s : State) (p j : Nat) (w : Word) : (s.setNatS p j w).masks = s.masks := rfl
@[simp] theorem State.setNatS_flash (s : State) (p j : Nat) (w : Word) : (s.setNatS p j w).flash = s.flash := rfl
@[simp] theorem State.setNatS_natActive (s : State) (p j : Nat) (w : Word) : (s.setNatS p j w).natActive = s.natActive := rfl
@[simp] theorem State.setNatS_widthShadow (s : State) (p j : Nat) (w : Word) : (s.setNatS p j w).widthShadow = s.widthShadow := rfl
@[simp] theorem State.setNatS_widthActive (s : State) (p j : Nat) (w : Word) : (s.setNatS p j w).widthActive = s.widthActive := rfl
@[simp] theorem State.setNatS_sine (s : State) (p j : Nat) (w : Word) : (s.setNatS p j w).sine = s.sine := rfl
@[simp] theorem State.setNatS_pvtTab (s : State) (p j : Nat) (w : Word) : (s.setNatS p j w).pvtTab = s.pvtTab := rfl
@[simp] theorem State.setNatS_eccCount (s : State) (p j : Nat) (w : Word) : (s.setNatS p j w).eccCount = s.eccCount := rfl
@[simp] theorem State.setNatS_mem (s : State) (p j : Nat) (w : Word) : (s.setNatS p j w).mem = s.mem := rfl
@[simp] theorem State.setNatS_memCfg (s : State) (p j : Nat) (w : Word) : (s.setNatS p j w).memCfg = s.memCfg := rfl
@[simp] theorem State.setNatS_scrubAt (s : State) (p j : Nat) (w : Word) : (s.setNatS p j w).scrubAt = s.scrubAt := rfl
@[simp] theorem State.setNatS_scrubbed (s : State) (p j : Nat) (w : Word) : (s.setNatS p j w).scrubbed = s.scrubbed := rfl
@[simp] theorem State.setNatS_chans (s : State) (p j : Nat) (w : Word) : (s.setNatS p j w).chans = s.chans := rfl
@[simp] theorem State.setNatS_axes (s : State) (p j : Nat) (w : Word) : (s.setNatS p j w).axes = s.axes := rfl
@[simp] theorem State.setNatS_mgroups (s : State) (p j : Nat) (w : Word) : (s.setNatS p j w).mgroups = s.mgroups := rfl
@[simp] theorem State.setNatS_msets (s : State) (p j : Nat) (w : Word) : (s.setNatS p j w).msets = s.msets := rfl
@[simp] theorem State.setNatS_jchans (s : State) (p j : Nat) (w : Word) : (s.setNatS p j w).jchans = s.jchans := rfl
@[simp] theorem State.setNatS_engines (s : State) (p j : Nat) (w : Word) : (s.setNatS p j w).engines = s.engines := rfl
@[simp] theorem State.setNatS_hal (s : State) (p j : Nat) (w : Word) : (s.setNatS p j w).hal = s.hal := rfl
@[simp] theorem State.setNatS_eths (s : State) (p j : Nat) (w : Word) : (s.setNatS p j w).eths = s.eths := rfl
@[simp] theorem State.setNatS_lnk (s : State) (p j : Nat) (w : Word) : (s.setNatS p j w).lnk = s.lnk := rfl
@[simp] theorem State.setNatS_pcie (s : State) (p j : Nat) (w : Word) : (s.setNatS p j w).pcie = s.pcie := rfl
@[simp] theorem State.setNatS_smp (s : State) (p j : Nat) (w : Word) : (s.setNatS p j w).smp = s.smp := rfl
@[simp] theorem State.setNatS_kps (s : State) (p j : Nat) (w : Word) : (s.setNatS p j w).kps = s.kps := rfl
@[simp] theorem State.setNatS_thm (s : State) (p j : Nat) (w : Word) : (s.setNatS p j w).thm = s.thm := rfl
@[simp] theorem State.setNatS_cals (s : State) (p j : Nat) (w : Word) : (s.setNatS p j w).cals = s.cals := rfl
@[simp] theorem State.setNatS_calTurn (s : State) (p j : Nat) (w : Word) : (s.setNatS p j w).calTurn = s.calTurn := rfl
@[simp] theorem State.setNatS_upd (s : State) (p j : Nat) (w : Word) : (s.setNatS p j w).upd = s.upd := rfl
@[simp] theorem State.setNatS_tap (s : State) (p j : Nat) (w : Word) : (s.setNatS p j w).tap = s.tap := rfl
@[simp] theorem State.setNatS_clocks (s : State) (p j : Nat) (w : Word) : (s.setNatS p j w).clocks = s.clocks := rfl
@[simp] theorem State.setNatS_ticks (s : State) (p j : Nat) (w : Word) : (s.setNatS p j w).ticks = s.ticks := rfl
@[simp] theorem State.setNatS_free (s : State) (p j : Nat) (w : Word) : (s.setNatS p j w).free = s.free := rfl
@[simp] theorem State.setNatS_pending (s : State) (p j : Nat) (w : Word) : (s.setNatS p j w).pending = s.pending := rfl

/-! ### setNatA -/

@[simp] theorem State.setNatA_now (s : State) (p j : Nat) (w : Word) : (s.setNatA p j w).now = s.now := rfl
@[simp] theorem State.setNatA_porst (s : State) (p j : Nat) (w : Word) : (s.setNatA p j w).porst = s.porst := rfl
@[simp] theorem State.setNatA_ul24 (s : State) (p j : Nat) (w : Word) : (s.setNatA p j w).ul24 = s.ul24 := rfl
@[simp] theorem State.setNatA_ftmStrap (s : State) (p j : Nat) (w : Word) : (s.setNatA p j w).ftmStrap = s.ftmStrap := rfl
@[simp] theorem State.setNatA_ftm (s : State) (p j : Nat) (w : Word) : (s.setNatA p j w).ftm = s.ftm := rfl
@[simp] theorem State.setNatA_devOp (s : State) (p j : Nat) (w : Word) : (s.setNatA p j w).devOp = s.devOp := rfl
@[simp] theorem State.setNatA_devOpBack (s : State) (p j : Nat) (w : Word) : (s.setNatA p j w).devOpBack = s.devOpBack := rfl
@[simp] theorem State.setNatA_bootFrom (s : State) (p j : Nat) (w : Word) : (s.setNatA p j w).bootFrom = s.bootFrom := rfl
@[simp] theorem State.setNatA_relAt (s : State) (p j : Nat) (w : Word) : (s.setNatA p j w).relAt = s.relAt := rfl
@[simp] theorem State.setNatA_sillAt (s : State) (p j : Nat) (w : Word) : (s.setNatA p j w).sillAt = s.sillAt := rfl
@[simp] theorem State.setNatA_kpsAt (s : State) (p j : Nat) (w : Word) : (s.setNatA p j w).kpsAt = s.kpsAt := rfl
@[simp] theorem State.setNatA_powerAt (s : State) (p j : Nat) (w : Word) : (s.setNatA p j w).powerAt = s.powerAt := rfl
@[simp] theorem State.setNatA_islandsAt (s : State) (p j : Nat) (w : Word) : (s.setNatA p j w).islandsAt = s.islandsAt := rfl
@[simp] theorem State.setNatA_appliesRecords (s : State) (p j : Nat) (w : Word) : (s.setNatA p j w).appliesRecords = s.appliesRecords := rfl
@[simp] theorem State.setNatA_regs (s : State) (p j : Nat) (w : Word) : (s.setNatA p j w).regs = s.regs := rfl
@[simp] theorem State.setNatA_active (s : State) (p j : Nat) (w : Word) : (s.setNatA p j w).active = s.active := rfl
@[simp] theorem State.setNatA_heldLow (s : State) (p j : Nat) (w : Word) : (s.setNatA p j w).heldLow = s.heldLow := rfl
@[simp] theorem State.setNatA_captures (s : State) (p j : Nat) (w : Word) : (s.setNatA p j w).captures = s.captures := rfl
@[simp] theorem State.setNatA_lastRead (s : State) (p j : Nat) (w : Word) : (s.setNatA p j w).lastRead = s.lastRead := rfl
@[simp] theorem State.setNatA_bar2Data (s : State) (p j : Nat) (w : Word) : (s.setNatA p j w).bar2Data = s.bar2Data := rfl
@[simp] theorem State.setNatA_waking (s : State) (p j : Nat) (w : Word) : (s.setNatA p j w).waking = s.waking := rfl
@[simp] theorem State.setNatA_stopPending (s : State) (p j : Nat) (w : Word) : (s.setNatA p j w).stopPending = s.stopPending := rfl
@[simp] theorem State.setNatA_ports (s : State) (p j : Nat) (w : Word) : (s.setNatA p j w).ports = s.ports := rfl
@[simp] theorem State.setNatA_rings (s : State) (p j : Nat) (w : Word) : (s.setNatA p j w).rings = s.rings := rfl
@[simp] theorem State.setNatA_band (s : State) (p j : Nat) (w : Word) : (s.setNatA p j w).band = s.band := rfl
@[simp] theorem State.setNatA_spool (s : State) (p j : Nat) (w : Word) : (s.setNatA p j w).spool = s.spool := rfl
@[simp] theorem State.setNatA_masks (s : State) (p j : Nat) (w : Word) : (s.setNatA p j w).masks = s.masks := rfl
@[simp] theorem State.setNatA_flash (s : State) (p j : Nat) (w : Word) : (s.setNatA p j w).flash = s.flash := rfl
@[simp] theorem State.setNatA_natShadow (s : State) (p j : Nat) (w : Word) : (s.setNatA p j w).natShadow = s.natShadow := rfl
@[simp] theorem State.setNatA_widthShadow (s : State) (p j : Nat) (w : Word) : (s.setNatA p j w).widthShadow = s.widthShadow := rfl
@[simp] theorem State.setNatA_widthActive (s : State) (p j : Nat) (w : Word) : (s.setNatA p j w).widthActive = s.widthActive := rfl
@[simp] theorem State.setNatA_sine (s : State) (p j : Nat) (w : Word) : (s.setNatA p j w).sine = s.sine := rfl
@[simp] theorem State.setNatA_pvtTab (s : State) (p j : Nat) (w : Word) : (s.setNatA p j w).pvtTab = s.pvtTab := rfl
@[simp] theorem State.setNatA_eccCount (s : State) (p j : Nat) (w : Word) : (s.setNatA p j w).eccCount = s.eccCount := rfl
@[simp] theorem State.setNatA_mem (s : State) (p j : Nat) (w : Word) : (s.setNatA p j w).mem = s.mem := rfl
@[simp] theorem State.setNatA_memCfg (s : State) (p j : Nat) (w : Word) : (s.setNatA p j w).memCfg = s.memCfg := rfl
@[simp] theorem State.setNatA_scrubAt (s : State) (p j : Nat) (w : Word) : (s.setNatA p j w).scrubAt = s.scrubAt := rfl
@[simp] theorem State.setNatA_scrubbed (s : State) (p j : Nat) (w : Word) : (s.setNatA p j w).scrubbed = s.scrubbed := rfl
@[simp] theorem State.setNatA_chans (s : State) (p j : Nat) (w : Word) : (s.setNatA p j w).chans = s.chans := rfl
@[simp] theorem State.setNatA_axes (s : State) (p j : Nat) (w : Word) : (s.setNatA p j w).axes = s.axes := rfl
@[simp] theorem State.setNatA_mgroups (s : State) (p j : Nat) (w : Word) : (s.setNatA p j w).mgroups = s.mgroups := rfl
@[simp] theorem State.setNatA_msets (s : State) (p j : Nat) (w : Word) : (s.setNatA p j w).msets = s.msets := rfl
@[simp] theorem State.setNatA_jchans (s : State) (p j : Nat) (w : Word) : (s.setNatA p j w).jchans = s.jchans := rfl
@[simp] theorem State.setNatA_engines (s : State) (p j : Nat) (w : Word) : (s.setNatA p j w).engines = s.engines := rfl
@[simp] theorem State.setNatA_hal (s : State) (p j : Nat) (w : Word) : (s.setNatA p j w).hal = s.hal := rfl
@[simp] theorem State.setNatA_eths (s : State) (p j : Nat) (w : Word) : (s.setNatA p j w).eths = s.eths := rfl
@[simp] theorem State.setNatA_lnk (s : State) (p j : Nat) (w : Word) : (s.setNatA p j w).lnk = s.lnk := rfl
@[simp] theorem State.setNatA_pcie (s : State) (p j : Nat) (w : Word) : (s.setNatA p j w).pcie = s.pcie := rfl
@[simp] theorem State.setNatA_smp (s : State) (p j : Nat) (w : Word) : (s.setNatA p j w).smp = s.smp := rfl
@[simp] theorem State.setNatA_kps (s : State) (p j : Nat) (w : Word) : (s.setNatA p j w).kps = s.kps := rfl
@[simp] theorem State.setNatA_thm (s : State) (p j : Nat) (w : Word) : (s.setNatA p j w).thm = s.thm := rfl
@[simp] theorem State.setNatA_cals (s : State) (p j : Nat) (w : Word) : (s.setNatA p j w).cals = s.cals := rfl
@[simp] theorem State.setNatA_calTurn (s : State) (p j : Nat) (w : Word) : (s.setNatA p j w).calTurn = s.calTurn := rfl
@[simp] theorem State.setNatA_upd (s : State) (p j : Nat) (w : Word) : (s.setNatA p j w).upd = s.upd := rfl
@[simp] theorem State.setNatA_tap (s : State) (p j : Nat) (w : Word) : (s.setNatA p j w).tap = s.tap := rfl
@[simp] theorem State.setNatA_clocks (s : State) (p j : Nat) (w : Word) : (s.setNatA p j w).clocks = s.clocks := rfl
@[simp] theorem State.setNatA_ticks (s : State) (p j : Nat) (w : Word) : (s.setNatA p j w).ticks = s.ticks := rfl
@[simp] theorem State.setNatA_free (s : State) (p j : Nat) (w : Word) : (s.setNatA p j w).free = s.free := rfl
@[simp] theorem State.setNatA_pending (s : State) (p j : Nat) (w : Word) : (s.setNatA p j w).pending = s.pending := rfl

/-! ### setWidthS -/

@[simp] theorem State.setWidthS_now (s : State) (p k : Nat) (w : Word) : (s.setWidthS p k w).now = s.now := rfl
@[simp] theorem State.setWidthS_porst (s : State) (p k : Nat) (w : Word) : (s.setWidthS p k w).porst = s.porst := rfl
@[simp] theorem State.setWidthS_ul24 (s : State) (p k : Nat) (w : Word) : (s.setWidthS p k w).ul24 = s.ul24 := rfl
@[simp] theorem State.setWidthS_ftmStrap (s : State) (p k : Nat) (w : Word) : (s.setWidthS p k w).ftmStrap = s.ftmStrap := rfl
@[simp] theorem State.setWidthS_ftm (s : State) (p k : Nat) (w : Word) : (s.setWidthS p k w).ftm = s.ftm := rfl
@[simp] theorem State.setWidthS_devOp (s : State) (p k : Nat) (w : Word) : (s.setWidthS p k w).devOp = s.devOp := rfl
@[simp] theorem State.setWidthS_devOpBack (s : State) (p k : Nat) (w : Word) : (s.setWidthS p k w).devOpBack = s.devOpBack := rfl
@[simp] theorem State.setWidthS_bootFrom (s : State) (p k : Nat) (w : Word) : (s.setWidthS p k w).bootFrom = s.bootFrom := rfl
@[simp] theorem State.setWidthS_relAt (s : State) (p k : Nat) (w : Word) : (s.setWidthS p k w).relAt = s.relAt := rfl
@[simp] theorem State.setWidthS_sillAt (s : State) (p k : Nat) (w : Word) : (s.setWidthS p k w).sillAt = s.sillAt := rfl
@[simp] theorem State.setWidthS_kpsAt (s : State) (p k : Nat) (w : Word) : (s.setWidthS p k w).kpsAt = s.kpsAt := rfl
@[simp] theorem State.setWidthS_powerAt (s : State) (p k : Nat) (w : Word) : (s.setWidthS p k w).powerAt = s.powerAt := rfl
@[simp] theorem State.setWidthS_islandsAt (s : State) (p k : Nat) (w : Word) : (s.setWidthS p k w).islandsAt = s.islandsAt := rfl
@[simp] theorem State.setWidthS_appliesRecords (s : State) (p k : Nat) (w : Word) : (s.setWidthS p k w).appliesRecords = s.appliesRecords := rfl
@[simp] theorem State.setWidthS_regs (s : State) (p k : Nat) (w : Word) : (s.setWidthS p k w).regs = s.regs := rfl
@[simp] theorem State.setWidthS_active (s : State) (p k : Nat) (w : Word) : (s.setWidthS p k w).active = s.active := rfl
@[simp] theorem State.setWidthS_heldLow (s : State) (p k : Nat) (w : Word) : (s.setWidthS p k w).heldLow = s.heldLow := rfl
@[simp] theorem State.setWidthS_captures (s : State) (p k : Nat) (w : Word) : (s.setWidthS p k w).captures = s.captures := rfl
@[simp] theorem State.setWidthS_lastRead (s : State) (p k : Nat) (w : Word) : (s.setWidthS p k w).lastRead = s.lastRead := rfl
@[simp] theorem State.setWidthS_bar2Data (s : State) (p k : Nat) (w : Word) : (s.setWidthS p k w).bar2Data = s.bar2Data := rfl
@[simp] theorem State.setWidthS_waking (s : State) (p k : Nat) (w : Word) : (s.setWidthS p k w).waking = s.waking := rfl
@[simp] theorem State.setWidthS_stopPending (s : State) (p k : Nat) (w : Word) : (s.setWidthS p k w).stopPending = s.stopPending := rfl
@[simp] theorem State.setWidthS_ports (s : State) (p k : Nat) (w : Word) : (s.setWidthS p k w).ports = s.ports := rfl
@[simp] theorem State.setWidthS_rings (s : State) (p k : Nat) (w : Word) : (s.setWidthS p k w).rings = s.rings := rfl
@[simp] theorem State.setWidthS_band (s : State) (p k : Nat) (w : Word) : (s.setWidthS p k w).band = s.band := rfl
@[simp] theorem State.setWidthS_spool (s : State) (p k : Nat) (w : Word) : (s.setWidthS p k w).spool = s.spool := rfl
@[simp] theorem State.setWidthS_masks (s : State) (p k : Nat) (w : Word) : (s.setWidthS p k w).masks = s.masks := rfl
@[simp] theorem State.setWidthS_flash (s : State) (p k : Nat) (w : Word) : (s.setWidthS p k w).flash = s.flash := rfl
@[simp] theorem State.setWidthS_natShadow (s : State) (p k : Nat) (w : Word) : (s.setWidthS p k w).natShadow = s.natShadow := rfl
@[simp] theorem State.setWidthS_natActive (s : State) (p k : Nat) (w : Word) : (s.setWidthS p k w).natActive = s.natActive := rfl
@[simp] theorem State.setWidthS_widthActive (s : State) (p k : Nat) (w : Word) : (s.setWidthS p k w).widthActive = s.widthActive := rfl
@[simp] theorem State.setWidthS_sine (s : State) (p k : Nat) (w : Word) : (s.setWidthS p k w).sine = s.sine := rfl
@[simp] theorem State.setWidthS_pvtTab (s : State) (p k : Nat) (w : Word) : (s.setWidthS p k w).pvtTab = s.pvtTab := rfl
@[simp] theorem State.setWidthS_eccCount (s : State) (p k : Nat) (w : Word) : (s.setWidthS p k w).eccCount = s.eccCount := rfl
@[simp] theorem State.setWidthS_mem (s : State) (p k : Nat) (w : Word) : (s.setWidthS p k w).mem = s.mem := rfl
@[simp] theorem State.setWidthS_memCfg (s : State) (p k : Nat) (w : Word) : (s.setWidthS p k w).memCfg = s.memCfg := rfl
@[simp] theorem State.setWidthS_scrubAt (s : State) (p k : Nat) (w : Word) : (s.setWidthS p k w).scrubAt = s.scrubAt := rfl
@[simp] theorem State.setWidthS_scrubbed (s : State) (p k : Nat) (w : Word) : (s.setWidthS p k w).scrubbed = s.scrubbed := rfl
@[simp] theorem State.setWidthS_chans (s : State) (p k : Nat) (w : Word) : (s.setWidthS p k w).chans = s.chans := rfl
@[simp] theorem State.setWidthS_axes (s : State) (p k : Nat) (w : Word) : (s.setWidthS p k w).axes = s.axes := rfl
@[simp] theorem State.setWidthS_mgroups (s : State) (p k : Nat) (w : Word) : (s.setWidthS p k w).mgroups = s.mgroups := rfl
@[simp] theorem State.setWidthS_msets (s : State) (p k : Nat) (w : Word) : (s.setWidthS p k w).msets = s.msets := rfl
@[simp] theorem State.setWidthS_jchans (s : State) (p k : Nat) (w : Word) : (s.setWidthS p k w).jchans = s.jchans := rfl
@[simp] theorem State.setWidthS_engines (s : State) (p k : Nat) (w : Word) : (s.setWidthS p k w).engines = s.engines := rfl
@[simp] theorem State.setWidthS_hal (s : State) (p k : Nat) (w : Word) : (s.setWidthS p k w).hal = s.hal := rfl
@[simp] theorem State.setWidthS_eths (s : State) (p k : Nat) (w : Word) : (s.setWidthS p k w).eths = s.eths := rfl
@[simp] theorem State.setWidthS_lnk (s : State) (p k : Nat) (w : Word) : (s.setWidthS p k w).lnk = s.lnk := rfl
@[simp] theorem State.setWidthS_pcie (s : State) (p k : Nat) (w : Word) : (s.setWidthS p k w).pcie = s.pcie := rfl
@[simp] theorem State.setWidthS_smp (s : State) (p k : Nat) (w : Word) : (s.setWidthS p k w).smp = s.smp := rfl
@[simp] theorem State.setWidthS_kps (s : State) (p k : Nat) (w : Word) : (s.setWidthS p k w).kps = s.kps := rfl
@[simp] theorem State.setWidthS_thm (s : State) (p k : Nat) (w : Word) : (s.setWidthS p k w).thm = s.thm := rfl
@[simp] theorem State.setWidthS_cals (s : State) (p k : Nat) (w : Word) : (s.setWidthS p k w).cals = s.cals := rfl
@[simp] theorem State.setWidthS_calTurn (s : State) (p k : Nat) (w : Word) : (s.setWidthS p k w).calTurn = s.calTurn := rfl
@[simp] theorem State.setWidthS_upd (s : State) (p k : Nat) (w : Word) : (s.setWidthS p k w).upd = s.upd := rfl
@[simp] theorem State.setWidthS_tap (s : State) (p k : Nat) (w : Word) : (s.setWidthS p k w).tap = s.tap := rfl
@[simp] theorem State.setWidthS_clocks (s : State) (p k : Nat) (w : Word) : (s.setWidthS p k w).clocks = s.clocks := rfl
@[simp] theorem State.setWidthS_ticks (s : State) (p k : Nat) (w : Word) : (s.setWidthS p k w).ticks = s.ticks := rfl
@[simp] theorem State.setWidthS_free (s : State) (p k : Nat) (w : Word) : (s.setWidthS p k w).free = s.free := rfl
@[simp] theorem State.setWidthS_pending (s : State) (p k : Nat) (w : Word) : (s.setWidthS p k w).pending = s.pending := rfl

/-! ### setWidthA -/

@[simp] theorem State.setWidthA_now (s : State) (p k : Nat) (w : Word) : (s.setWidthA p k w).now = s.now := rfl
@[simp] theorem State.setWidthA_porst (s : State) (p k : Nat) (w : Word) : (s.setWidthA p k w).porst = s.porst := rfl
@[simp] theorem State.setWidthA_ul24 (s : State) (p k : Nat) (w : Word) : (s.setWidthA p k w).ul24 = s.ul24 := rfl
@[simp] theorem State.setWidthA_ftmStrap (s : State) (p k : Nat) (w : Word) : (s.setWidthA p k w).ftmStrap = s.ftmStrap := rfl
@[simp] theorem State.setWidthA_ftm (s : State) (p k : Nat) (w : Word) : (s.setWidthA p k w).ftm = s.ftm := rfl
@[simp] theorem State.setWidthA_devOp (s : State) (p k : Nat) (w : Word) : (s.setWidthA p k w).devOp = s.devOp := rfl
@[simp] theorem State.setWidthA_devOpBack (s : State) (p k : Nat) (w : Word) : (s.setWidthA p k w).devOpBack = s.devOpBack := rfl
@[simp] theorem State.setWidthA_bootFrom (s : State) (p k : Nat) (w : Word) : (s.setWidthA p k w).bootFrom = s.bootFrom := rfl
@[simp] theorem State.setWidthA_relAt (s : State) (p k : Nat) (w : Word) : (s.setWidthA p k w).relAt = s.relAt := rfl
@[simp] theorem State.setWidthA_sillAt (s : State) (p k : Nat) (w : Word) : (s.setWidthA p k w).sillAt = s.sillAt := rfl
@[simp] theorem State.setWidthA_kpsAt (s : State) (p k : Nat) (w : Word) : (s.setWidthA p k w).kpsAt = s.kpsAt := rfl
@[simp] theorem State.setWidthA_powerAt (s : State) (p k : Nat) (w : Word) : (s.setWidthA p k w).powerAt = s.powerAt := rfl
@[simp] theorem State.setWidthA_islandsAt (s : State) (p k : Nat) (w : Word) : (s.setWidthA p k w).islandsAt = s.islandsAt := rfl
@[simp] theorem State.setWidthA_appliesRecords (s : State) (p k : Nat) (w : Word) : (s.setWidthA p k w).appliesRecords = s.appliesRecords := rfl
@[simp] theorem State.setWidthA_regs (s : State) (p k : Nat) (w : Word) : (s.setWidthA p k w).regs = s.regs := rfl
@[simp] theorem State.setWidthA_active (s : State) (p k : Nat) (w : Word) : (s.setWidthA p k w).active = s.active := rfl
@[simp] theorem State.setWidthA_heldLow (s : State) (p k : Nat) (w : Word) : (s.setWidthA p k w).heldLow = s.heldLow := rfl
@[simp] theorem State.setWidthA_captures (s : State) (p k : Nat) (w : Word) : (s.setWidthA p k w).captures = s.captures := rfl
@[simp] theorem State.setWidthA_lastRead (s : State) (p k : Nat) (w : Word) : (s.setWidthA p k w).lastRead = s.lastRead := rfl
@[simp] theorem State.setWidthA_bar2Data (s : State) (p k : Nat) (w : Word) : (s.setWidthA p k w).bar2Data = s.bar2Data := rfl
@[simp] theorem State.setWidthA_waking (s : State) (p k : Nat) (w : Word) : (s.setWidthA p k w).waking = s.waking := rfl
@[simp] theorem State.setWidthA_stopPending (s : State) (p k : Nat) (w : Word) : (s.setWidthA p k w).stopPending = s.stopPending := rfl
@[simp] theorem State.setWidthA_ports (s : State) (p k : Nat) (w : Word) : (s.setWidthA p k w).ports = s.ports := rfl
@[simp] theorem State.setWidthA_rings (s : State) (p k : Nat) (w : Word) : (s.setWidthA p k w).rings = s.rings := rfl
@[simp] theorem State.setWidthA_band (s : State) (p k : Nat) (w : Word) : (s.setWidthA p k w).band = s.band := rfl
@[simp] theorem State.setWidthA_spool (s : State) (p k : Nat) (w : Word) : (s.setWidthA p k w).spool = s.spool := rfl
@[simp] theorem State.setWidthA_masks (s : State) (p k : Nat) (w : Word) : (s.setWidthA p k w).masks = s.masks := rfl
@[simp] theorem State.setWidthA_flash (s : State) (p k : Nat) (w : Word) : (s.setWidthA p k w).flash = s.flash := rfl
@[simp] theorem State.setWidthA_natShadow (s : State) (p k : Nat) (w : Word) : (s.setWidthA p k w).natShadow = s.natShadow := rfl
@[simp] theorem State.setWidthA_natActive (s : State) (p k : Nat) (w : Word) : (s.setWidthA p k w).natActive = s.natActive := rfl
@[simp] theorem State.setWidthA_widthShadow (s : State) (p k : Nat) (w : Word) : (s.setWidthA p k w).widthShadow = s.widthShadow := rfl
@[simp] theorem State.setWidthA_sine (s : State) (p k : Nat) (w : Word) : (s.setWidthA p k w).sine = s.sine := rfl
@[simp] theorem State.setWidthA_pvtTab (s : State) (p k : Nat) (w : Word) : (s.setWidthA p k w).pvtTab = s.pvtTab := rfl
@[simp] theorem State.setWidthA_eccCount (s : State) (p k : Nat) (w : Word) : (s.setWidthA p k w).eccCount = s.eccCount := rfl
@[simp] theorem State.setWidthA_mem (s : State) (p k : Nat) (w : Word) : (s.setWidthA p k w).mem = s.mem := rfl
@[simp] theorem State.setWidthA_memCfg (s : State) (p k : Nat) (w : Word) : (s.setWidthA p k w).memCfg = s.memCfg := rfl
@[simp] theorem State.setWidthA_scrubAt (s : State) (p k : Nat) (w : Word) : (s.setWidthA p k w).scrubAt = s.scrubAt := rfl
@[simp] theorem State.setWidthA_scrubbed (s : State) (p k : Nat) (w : Word) : (s.setWidthA p k w).scrubbed = s.scrubbed := rfl
@[simp] theorem State.setWidthA_chans (s : State) (p k : Nat) (w : Word) : (s.setWidthA p k w).chans = s.chans := rfl
@[simp] theorem State.setWidthA_axes (s : State) (p k : Nat) (w : Word) : (s.setWidthA p k w).axes = s.axes := rfl
@[simp] theorem State.setWidthA_mgroups (s : State) (p k : Nat) (w : Word) : (s.setWidthA p k w).mgroups = s.mgroups := rfl
@[simp] theorem State.setWidthA_msets (s : State) (p k : Nat) (w : Word) : (s.setWidthA p k w).msets = s.msets := rfl
@[simp] theorem State.setWidthA_jchans (s : State) (p k : Nat) (w : Word) : (s.setWidthA p k w).jchans = s.jchans := rfl
@[simp] theorem State.setWidthA_engines (s : State) (p k : Nat) (w : Word) : (s.setWidthA p k w).engines = s.engines := rfl
@[simp] theorem State.setWidthA_hal (s : State) (p k : Nat) (w : Word) : (s.setWidthA p k w).hal = s.hal := rfl
@[simp] theorem State.setWidthA_eths (s : State) (p k : Nat) (w : Word) : (s.setWidthA p k w).eths = s.eths := rfl
@[simp] theorem State.setWidthA_lnk (s : State) (p k : Nat) (w : Word) : (s.setWidthA p k w).lnk = s.lnk := rfl
@[simp] theorem State.setWidthA_pcie (s : State) (p k : Nat) (w : Word) : (s.setWidthA p k w).pcie = s.pcie := rfl
@[simp] theorem State.setWidthA_smp (s : State) (p k : Nat) (w : Word) : (s.setWidthA p k w).smp = s.smp := rfl
@[simp] theorem State.setWidthA_kps (s : State) (p k : Nat) (w : Word) : (s.setWidthA p k w).kps = s.kps := rfl
@[simp] theorem State.setWidthA_thm (s : State) (p k : Nat) (w : Word) : (s.setWidthA p k w).thm = s.thm := rfl
@[simp] theorem State.setWidthA_cals (s : State) (p k : Nat) (w : Word) : (s.setWidthA p k w).cals = s.cals := rfl
@[simp] theorem State.setWidthA_calTurn (s : State) (p k : Nat) (w : Word) : (s.setWidthA p k w).calTurn = s.calTurn := rfl
@[simp] theorem State.setWidthA_upd (s : State) (p k : Nat) (w : Word) : (s.setWidthA p k w).upd = s.upd := rfl
@[simp] theorem State.setWidthA_tap (s : State) (p k : Nat) (w : Word) : (s.setWidthA p k w).tap = s.tap := rfl
@[simp] theorem State.setWidthA_clocks (s : State) (p k : Nat) (w : Word) : (s.setWidthA p k w).clocks = s.clocks := rfl
@[simp] theorem State.setWidthA_ticks (s : State) (p k : Nat) (w : Word) : (s.setWidthA p k w).ticks = s.ticks := rfl
@[simp] theorem State.setWidthA_free (s : State) (p k : Nat) (w : Word) : (s.setWidthA p k w).free = s.free := rfl
@[simp] theorem State.setWidthA_pending (s : State) (p k : Nat) (w : Word) : (s.setWidthA p k w).pending = s.pending := rfl

/-! ### setResult -/

@[simp] theorem State.setResult_now (s : State) (p : Page) (i r : Nat) : (s.setResult p i r).now = s.now := rfl
@[simp] theorem State.setResult_porst (s : State) (p : Page) (i r : Nat) : (s.setResult p i r).porst = s.porst := rfl
@[simp] theorem State.setResult_ul24 (s : State) (p : Page) (i r : Nat) : (s.setResult p i r).ul24 = s.ul24 := rfl
@[simp] theorem State.setResult_ftmStrap (s : State) (p : Page) (i r : Nat) : (s.setResult p i r).ftmStrap = s.ftmStrap := rfl
@[simp] theorem State.setResult_ftm (s : State) (p : Page) (i r : Nat) : (s.setResult p i r).ftm = s.ftm := rfl
@[simp] theorem State.setResult_devOp (s : State) (p : Page) (i r : Nat) : (s.setResult p i r).devOp = s.devOp := rfl
@[simp] theorem State.setResult_devOpBack (s : State) (p : Page) (i r : Nat) : (s.setResult p i r).devOpBack = s.devOpBack := rfl
@[simp] theorem State.setResult_bootFrom (s : State) (p : Page) (i r : Nat) : (s.setResult p i r).bootFrom = s.bootFrom := rfl
@[simp] theorem State.setResult_relAt (s : State) (p : Page) (i r : Nat) : (s.setResult p i r).relAt = s.relAt := rfl
@[simp] theorem State.setResult_sillAt (s : State) (p : Page) (i r : Nat) : (s.setResult p i r).sillAt = s.sillAt := rfl
@[simp] theorem State.setResult_kpsAt (s : State) (p : Page) (i r : Nat) : (s.setResult p i r).kpsAt = s.kpsAt := rfl
@[simp] theorem State.setResult_powerAt (s : State) (p : Page) (i r : Nat) : (s.setResult p i r).powerAt = s.powerAt := rfl
@[simp] theorem State.setResult_islandsAt (s : State) (p : Page) (i r : Nat) : (s.setResult p i r).islandsAt = s.islandsAt := rfl
@[simp] theorem State.setResult_appliesRecords (s : State) (p : Page) (i r : Nat) : (s.setResult p i r).appliesRecords = s.appliesRecords := rfl
@[simp] theorem State.setResult_active (s : State) (p : Page) (i r : Nat) : (s.setResult p i r).active = s.active := rfl
@[simp] theorem State.setResult_heldLow (s : State) (p : Page) (i r : Nat) : (s.setResult p i r).heldLow = s.heldLow := rfl
@[simp] theorem State.setResult_captures (s : State) (p : Page) (i r : Nat) : (s.setResult p i r).captures = s.captures := rfl
@[simp] theorem State.setResult_lastRead (s : State) (p : Page) (i r : Nat) : (s.setResult p i r).lastRead = s.lastRead := rfl
@[simp] theorem State.setResult_bar2Data (s : State) (p : Page) (i r : Nat) : (s.setResult p i r).bar2Data = s.bar2Data := rfl
@[simp] theorem State.setResult_waking (s : State) (p : Page) (i r : Nat) : (s.setResult p i r).waking = s.waking := rfl
@[simp] theorem State.setResult_stopPending (s : State) (p : Page) (i r : Nat) : (s.setResult p i r).stopPending = s.stopPending := rfl
@[simp] theorem State.setResult_ports (s : State) (p : Page) (i r : Nat) : (s.setResult p i r).ports = s.ports := rfl
@[simp] theorem State.setResult_rings (s : State) (p : Page) (i r : Nat) : (s.setResult p i r).rings = s.rings := rfl
@[simp] theorem State.setResult_band (s : State) (p : Page) (i r : Nat) : (s.setResult p i r).band = s.band := rfl
@[simp] theorem State.setResult_spool (s : State) (p : Page) (i r : Nat) : (s.setResult p i r).spool = s.spool := rfl
@[simp] theorem State.setResult_masks (s : State) (p : Page) (i r : Nat) : (s.setResult p i r).masks = s.masks := rfl
@[simp] theorem State.setResult_flash (s : State) (p : Page) (i r : Nat) : (s.setResult p i r).flash = s.flash := rfl
@[simp] theorem State.setResult_natShadow (s : State) (p : Page) (i r : Nat) : (s.setResult p i r).natShadow = s.natShadow := rfl
@[simp] theorem State.setResult_natActive (s : State) (p : Page) (i r : Nat) : (s.setResult p i r).natActive = s.natActive := rfl
@[simp] theorem State.setResult_widthShadow (s : State) (p : Page) (i r : Nat) : (s.setResult p i r).widthShadow = s.widthShadow := rfl
@[simp] theorem State.setResult_widthActive (s : State) (p : Page) (i r : Nat) : (s.setResult p i r).widthActive = s.widthActive := rfl
@[simp] theorem State.setResult_sine (s : State) (p : Page) (i r : Nat) : (s.setResult p i r).sine = s.sine := rfl
@[simp] theorem State.setResult_pvtTab (s : State) (p : Page) (i r : Nat) : (s.setResult p i r).pvtTab = s.pvtTab := rfl
@[simp] theorem State.setResult_ue (s : State) (p : Page) (i r : Nat) : (s.setResult p i r).ue = s.ue := rfl
@[simp] theorem State.setResult_ce (s : State) (p : Page) (i r : Nat) : (s.setResult p i r).ce = s.ce := rfl
@[simp] theorem State.setResult_eccCount (s : State) (p : Page) (i r : Nat) : (s.setResult p i r).eccCount = s.eccCount := rfl
@[simp] theorem State.setResult_mem (s : State) (p : Page) (i r : Nat) : (s.setResult p i r).mem = s.mem := rfl
@[simp] theorem State.setResult_memCfg (s : State) (p : Page) (i r : Nat) : (s.setResult p i r).memCfg = s.memCfg := rfl
@[simp] theorem State.setResult_scrubAt (s : State) (p : Page) (i r : Nat) : (s.setResult p i r).scrubAt = s.scrubAt := rfl
@[simp] theorem State.setResult_scrubbed (s : State) (p : Page) (i r : Nat) : (s.setResult p i r).scrubbed = s.scrubbed := rfl
@[simp] theorem State.setResult_chans (s : State) (p : Page) (i r : Nat) : (s.setResult p i r).chans = s.chans := rfl
@[simp] theorem State.setResult_axes (s : State) (p : Page) (i r : Nat) : (s.setResult p i r).axes = s.axes := rfl
@[simp] theorem State.setResult_mgroups (s : State) (p : Page) (i r : Nat) : (s.setResult p i r).mgroups = s.mgroups := rfl
@[simp] theorem State.setResult_msets (s : State) (p : Page) (i r : Nat) : (s.setResult p i r).msets = s.msets := rfl
@[simp] theorem State.setResult_jchans (s : State) (p : Page) (i r : Nat) : (s.setResult p i r).jchans = s.jchans := rfl
@[simp] theorem State.setResult_engines (s : State) (p : Page) (i r : Nat) : (s.setResult p i r).engines = s.engines := rfl
@[simp] theorem State.setResult_hal (s : State) (p : Page) (i r : Nat) : (s.setResult p i r).hal = s.hal := rfl
@[simp] theorem State.setResult_eths (s : State) (p : Page) (i r : Nat) : (s.setResult p i r).eths = s.eths := rfl
@[simp] theorem State.setResult_lnk (s : State) (p : Page) (i r : Nat) : (s.setResult p i r).lnk = s.lnk := rfl
@[simp] theorem State.setResult_pcie (s : State) (p : Page) (i r : Nat) : (s.setResult p i r).pcie = s.pcie := rfl
@[simp] theorem State.setResult_smp (s : State) (p : Page) (i r : Nat) : (s.setResult p i r).smp = s.smp := rfl
@[simp] theorem State.setResult_kps (s : State) (p : Page) (i r : Nat) : (s.setResult p i r).kps = s.kps := rfl
@[simp] theorem State.setResult_thm (s : State) (p : Page) (i r : Nat) : (s.setResult p i r).thm = s.thm := rfl
@[simp] theorem State.setResult_cals (s : State) (p : Page) (i r : Nat) : (s.setResult p i r).cals = s.cals := rfl
@[simp] theorem State.setResult_calTurn (s : State) (p : Page) (i r : Nat) : (s.setResult p i r).calTurn = s.calTurn := rfl
@[simp] theorem State.setResult_upd (s : State) (p : Page) (i r : Nat) : (s.setResult p i r).upd = s.upd := rfl
@[simp] theorem State.setResult_tap (s : State) (p : Page) (i r : Nat) : (s.setResult p i r).tap = s.tap := rfl
@[simp] theorem State.setResult_clocks (s : State) (p : Page) (i r : Nat) : (s.setResult p i r).clocks = s.clocks := rfl
@[simp] theorem State.setResult_ticks (s : State) (p : Page) (i r : Nat) : (s.setResult p i r).ticks = s.ticks := rfl
@[simp] theorem State.setResult_free (s : State) (p : Page) (i r : Nat) : (s.setResult p i r).free = s.free := rfl
@[simp] theorem State.setResult_pending (s : State) (p : Page) (i r : Nat) : (s.setResult p i r).pending = s.pending := rfl

/-! ### countCmd -/

@[simp] theorem State.countCmd_now (s : State) (p : Page) (i c : Nat) : (s.countCmd p i c).now = s.now := rfl
@[simp] theorem State.countCmd_porst (s : State) (p : Page) (i c : Nat) : (s.countCmd p i c).porst = s.porst := rfl
@[simp] theorem State.countCmd_ul24 (s : State) (p : Page) (i c : Nat) : (s.countCmd p i c).ul24 = s.ul24 := rfl
@[simp] theorem State.countCmd_ftmStrap (s : State) (p : Page) (i c : Nat) : (s.countCmd p i c).ftmStrap = s.ftmStrap := rfl
@[simp] theorem State.countCmd_ftm (s : State) (p : Page) (i c : Nat) : (s.countCmd p i c).ftm = s.ftm := rfl
@[simp] theorem State.countCmd_devOp (s : State) (p : Page) (i c : Nat) : (s.countCmd p i c).devOp = s.devOp := rfl
@[simp] theorem State.countCmd_devOpBack (s : State) (p : Page) (i c : Nat) : (s.countCmd p i c).devOpBack = s.devOpBack := rfl
@[simp] theorem State.countCmd_bootFrom (s : State) (p : Page) (i c : Nat) : (s.countCmd p i c).bootFrom = s.bootFrom := rfl
@[simp] theorem State.countCmd_relAt (s : State) (p : Page) (i c : Nat) : (s.countCmd p i c).relAt = s.relAt := rfl
@[simp] theorem State.countCmd_sillAt (s : State) (p : Page) (i c : Nat) : (s.countCmd p i c).sillAt = s.sillAt := rfl
@[simp] theorem State.countCmd_kpsAt (s : State) (p : Page) (i c : Nat) : (s.countCmd p i c).kpsAt = s.kpsAt := rfl
@[simp] theorem State.countCmd_powerAt (s : State) (p : Page) (i c : Nat) : (s.countCmd p i c).powerAt = s.powerAt := rfl
@[simp] theorem State.countCmd_islandsAt (s : State) (p : Page) (i c : Nat) : (s.countCmd p i c).islandsAt = s.islandsAt := rfl
@[simp] theorem State.countCmd_appliesRecords (s : State) (p : Page) (i c : Nat) : (s.countCmd p i c).appliesRecords = s.appliesRecords := rfl
@[simp] theorem State.countCmd_active (s : State) (p : Page) (i c : Nat) : (s.countCmd p i c).active = s.active := rfl
@[simp] theorem State.countCmd_heldLow (s : State) (p : Page) (i c : Nat) : (s.countCmd p i c).heldLow = s.heldLow := rfl
@[simp] theorem State.countCmd_captures (s : State) (p : Page) (i c : Nat) : (s.countCmd p i c).captures = s.captures := rfl
@[simp] theorem State.countCmd_lastRead (s : State) (p : Page) (i c : Nat) : (s.countCmd p i c).lastRead = s.lastRead := rfl
@[simp] theorem State.countCmd_bar2Data (s : State) (p : Page) (i c : Nat) : (s.countCmd p i c).bar2Data = s.bar2Data := rfl
@[simp] theorem State.countCmd_waking (s : State) (p : Page) (i c : Nat) : (s.countCmd p i c).waking = s.waking := rfl
@[simp] theorem State.countCmd_stopPending (s : State) (p : Page) (i c : Nat) : (s.countCmd p i c).stopPending = s.stopPending := rfl
@[simp] theorem State.countCmd_ports (s : State) (p : Page) (i c : Nat) : (s.countCmd p i c).ports = s.ports := rfl
@[simp] theorem State.countCmd_rings (s : State) (p : Page) (i c : Nat) : (s.countCmd p i c).rings = s.rings := rfl
@[simp] theorem State.countCmd_band (s : State) (p : Page) (i c : Nat) : (s.countCmd p i c).band = s.band := rfl
@[simp] theorem State.countCmd_spool (s : State) (p : Page) (i c : Nat) : (s.countCmd p i c).spool = s.spool := rfl
@[simp] theorem State.countCmd_masks (s : State) (p : Page) (i c : Nat) : (s.countCmd p i c).masks = s.masks := rfl
@[simp] theorem State.countCmd_flash (s : State) (p : Page) (i c : Nat) : (s.countCmd p i c).flash = s.flash := rfl
@[simp] theorem State.countCmd_natShadow (s : State) (p : Page) (i c : Nat) : (s.countCmd p i c).natShadow = s.natShadow := rfl
@[simp] theorem State.countCmd_natActive (s : State) (p : Page) (i c : Nat) : (s.countCmd p i c).natActive = s.natActive := rfl
@[simp] theorem State.countCmd_widthShadow (s : State) (p : Page) (i c : Nat) : (s.countCmd p i c).widthShadow = s.widthShadow := rfl
@[simp] theorem State.countCmd_widthActive (s : State) (p : Page) (i c : Nat) : (s.countCmd p i c).widthActive = s.widthActive := rfl
@[simp] theorem State.countCmd_sine (s : State) (p : Page) (i c : Nat) : (s.countCmd p i c).sine = s.sine := rfl
@[simp] theorem State.countCmd_pvtTab (s : State) (p : Page) (i c : Nat) : (s.countCmd p i c).pvtTab = s.pvtTab := rfl
@[simp] theorem State.countCmd_ue (s : State) (p : Page) (i c : Nat) : (s.countCmd p i c).ue = s.ue := rfl
@[simp] theorem State.countCmd_ce (s : State) (p : Page) (i c : Nat) : (s.countCmd p i c).ce = s.ce := rfl
@[simp] theorem State.countCmd_eccCount (s : State) (p : Page) (i c : Nat) : (s.countCmd p i c).eccCount = s.eccCount := rfl
@[simp] theorem State.countCmd_mem (s : State) (p : Page) (i c : Nat) : (s.countCmd p i c).mem = s.mem := rfl
@[simp] theorem State.countCmd_memCfg (s : State) (p : Page) (i c : Nat) : (s.countCmd p i c).memCfg = s.memCfg := rfl
@[simp] theorem State.countCmd_scrubAt (s : State) (p : Page) (i c : Nat) : (s.countCmd p i c).scrubAt = s.scrubAt := rfl
@[simp] theorem State.countCmd_scrubbed (s : State) (p : Page) (i c : Nat) : (s.countCmd p i c).scrubbed = s.scrubbed := rfl
@[simp] theorem State.countCmd_chans (s : State) (p : Page) (i c : Nat) : (s.countCmd p i c).chans = s.chans := rfl
@[simp] theorem State.countCmd_axes (s : State) (p : Page) (i c : Nat) : (s.countCmd p i c).axes = s.axes := rfl
@[simp] theorem State.countCmd_mgroups (s : State) (p : Page) (i c : Nat) : (s.countCmd p i c).mgroups = s.mgroups := rfl
@[simp] theorem State.countCmd_msets (s : State) (p : Page) (i c : Nat) : (s.countCmd p i c).msets = s.msets := rfl
@[simp] theorem State.countCmd_jchans (s : State) (p : Page) (i c : Nat) : (s.countCmd p i c).jchans = s.jchans := rfl
@[simp] theorem State.countCmd_engines (s : State) (p : Page) (i c : Nat) : (s.countCmd p i c).engines = s.engines := rfl
@[simp] theorem State.countCmd_hal (s : State) (p : Page) (i c : Nat) : (s.countCmd p i c).hal = s.hal := rfl
@[simp] theorem State.countCmd_eths (s : State) (p : Page) (i c : Nat) : (s.countCmd p i c).eths = s.eths := rfl
@[simp] theorem State.countCmd_lnk (s : State) (p : Page) (i c : Nat) : (s.countCmd p i c).lnk = s.lnk := rfl
@[simp] theorem State.countCmd_pcie (s : State) (p : Page) (i c : Nat) : (s.countCmd p i c).pcie = s.pcie := rfl
@[simp] theorem State.countCmd_smp (s : State) (p : Page) (i c : Nat) : (s.countCmd p i c).smp = s.smp := rfl
@[simp] theorem State.countCmd_kps (s : State) (p : Page) (i c : Nat) : (s.countCmd p i c).kps = s.kps := rfl
@[simp] theorem State.countCmd_thm (s : State) (p : Page) (i c : Nat) : (s.countCmd p i c).thm = s.thm := rfl
@[simp] theorem State.countCmd_cals (s : State) (p : Page) (i c : Nat) : (s.countCmd p i c).cals = s.cals := rfl
@[simp] theorem State.countCmd_calTurn (s : State) (p : Page) (i c : Nat) : (s.countCmd p i c).calTurn = s.calTurn := rfl
@[simp] theorem State.countCmd_upd (s : State) (p : Page) (i c : Nat) : (s.countCmd p i c).upd = s.upd := rfl
@[simp] theorem State.countCmd_tap (s : State) (p : Page) (i c : Nat) : (s.countCmd p i c).tap = s.tap := rfl
@[simp] theorem State.countCmd_clocks (s : State) (p : Page) (i c : Nat) : (s.countCmd p i c).clocks = s.clocks := rfl
@[simp] theorem State.countCmd_ticks (s : State) (p : Page) (i c : Nat) : (s.countCmd p i c).ticks = s.ticks := rfl
@[simp] theorem State.countCmd_free (s : State) (p : Page) (i c : Nat) : (s.countCmd p i c).free = s.free := rfl
@[simp] theorem State.countCmd_pending (s : State) (p : Page) (i c : Nat) : (s.countCmd p i c).pending = s.pending := rfl

/-! ### setExec -/

@[simp] theorem State.setExec_now (s : State) (p : Page) (i : Nat) (on : Bool) : (s.setExec p i on).now = s.now := rfl
@[simp] theorem State.setExec_porst (s : State) (p : Page) (i : Nat) (on : Bool) : (s.setExec p i on).porst = s.porst := rfl
@[simp] theorem State.setExec_ul24 (s : State) (p : Page) (i : Nat) (on : Bool) : (s.setExec p i on).ul24 = s.ul24 := rfl
@[simp] theorem State.setExec_ftmStrap (s : State) (p : Page) (i : Nat) (on : Bool) : (s.setExec p i on).ftmStrap = s.ftmStrap := rfl
@[simp] theorem State.setExec_ftm (s : State) (p : Page) (i : Nat) (on : Bool) : (s.setExec p i on).ftm = s.ftm := rfl
@[simp] theorem State.setExec_devOp (s : State) (p : Page) (i : Nat) (on : Bool) : (s.setExec p i on).devOp = s.devOp := rfl
@[simp] theorem State.setExec_devOpBack (s : State) (p : Page) (i : Nat) (on : Bool) : (s.setExec p i on).devOpBack = s.devOpBack := rfl
@[simp] theorem State.setExec_bootFrom (s : State) (p : Page) (i : Nat) (on : Bool) : (s.setExec p i on).bootFrom = s.bootFrom := rfl
@[simp] theorem State.setExec_relAt (s : State) (p : Page) (i : Nat) (on : Bool) : (s.setExec p i on).relAt = s.relAt := rfl
@[simp] theorem State.setExec_sillAt (s : State) (p : Page) (i : Nat) (on : Bool) : (s.setExec p i on).sillAt = s.sillAt := rfl
@[simp] theorem State.setExec_kpsAt (s : State) (p : Page) (i : Nat) (on : Bool) : (s.setExec p i on).kpsAt = s.kpsAt := rfl
@[simp] theorem State.setExec_powerAt (s : State) (p : Page) (i : Nat) (on : Bool) : (s.setExec p i on).powerAt = s.powerAt := rfl
@[simp] theorem State.setExec_islandsAt (s : State) (p : Page) (i : Nat) (on : Bool) : (s.setExec p i on).islandsAt = s.islandsAt := rfl
@[simp] theorem State.setExec_appliesRecords (s : State) (p : Page) (i : Nat) (on : Bool) : (s.setExec p i on).appliesRecords = s.appliesRecords := rfl
@[simp] theorem State.setExec_active (s : State) (p : Page) (i : Nat) (on : Bool) : (s.setExec p i on).active = s.active := rfl
@[simp] theorem State.setExec_heldLow (s : State) (p : Page) (i : Nat) (on : Bool) : (s.setExec p i on).heldLow = s.heldLow := rfl
@[simp] theorem State.setExec_captures (s : State) (p : Page) (i : Nat) (on : Bool) : (s.setExec p i on).captures = s.captures := rfl
@[simp] theorem State.setExec_lastRead (s : State) (p : Page) (i : Nat) (on : Bool) : (s.setExec p i on).lastRead = s.lastRead := rfl
@[simp] theorem State.setExec_bar2Data (s : State) (p : Page) (i : Nat) (on : Bool) : (s.setExec p i on).bar2Data = s.bar2Data := rfl
@[simp] theorem State.setExec_waking (s : State) (p : Page) (i : Nat) (on : Bool) : (s.setExec p i on).waking = s.waking := rfl
@[simp] theorem State.setExec_stopPending (s : State) (p : Page) (i : Nat) (on : Bool) : (s.setExec p i on).stopPending = s.stopPending := rfl
@[simp] theorem State.setExec_ports (s : State) (p : Page) (i : Nat) (on : Bool) : (s.setExec p i on).ports = s.ports := rfl
@[simp] theorem State.setExec_rings (s : State) (p : Page) (i : Nat) (on : Bool) : (s.setExec p i on).rings = s.rings := rfl
@[simp] theorem State.setExec_band (s : State) (p : Page) (i : Nat) (on : Bool) : (s.setExec p i on).band = s.band := rfl
@[simp] theorem State.setExec_spool (s : State) (p : Page) (i : Nat) (on : Bool) : (s.setExec p i on).spool = s.spool := rfl
@[simp] theorem State.setExec_masks (s : State) (p : Page) (i : Nat) (on : Bool) : (s.setExec p i on).masks = s.masks := rfl
@[simp] theorem State.setExec_flash (s : State) (p : Page) (i : Nat) (on : Bool) : (s.setExec p i on).flash = s.flash := rfl
@[simp] theorem State.setExec_natShadow (s : State) (p : Page) (i : Nat) (on : Bool) : (s.setExec p i on).natShadow = s.natShadow := rfl
@[simp] theorem State.setExec_natActive (s : State) (p : Page) (i : Nat) (on : Bool) : (s.setExec p i on).natActive = s.natActive := rfl
@[simp] theorem State.setExec_widthShadow (s : State) (p : Page) (i : Nat) (on : Bool) : (s.setExec p i on).widthShadow = s.widthShadow := rfl
@[simp] theorem State.setExec_widthActive (s : State) (p : Page) (i : Nat) (on : Bool) : (s.setExec p i on).widthActive = s.widthActive := rfl
@[simp] theorem State.setExec_sine (s : State) (p : Page) (i : Nat) (on : Bool) : (s.setExec p i on).sine = s.sine := rfl
@[simp] theorem State.setExec_pvtTab (s : State) (p : Page) (i : Nat) (on : Bool) : (s.setExec p i on).pvtTab = s.pvtTab := rfl
@[simp] theorem State.setExec_ue (s : State) (p : Page) (i : Nat) (on : Bool) : (s.setExec p i on).ue = s.ue := rfl
@[simp] theorem State.setExec_ce (s : State) (p : Page) (i : Nat) (on : Bool) : (s.setExec p i on).ce = s.ce := rfl
@[simp] theorem State.setExec_eccCount (s : State) (p : Page) (i : Nat) (on : Bool) : (s.setExec p i on).eccCount = s.eccCount := rfl
@[simp] theorem State.setExec_mem (s : State) (p : Page) (i : Nat) (on : Bool) : (s.setExec p i on).mem = s.mem := rfl
@[simp] theorem State.setExec_memCfg (s : State) (p : Page) (i : Nat) (on : Bool) : (s.setExec p i on).memCfg = s.memCfg := rfl
@[simp] theorem State.setExec_scrubAt (s : State) (p : Page) (i : Nat) (on : Bool) : (s.setExec p i on).scrubAt = s.scrubAt := rfl
@[simp] theorem State.setExec_scrubbed (s : State) (p : Page) (i : Nat) (on : Bool) : (s.setExec p i on).scrubbed = s.scrubbed := rfl
@[simp] theorem State.setExec_chans (s : State) (p : Page) (i : Nat) (on : Bool) : (s.setExec p i on).chans = s.chans := rfl
@[simp] theorem State.setExec_axes (s : State) (p : Page) (i : Nat) (on : Bool) : (s.setExec p i on).axes = s.axes := rfl
@[simp] theorem State.setExec_mgroups (s : State) (p : Page) (i : Nat) (on : Bool) : (s.setExec p i on).mgroups = s.mgroups := rfl
@[simp] theorem State.setExec_msets (s : State) (p : Page) (i : Nat) (on : Bool) : (s.setExec p i on).msets = s.msets := rfl
@[simp] theorem State.setExec_jchans (s : State) (p : Page) (i : Nat) (on : Bool) : (s.setExec p i on).jchans = s.jchans := rfl
@[simp] theorem State.setExec_engines (s : State) (p : Page) (i : Nat) (on : Bool) : (s.setExec p i on).engines = s.engines := rfl
@[simp] theorem State.setExec_hal (s : State) (p : Page) (i : Nat) (on : Bool) : (s.setExec p i on).hal = s.hal := rfl
@[simp] theorem State.setExec_eths (s : State) (p : Page) (i : Nat) (on : Bool) : (s.setExec p i on).eths = s.eths := rfl
@[simp] theorem State.setExec_lnk (s : State) (p : Page) (i : Nat) (on : Bool) : (s.setExec p i on).lnk = s.lnk := rfl
@[simp] theorem State.setExec_pcie (s : State) (p : Page) (i : Nat) (on : Bool) : (s.setExec p i on).pcie = s.pcie := rfl
@[simp] theorem State.setExec_smp (s : State) (p : Page) (i : Nat) (on : Bool) : (s.setExec p i on).smp = s.smp := rfl
@[simp] theorem State.setExec_kps (s : State) (p : Page) (i : Nat) (on : Bool) : (s.setExec p i on).kps = s.kps := rfl
@[simp] theorem State.setExec_thm (s : State) (p : Page) (i : Nat) (on : Bool) : (s.setExec p i on).thm = s.thm := rfl
@[simp] theorem State.setExec_cals (s : State) (p : Page) (i : Nat) (on : Bool) : (s.setExec p i on).cals = s.cals := rfl
@[simp] theorem State.setExec_calTurn (s : State) (p : Page) (i : Nat) (on : Bool) : (s.setExec p i on).calTurn = s.calTurn := rfl
@[simp] theorem State.setExec_upd (s : State) (p : Page) (i : Nat) (on : Bool) : (s.setExec p i on).upd = s.upd := rfl
@[simp] theorem State.setExec_tap (s : State) (p : Page) (i : Nat) (on : Bool) : (s.setExec p i on).tap = s.tap := rfl
@[simp] theorem State.setExec_clocks (s : State) (p : Page) (i : Nat) (on : Bool) : (s.setExec p i on).clocks = s.clocks := rfl
@[simp] theorem State.setExec_ticks (s : State) (p : Page) (i : Nat) (on : Bool) : (s.setExec p i on).ticks = s.ticks := rfl
@[simp] theorem State.setExec_free (s : State) (p : Page) (i : Nat) (on : Bool) : (s.setExec p i on).free = s.free := rfl
@[simp] theorem State.setExec_pending (s : State) (p : Page) (i : Nat) (on : Bool) : (s.setExec p i on).pending = s.pending := rfl

/-! ### reject -/

@[simp] theorem State.reject_now (s : State) (p : Page) (i : Nat) : (s.reject p i).now = s.now := rfl
@[simp] theorem State.reject_porst (s : State) (p : Page) (i : Nat) : (s.reject p i).porst = s.porst := rfl
@[simp] theorem State.reject_ul24 (s : State) (p : Page) (i : Nat) : (s.reject p i).ul24 = s.ul24 := rfl
@[simp] theorem State.reject_ftmStrap (s : State) (p : Page) (i : Nat) : (s.reject p i).ftmStrap = s.ftmStrap := rfl
@[simp] theorem State.reject_ftm (s : State) (p : Page) (i : Nat) : (s.reject p i).ftm = s.ftm := rfl
@[simp] theorem State.reject_devOp (s : State) (p : Page) (i : Nat) : (s.reject p i).devOp = s.devOp := rfl
@[simp] theorem State.reject_devOpBack (s : State) (p : Page) (i : Nat) : (s.reject p i).devOpBack = s.devOpBack := rfl
@[simp] theorem State.reject_bootFrom (s : State) (p : Page) (i : Nat) : (s.reject p i).bootFrom = s.bootFrom := rfl
@[simp] theorem State.reject_relAt (s : State) (p : Page) (i : Nat) : (s.reject p i).relAt = s.relAt := rfl
@[simp] theorem State.reject_sillAt (s : State) (p : Page) (i : Nat) : (s.reject p i).sillAt = s.sillAt := rfl
@[simp] theorem State.reject_kpsAt (s : State) (p : Page) (i : Nat) : (s.reject p i).kpsAt = s.kpsAt := rfl
@[simp] theorem State.reject_powerAt (s : State) (p : Page) (i : Nat) : (s.reject p i).powerAt = s.powerAt := rfl
@[simp] theorem State.reject_islandsAt (s : State) (p : Page) (i : Nat) : (s.reject p i).islandsAt = s.islandsAt := rfl
@[simp] theorem State.reject_appliesRecords (s : State) (p : Page) (i : Nat) : (s.reject p i).appliesRecords = s.appliesRecords := rfl
@[simp] theorem State.reject_active (s : State) (p : Page) (i : Nat) : (s.reject p i).active = s.active := rfl
@[simp] theorem State.reject_heldLow (s : State) (p : Page) (i : Nat) : (s.reject p i).heldLow = s.heldLow := rfl
@[simp] theorem State.reject_captures (s : State) (p : Page) (i : Nat) : (s.reject p i).captures = s.captures := rfl
@[simp] theorem State.reject_lastRead (s : State) (p : Page) (i : Nat) : (s.reject p i).lastRead = s.lastRead := rfl
@[simp] theorem State.reject_bar2Data (s : State) (p : Page) (i : Nat) : (s.reject p i).bar2Data = s.bar2Data := rfl
@[simp] theorem State.reject_waking (s : State) (p : Page) (i : Nat) : (s.reject p i).waking = s.waking := rfl
@[simp] theorem State.reject_stopPending (s : State) (p : Page) (i : Nat) : (s.reject p i).stopPending = s.stopPending := rfl
@[simp] theorem State.reject_ports (s : State) (p : Page) (i : Nat) : (s.reject p i).ports = s.ports := rfl
@[simp] theorem State.reject_rings (s : State) (p : Page) (i : Nat) : (s.reject p i).rings = s.rings := rfl
@[simp] theorem State.reject_band (s : State) (p : Page) (i : Nat) : (s.reject p i).band = s.band := rfl
@[simp] theorem State.reject_spool (s : State) (p : Page) (i : Nat) : (s.reject p i).spool = s.spool := rfl
@[simp] theorem State.reject_masks (s : State) (p : Page) (i : Nat) : (s.reject p i).masks = s.masks := rfl
@[simp] theorem State.reject_flash (s : State) (p : Page) (i : Nat) : (s.reject p i).flash = s.flash := rfl
@[simp] theorem State.reject_natShadow (s : State) (p : Page) (i : Nat) : (s.reject p i).natShadow = s.natShadow := rfl
@[simp] theorem State.reject_natActive (s : State) (p : Page) (i : Nat) : (s.reject p i).natActive = s.natActive := rfl
@[simp] theorem State.reject_widthShadow (s : State) (p : Page) (i : Nat) : (s.reject p i).widthShadow = s.widthShadow := rfl
@[simp] theorem State.reject_widthActive (s : State) (p : Page) (i : Nat) : (s.reject p i).widthActive = s.widthActive := rfl
@[simp] theorem State.reject_sine (s : State) (p : Page) (i : Nat) : (s.reject p i).sine = s.sine := rfl
@[simp] theorem State.reject_pvtTab (s : State) (p : Page) (i : Nat) : (s.reject p i).pvtTab = s.pvtTab := rfl
@[simp] theorem State.reject_ue (s : State) (p : Page) (i : Nat) : (s.reject p i).ue = s.ue := rfl
@[simp] theorem State.reject_ce (s : State) (p : Page) (i : Nat) : (s.reject p i).ce = s.ce := rfl
@[simp] theorem State.reject_eccCount (s : State) (p : Page) (i : Nat) : (s.reject p i).eccCount = s.eccCount := rfl
@[simp] theorem State.reject_mem (s : State) (p : Page) (i : Nat) : (s.reject p i).mem = s.mem := rfl
@[simp] theorem State.reject_memCfg (s : State) (p : Page) (i : Nat) : (s.reject p i).memCfg = s.memCfg := rfl
@[simp] theorem State.reject_scrubAt (s : State) (p : Page) (i : Nat) : (s.reject p i).scrubAt = s.scrubAt := rfl
@[simp] theorem State.reject_scrubbed (s : State) (p : Page) (i : Nat) : (s.reject p i).scrubbed = s.scrubbed := rfl
@[simp] theorem State.reject_chans (s : State) (p : Page) (i : Nat) : (s.reject p i).chans = s.chans := rfl
@[simp] theorem State.reject_axes (s : State) (p : Page) (i : Nat) : (s.reject p i).axes = s.axes := rfl
@[simp] theorem State.reject_mgroups (s : State) (p : Page) (i : Nat) : (s.reject p i).mgroups = s.mgroups := rfl
@[simp] theorem State.reject_msets (s : State) (p : Page) (i : Nat) : (s.reject p i).msets = s.msets := rfl
@[simp] theorem State.reject_jchans (s : State) (p : Page) (i : Nat) : (s.reject p i).jchans = s.jchans := rfl
@[simp] theorem State.reject_engines (s : State) (p : Page) (i : Nat) : (s.reject p i).engines = s.engines := rfl
@[simp] theorem State.reject_hal (s : State) (p : Page) (i : Nat) : (s.reject p i).hal = s.hal := rfl
@[simp] theorem State.reject_eths (s : State) (p : Page) (i : Nat) : (s.reject p i).eths = s.eths := rfl
@[simp] theorem State.reject_lnk (s : State) (p : Page) (i : Nat) : (s.reject p i).lnk = s.lnk := rfl
@[simp] theorem State.reject_pcie (s : State) (p : Page) (i : Nat) : (s.reject p i).pcie = s.pcie := rfl
@[simp] theorem State.reject_smp (s : State) (p : Page) (i : Nat) : (s.reject p i).smp = s.smp := rfl
@[simp] theorem State.reject_kps (s : State) (p : Page) (i : Nat) : (s.reject p i).kps = s.kps := rfl
@[simp] theorem State.reject_thm (s : State) (p : Page) (i : Nat) : (s.reject p i).thm = s.thm := rfl
@[simp] theorem State.reject_cals (s : State) (p : Page) (i : Nat) : (s.reject p i).cals = s.cals := rfl
@[simp] theorem State.reject_calTurn (s : State) (p : Page) (i : Nat) : (s.reject p i).calTurn = s.calTurn := rfl
@[simp] theorem State.reject_upd (s : State) (p : Page) (i : Nat) : (s.reject p i).upd = s.upd := rfl
@[simp] theorem State.reject_tap (s : State) (p : Page) (i : Nat) : (s.reject p i).tap = s.tap := rfl
@[simp] theorem State.reject_clocks (s : State) (p : Page) (i : Nat) : (s.reject p i).clocks = s.clocks := rfl
@[simp] theorem State.reject_ticks (s : State) (p : Page) (i : Nat) : (s.reject p i).ticks = s.ticks := rfl
@[simp] theorem State.reject_free (s : State) (p : Page) (i : Nat) : (s.reject p i).free = s.free := rfl
@[simp] theorem State.reject_pending (s : State) (p : Page) (i : Nat) : (s.reject p i).pending = s.pending := rfl

/-! ### lockedCause -/

@[simp] theorem State.lockedCause_now (s : State) (p : Page) (i : Nat) : (s.lockedCause p i).now = s.now := rfl
@[simp] theorem State.lockedCause_porst (s : State) (p : Page) (i : Nat) : (s.lockedCause p i).porst = s.porst := rfl
@[simp] theorem State.lockedCause_ul24 (s : State) (p : Page) (i : Nat) : (s.lockedCause p i).ul24 = s.ul24 := rfl
@[simp] theorem State.lockedCause_ftmStrap (s : State) (p : Page) (i : Nat) : (s.lockedCause p i).ftmStrap = s.ftmStrap := rfl
@[simp] theorem State.lockedCause_ftm (s : State) (p : Page) (i : Nat) : (s.lockedCause p i).ftm = s.ftm := rfl
@[simp] theorem State.lockedCause_devOp (s : State) (p : Page) (i : Nat) : (s.lockedCause p i).devOp = s.devOp := rfl
@[simp] theorem State.lockedCause_devOpBack (s : State) (p : Page) (i : Nat) : (s.lockedCause p i).devOpBack = s.devOpBack := rfl
@[simp] theorem State.lockedCause_bootFrom (s : State) (p : Page) (i : Nat) : (s.lockedCause p i).bootFrom = s.bootFrom := rfl
@[simp] theorem State.lockedCause_relAt (s : State) (p : Page) (i : Nat) : (s.lockedCause p i).relAt = s.relAt := rfl
@[simp] theorem State.lockedCause_sillAt (s : State) (p : Page) (i : Nat) : (s.lockedCause p i).sillAt = s.sillAt := rfl
@[simp] theorem State.lockedCause_kpsAt (s : State) (p : Page) (i : Nat) : (s.lockedCause p i).kpsAt = s.kpsAt := rfl
@[simp] theorem State.lockedCause_powerAt (s : State) (p : Page) (i : Nat) : (s.lockedCause p i).powerAt = s.powerAt := rfl
@[simp] theorem State.lockedCause_islandsAt (s : State) (p : Page) (i : Nat) : (s.lockedCause p i).islandsAt = s.islandsAt := rfl
@[simp] theorem State.lockedCause_appliesRecords (s : State) (p : Page) (i : Nat) : (s.lockedCause p i).appliesRecords = s.appliesRecords := rfl
@[simp] theorem State.lockedCause_active (s : State) (p : Page) (i : Nat) : (s.lockedCause p i).active = s.active := rfl
@[simp] theorem State.lockedCause_heldLow (s : State) (p : Page) (i : Nat) : (s.lockedCause p i).heldLow = s.heldLow := rfl
@[simp] theorem State.lockedCause_captures (s : State) (p : Page) (i : Nat) : (s.lockedCause p i).captures = s.captures := rfl
@[simp] theorem State.lockedCause_lastRead (s : State) (p : Page) (i : Nat) : (s.lockedCause p i).lastRead = s.lastRead := rfl
@[simp] theorem State.lockedCause_bar2Data (s : State) (p : Page) (i : Nat) : (s.lockedCause p i).bar2Data = s.bar2Data := rfl
@[simp] theorem State.lockedCause_waking (s : State) (p : Page) (i : Nat) : (s.lockedCause p i).waking = s.waking := rfl
@[simp] theorem State.lockedCause_stopPending (s : State) (p : Page) (i : Nat) : (s.lockedCause p i).stopPending = s.stopPending := rfl
@[simp] theorem State.lockedCause_ports (s : State) (p : Page) (i : Nat) : (s.lockedCause p i).ports = s.ports := rfl
@[simp] theorem State.lockedCause_rings (s : State) (p : Page) (i : Nat) : (s.lockedCause p i).rings = s.rings := rfl
@[simp] theorem State.lockedCause_band (s : State) (p : Page) (i : Nat) : (s.lockedCause p i).band = s.band := rfl
@[simp] theorem State.lockedCause_spool (s : State) (p : Page) (i : Nat) : (s.lockedCause p i).spool = s.spool := rfl
@[simp] theorem State.lockedCause_masks (s : State) (p : Page) (i : Nat) : (s.lockedCause p i).masks = s.masks := rfl
@[simp] theorem State.lockedCause_flash (s : State) (p : Page) (i : Nat) : (s.lockedCause p i).flash = s.flash := rfl
@[simp] theorem State.lockedCause_natShadow (s : State) (p : Page) (i : Nat) : (s.lockedCause p i).natShadow = s.natShadow := rfl
@[simp] theorem State.lockedCause_natActive (s : State) (p : Page) (i : Nat) : (s.lockedCause p i).natActive = s.natActive := rfl
@[simp] theorem State.lockedCause_widthShadow (s : State) (p : Page) (i : Nat) : (s.lockedCause p i).widthShadow = s.widthShadow := rfl
@[simp] theorem State.lockedCause_widthActive (s : State) (p : Page) (i : Nat) : (s.lockedCause p i).widthActive = s.widthActive := rfl
@[simp] theorem State.lockedCause_sine (s : State) (p : Page) (i : Nat) : (s.lockedCause p i).sine = s.sine := rfl
@[simp] theorem State.lockedCause_pvtTab (s : State) (p : Page) (i : Nat) : (s.lockedCause p i).pvtTab = s.pvtTab := rfl
@[simp] theorem State.lockedCause_ue (s : State) (p : Page) (i : Nat) : (s.lockedCause p i).ue = s.ue := rfl
@[simp] theorem State.lockedCause_ce (s : State) (p : Page) (i : Nat) : (s.lockedCause p i).ce = s.ce := rfl
@[simp] theorem State.lockedCause_eccCount (s : State) (p : Page) (i : Nat) : (s.lockedCause p i).eccCount = s.eccCount := rfl
@[simp] theorem State.lockedCause_mem (s : State) (p : Page) (i : Nat) : (s.lockedCause p i).mem = s.mem := rfl
@[simp] theorem State.lockedCause_memCfg (s : State) (p : Page) (i : Nat) : (s.lockedCause p i).memCfg = s.memCfg := rfl
@[simp] theorem State.lockedCause_scrubAt (s : State) (p : Page) (i : Nat) : (s.lockedCause p i).scrubAt = s.scrubAt := rfl
@[simp] theorem State.lockedCause_scrubbed (s : State) (p : Page) (i : Nat) : (s.lockedCause p i).scrubbed = s.scrubbed := rfl
@[simp] theorem State.lockedCause_chans (s : State) (p : Page) (i : Nat) : (s.lockedCause p i).chans = s.chans := rfl
@[simp] theorem State.lockedCause_axes (s : State) (p : Page) (i : Nat) : (s.lockedCause p i).axes = s.axes := rfl
@[simp] theorem State.lockedCause_mgroups (s : State) (p : Page) (i : Nat) : (s.lockedCause p i).mgroups = s.mgroups := rfl
@[simp] theorem State.lockedCause_msets (s : State) (p : Page) (i : Nat) : (s.lockedCause p i).msets = s.msets := rfl
@[simp] theorem State.lockedCause_jchans (s : State) (p : Page) (i : Nat) : (s.lockedCause p i).jchans = s.jchans := rfl
@[simp] theorem State.lockedCause_engines (s : State) (p : Page) (i : Nat) : (s.lockedCause p i).engines = s.engines := rfl
@[simp] theorem State.lockedCause_hal (s : State) (p : Page) (i : Nat) : (s.lockedCause p i).hal = s.hal := rfl
@[simp] theorem State.lockedCause_eths (s : State) (p : Page) (i : Nat) : (s.lockedCause p i).eths = s.eths := rfl
@[simp] theorem State.lockedCause_lnk (s : State) (p : Page) (i : Nat) : (s.lockedCause p i).lnk = s.lnk := rfl
@[simp] theorem State.lockedCause_pcie (s : State) (p : Page) (i : Nat) : (s.lockedCause p i).pcie = s.pcie := rfl
@[simp] theorem State.lockedCause_smp (s : State) (p : Page) (i : Nat) : (s.lockedCause p i).smp = s.smp := rfl
@[simp] theorem State.lockedCause_kps (s : State) (p : Page) (i : Nat) : (s.lockedCause p i).kps = s.kps := rfl
@[simp] theorem State.lockedCause_thm (s : State) (p : Page) (i : Nat) : (s.lockedCause p i).thm = s.thm := rfl
@[simp] theorem State.lockedCause_cals (s : State) (p : Page) (i : Nat) : (s.lockedCause p i).cals = s.cals := rfl
@[simp] theorem State.lockedCause_calTurn (s : State) (p : Page) (i : Nat) : (s.lockedCause p i).calTurn = s.calTurn := rfl
@[simp] theorem State.lockedCause_upd (s : State) (p : Page) (i : Nat) : (s.lockedCause p i).upd = s.upd := rfl
@[simp] theorem State.lockedCause_tap (s : State) (p : Page) (i : Nat) : (s.lockedCause p i).tap = s.tap := rfl
@[simp] theorem State.lockedCause_clocks (s : State) (p : Page) (i : Nat) : (s.lockedCause p i).clocks = s.clocks := rfl
@[simp] theorem State.lockedCause_ticks (s : State) (p : Page) (i : Nat) : (s.lockedCause p i).ticks = s.ticks := rfl
@[simp] theorem State.lockedCause_free (s : State) (p : Page) (i : Nat) : (s.lockedCause p i).free = s.free := rfl
@[simp] theorem State.lockedCause_pending (s : State) (p : Page) (i : Nat) : (s.lockedCause p i).pending = s.pending := rfl

/-! ### setLock -/

@[simp] theorem State.setLock_now (s : State) (p : Page) (i : Nat) (u : Bool) : (s.setLock p i u).now = s.now := rfl
@[simp] theorem State.setLock_porst (s : State) (p : Page) (i : Nat) (u : Bool) : (s.setLock p i u).porst = s.porst := rfl
@[simp] theorem State.setLock_ul24 (s : State) (p : Page) (i : Nat) (u : Bool) : (s.setLock p i u).ul24 = s.ul24 := rfl
@[simp] theorem State.setLock_ftmStrap (s : State) (p : Page) (i : Nat) (u : Bool) : (s.setLock p i u).ftmStrap = s.ftmStrap := rfl
@[simp] theorem State.setLock_ftm (s : State) (p : Page) (i : Nat) (u : Bool) : (s.setLock p i u).ftm = s.ftm := rfl
@[simp] theorem State.setLock_devOp (s : State) (p : Page) (i : Nat) (u : Bool) : (s.setLock p i u).devOp = s.devOp := rfl
@[simp] theorem State.setLock_devOpBack (s : State) (p : Page) (i : Nat) (u : Bool) : (s.setLock p i u).devOpBack = s.devOpBack := rfl
@[simp] theorem State.setLock_bootFrom (s : State) (p : Page) (i : Nat) (u : Bool) : (s.setLock p i u).bootFrom = s.bootFrom := rfl
@[simp] theorem State.setLock_relAt (s : State) (p : Page) (i : Nat) (u : Bool) : (s.setLock p i u).relAt = s.relAt := rfl
@[simp] theorem State.setLock_sillAt (s : State) (p : Page) (i : Nat) (u : Bool) : (s.setLock p i u).sillAt = s.sillAt := rfl
@[simp] theorem State.setLock_kpsAt (s : State) (p : Page) (i : Nat) (u : Bool) : (s.setLock p i u).kpsAt = s.kpsAt := rfl
@[simp] theorem State.setLock_powerAt (s : State) (p : Page) (i : Nat) (u : Bool) : (s.setLock p i u).powerAt = s.powerAt := rfl
@[simp] theorem State.setLock_islandsAt (s : State) (p : Page) (i : Nat) (u : Bool) : (s.setLock p i u).islandsAt = s.islandsAt := rfl
@[simp] theorem State.setLock_appliesRecords (s : State) (p : Page) (i : Nat) (u : Bool) : (s.setLock p i u).appliesRecords = s.appliesRecords := rfl
@[simp] theorem State.setLock_active (s : State) (p : Page) (i : Nat) (u : Bool) : (s.setLock p i u).active = s.active := rfl
@[simp] theorem State.setLock_heldLow (s : State) (p : Page) (i : Nat) (u : Bool) : (s.setLock p i u).heldLow = s.heldLow := rfl
@[simp] theorem State.setLock_captures (s : State) (p : Page) (i : Nat) (u : Bool) : (s.setLock p i u).captures = s.captures := rfl
@[simp] theorem State.setLock_lastRead (s : State) (p : Page) (i : Nat) (u : Bool) : (s.setLock p i u).lastRead = s.lastRead := rfl
@[simp] theorem State.setLock_bar2Data (s : State) (p : Page) (i : Nat) (u : Bool) : (s.setLock p i u).bar2Data = s.bar2Data := rfl
@[simp] theorem State.setLock_waking (s : State) (p : Page) (i : Nat) (u : Bool) : (s.setLock p i u).waking = s.waking := rfl
@[simp] theorem State.setLock_stopPending (s : State) (p : Page) (i : Nat) (u : Bool) : (s.setLock p i u).stopPending = s.stopPending := rfl
@[simp] theorem State.setLock_ports (s : State) (p : Page) (i : Nat) (u : Bool) : (s.setLock p i u).ports = s.ports := rfl
@[simp] theorem State.setLock_rings (s : State) (p : Page) (i : Nat) (u : Bool) : (s.setLock p i u).rings = s.rings := rfl
@[simp] theorem State.setLock_band (s : State) (p : Page) (i : Nat) (u : Bool) : (s.setLock p i u).band = s.band := rfl
@[simp] theorem State.setLock_spool (s : State) (p : Page) (i : Nat) (u : Bool) : (s.setLock p i u).spool = s.spool := rfl
@[simp] theorem State.setLock_masks (s : State) (p : Page) (i : Nat) (u : Bool) : (s.setLock p i u).masks = s.masks := rfl
@[simp] theorem State.setLock_flash (s : State) (p : Page) (i : Nat) (u : Bool) : (s.setLock p i u).flash = s.flash := rfl
@[simp] theorem State.setLock_natShadow (s : State) (p : Page) (i : Nat) (u : Bool) : (s.setLock p i u).natShadow = s.natShadow := rfl
@[simp] theorem State.setLock_natActive (s : State) (p : Page) (i : Nat) (u : Bool) : (s.setLock p i u).natActive = s.natActive := rfl
@[simp] theorem State.setLock_widthShadow (s : State) (p : Page) (i : Nat) (u : Bool) : (s.setLock p i u).widthShadow = s.widthShadow := rfl
@[simp] theorem State.setLock_widthActive (s : State) (p : Page) (i : Nat) (u : Bool) : (s.setLock p i u).widthActive = s.widthActive := rfl
@[simp] theorem State.setLock_sine (s : State) (p : Page) (i : Nat) (u : Bool) : (s.setLock p i u).sine = s.sine := rfl
@[simp] theorem State.setLock_pvtTab (s : State) (p : Page) (i : Nat) (u : Bool) : (s.setLock p i u).pvtTab = s.pvtTab := rfl
@[simp] theorem State.setLock_ue (s : State) (p : Page) (i : Nat) (u : Bool) : (s.setLock p i u).ue = s.ue := rfl
@[simp] theorem State.setLock_ce (s : State) (p : Page) (i : Nat) (u : Bool) : (s.setLock p i u).ce = s.ce := rfl
@[simp] theorem State.setLock_eccCount (s : State) (p : Page) (i : Nat) (u : Bool) : (s.setLock p i u).eccCount = s.eccCount := rfl
@[simp] theorem State.setLock_mem (s : State) (p : Page) (i : Nat) (u : Bool) : (s.setLock p i u).mem = s.mem := rfl
@[simp] theorem State.setLock_memCfg (s : State) (p : Page) (i : Nat) (u : Bool) : (s.setLock p i u).memCfg = s.memCfg := rfl
@[simp] theorem State.setLock_scrubAt (s : State) (p : Page) (i : Nat) (u : Bool) : (s.setLock p i u).scrubAt = s.scrubAt := rfl
@[simp] theorem State.setLock_scrubbed (s : State) (p : Page) (i : Nat) (u : Bool) : (s.setLock p i u).scrubbed = s.scrubbed := rfl
@[simp] theorem State.setLock_chans (s : State) (p : Page) (i : Nat) (u : Bool) : (s.setLock p i u).chans = s.chans := rfl
@[simp] theorem State.setLock_axes (s : State) (p : Page) (i : Nat) (u : Bool) : (s.setLock p i u).axes = s.axes := rfl
@[simp] theorem State.setLock_mgroups (s : State) (p : Page) (i : Nat) (u : Bool) : (s.setLock p i u).mgroups = s.mgroups := rfl
@[simp] theorem State.setLock_msets (s : State) (p : Page) (i : Nat) (u : Bool) : (s.setLock p i u).msets = s.msets := rfl
@[simp] theorem State.setLock_jchans (s : State) (p : Page) (i : Nat) (u : Bool) : (s.setLock p i u).jchans = s.jchans := rfl
@[simp] theorem State.setLock_engines (s : State) (p : Page) (i : Nat) (u : Bool) : (s.setLock p i u).engines = s.engines := rfl
@[simp] theorem State.setLock_hal (s : State) (p : Page) (i : Nat) (u : Bool) : (s.setLock p i u).hal = s.hal := rfl
@[simp] theorem State.setLock_eths (s : State) (p : Page) (i : Nat) (u : Bool) : (s.setLock p i u).eths = s.eths := rfl
@[simp] theorem State.setLock_lnk (s : State) (p : Page) (i : Nat) (u : Bool) : (s.setLock p i u).lnk = s.lnk := rfl
@[simp] theorem State.setLock_pcie (s : State) (p : Page) (i : Nat) (u : Bool) : (s.setLock p i u).pcie = s.pcie := rfl
@[simp] theorem State.setLock_smp (s : State) (p : Page) (i : Nat) (u : Bool) : (s.setLock p i u).smp = s.smp := rfl
@[simp] theorem State.setLock_kps (s : State) (p : Page) (i : Nat) (u : Bool) : (s.setLock p i u).kps = s.kps := rfl
@[simp] theorem State.setLock_thm (s : State) (p : Page) (i : Nat) (u : Bool) : (s.setLock p i u).thm = s.thm := rfl
@[simp] theorem State.setLock_cals (s : State) (p : Page) (i : Nat) (u : Bool) : (s.setLock p i u).cals = s.cals := rfl
@[simp] theorem State.setLock_calTurn (s : State) (p : Page) (i : Nat) (u : Bool) : (s.setLock p i u).calTurn = s.calTurn := rfl
@[simp] theorem State.setLock_upd (s : State) (p : Page) (i : Nat) (u : Bool) : (s.setLock p i u).upd = s.upd := rfl
@[simp] theorem State.setLock_tap (s : State) (p : Page) (i : Nat) (u : Bool) : (s.setLock p i u).tap = s.tap := rfl
@[simp] theorem State.setLock_clocks (s : State) (p : Page) (i : Nat) (u : Bool) : (s.setLock p i u).clocks = s.clocks := rfl
@[simp] theorem State.setLock_ticks (s : State) (p : Page) (i : Nat) (u : Bool) : (s.setLock p i u).ticks = s.ticks := rfl
@[simp] theorem State.setLock_free (s : State) (p : Page) (i : Nat) (u : Bool) : (s.setLock p i u).free = s.free := rfl
@[simp] theorem State.setLock_pending (s : State) (p : Page) (i : Nat) (u : Bool) : (s.setLock p i u).pending = s.pending := rfl

/-! ### hold -/

@[simp] theorem State.hold_now (s : State) (m : Master) (a : Nat) (v : Word) : (s.hold m a v).now = s.now := rfl
@[simp] theorem State.hold_porst (s : State) (m : Master) (a : Nat) (v : Word) : (s.hold m a v).porst = s.porst := rfl
@[simp] theorem State.hold_ul24 (s : State) (m : Master) (a : Nat) (v : Word) : (s.hold m a v).ul24 = s.ul24 := rfl
@[simp] theorem State.hold_ftmStrap (s : State) (m : Master) (a : Nat) (v : Word) : (s.hold m a v).ftmStrap = s.ftmStrap := rfl
@[simp] theorem State.hold_ftm (s : State) (m : Master) (a : Nat) (v : Word) : (s.hold m a v).ftm = s.ftm := rfl
@[simp] theorem State.hold_devOp (s : State) (m : Master) (a : Nat) (v : Word) : (s.hold m a v).devOp = s.devOp := rfl
@[simp] theorem State.hold_devOpBack (s : State) (m : Master) (a : Nat) (v : Word) : (s.hold m a v).devOpBack = s.devOpBack := rfl
@[simp] theorem State.hold_bootFrom (s : State) (m : Master) (a : Nat) (v : Word) : (s.hold m a v).bootFrom = s.bootFrom := rfl
@[simp] theorem State.hold_relAt (s : State) (m : Master) (a : Nat) (v : Word) : (s.hold m a v).relAt = s.relAt := rfl
@[simp] theorem State.hold_sillAt (s : State) (m : Master) (a : Nat) (v : Word) : (s.hold m a v).sillAt = s.sillAt := rfl
@[simp] theorem State.hold_kpsAt (s : State) (m : Master) (a : Nat) (v : Word) : (s.hold m a v).kpsAt = s.kpsAt := rfl
@[simp] theorem State.hold_powerAt (s : State) (m : Master) (a : Nat) (v : Word) : (s.hold m a v).powerAt = s.powerAt := rfl
@[simp] theorem State.hold_islandsAt (s : State) (m : Master) (a : Nat) (v : Word) : (s.hold m a v).islandsAt = s.islandsAt := rfl
@[simp] theorem State.hold_appliesRecords (s : State) (m : Master) (a : Nat) (v : Word) : (s.hold m a v).appliesRecords = s.appliesRecords := rfl
@[simp] theorem State.hold_regs (s : State) (m : Master) (a : Nat) (v : Word) : (s.hold m a v).regs = s.regs := rfl
@[simp] theorem State.hold_active (s : State) (m : Master) (a : Nat) (v : Word) : (s.hold m a v).active = s.active := rfl
@[simp] theorem State.hold_captures (s : State) (m : Master) (a : Nat) (v : Word) : (s.hold m a v).captures = s.captures := rfl
@[simp] theorem State.hold_lastRead (s : State) (m : Master) (a : Nat) (v : Word) : (s.hold m a v).lastRead = s.lastRead := rfl
@[simp] theorem State.hold_bar2Data (s : State) (m : Master) (a : Nat) (v : Word) : (s.hold m a v).bar2Data = s.bar2Data := rfl
@[simp] theorem State.hold_waking (s : State) (m : Master) (a : Nat) (v : Word) : (s.hold m a v).waking = s.waking := rfl
@[simp] theorem State.hold_stopPending (s : State) (m : Master) (a : Nat) (v : Word) : (s.hold m a v).stopPending = s.stopPending := rfl
@[simp] theorem State.hold_ports (s : State) (m : Master) (a : Nat) (v : Word) : (s.hold m a v).ports = s.ports := rfl
@[simp] theorem State.hold_rings (s : State) (m : Master) (a : Nat) (v : Word) : (s.hold m a v).rings = s.rings := rfl
@[simp] theorem State.hold_band (s : State) (m : Master) (a : Nat) (v : Word) : (s.hold m a v).band = s.band := rfl
@[simp] theorem State.hold_spool (s : State) (m : Master) (a : Nat) (v : Word) : (s.hold m a v).spool = s.spool := rfl
@[simp] theorem State.hold_masks (s : State) (m : Master) (a : Nat) (v : Word) : (s.hold m a v).masks = s.masks := rfl
@[simp] theorem State.hold_flash (s : State) (m : Master) (a : Nat) (v : Word) : (s.hold m a v).flash = s.flash := rfl
@[simp] theorem State.hold_natShadow (s : State) (m : Master) (a : Nat) (v : Word) : (s.hold m a v).natShadow = s.natShadow := rfl
@[simp] theorem State.hold_natActive (s : State) (m : Master) (a : Nat) (v : Word) : (s.hold m a v).natActive = s.natActive := rfl
@[simp] theorem State.hold_widthShadow (s : State) (m : Master) (a : Nat) (v : Word) : (s.hold m a v).widthShadow = s.widthShadow := rfl
@[simp] theorem State.hold_widthActive (s : State) (m : Master) (a : Nat) (v : Word) : (s.hold m a v).widthActive = s.widthActive := rfl
@[simp] theorem State.hold_sine (s : State) (m : Master) (a : Nat) (v : Word) : (s.hold m a v).sine = s.sine := rfl
@[simp] theorem State.hold_pvtTab (s : State) (m : Master) (a : Nat) (v : Word) : (s.hold m a v).pvtTab = s.pvtTab := rfl
@[simp] theorem State.hold_ue (s : State) (m : Master) (a : Nat) (v : Word) : (s.hold m a v).ue = s.ue := rfl
@[simp] theorem State.hold_ce (s : State) (m : Master) (a : Nat) (v : Word) : (s.hold m a v).ce = s.ce := rfl
@[simp] theorem State.hold_eccCount (s : State) (m : Master) (a : Nat) (v : Word) : (s.hold m a v).eccCount = s.eccCount := rfl
@[simp] theorem State.hold_mem (s : State) (m : Master) (a : Nat) (v : Word) : (s.hold m a v).mem = s.mem := rfl
@[simp] theorem State.hold_memCfg (s : State) (m : Master) (a : Nat) (v : Word) : (s.hold m a v).memCfg = s.memCfg := rfl
@[simp] theorem State.hold_scrubAt (s : State) (m : Master) (a : Nat) (v : Word) : (s.hold m a v).scrubAt = s.scrubAt := rfl
@[simp] theorem State.hold_scrubbed (s : State) (m : Master) (a : Nat) (v : Word) : (s.hold m a v).scrubbed = s.scrubbed := rfl
@[simp] theorem State.hold_chans (s : State) (m : Master) (a : Nat) (v : Word) : (s.hold m a v).chans = s.chans := rfl
@[simp] theorem State.hold_axes (s : State) (m : Master) (a : Nat) (v : Word) : (s.hold m a v).axes = s.axes := rfl
@[simp] theorem State.hold_mgroups (s : State) (m : Master) (a : Nat) (v : Word) : (s.hold m a v).mgroups = s.mgroups := rfl
@[simp] theorem State.hold_msets (s : State) (m : Master) (a : Nat) (v : Word) : (s.hold m a v).msets = s.msets := rfl
@[simp] theorem State.hold_jchans (s : State) (m : Master) (a : Nat) (v : Word) : (s.hold m a v).jchans = s.jchans := rfl
@[simp] theorem State.hold_engines (s : State) (m : Master) (a : Nat) (v : Word) : (s.hold m a v).engines = s.engines := rfl
@[simp] theorem State.hold_hal (s : State) (m : Master) (a : Nat) (v : Word) : (s.hold m a v).hal = s.hal := rfl
@[simp] theorem State.hold_eths (s : State) (m : Master) (a : Nat) (v : Word) : (s.hold m a v).eths = s.eths := rfl
@[simp] theorem State.hold_lnk (s : State) (m : Master) (a : Nat) (v : Word) : (s.hold m a v).lnk = s.lnk := rfl
@[simp] theorem State.hold_pcie (s : State) (m : Master) (a : Nat) (v : Word) : (s.hold m a v).pcie = s.pcie := rfl
@[simp] theorem State.hold_smp (s : State) (m : Master) (a : Nat) (v : Word) : (s.hold m a v).smp = s.smp := rfl
@[simp] theorem State.hold_kps (s : State) (m : Master) (a : Nat) (v : Word) : (s.hold m a v).kps = s.kps := rfl
@[simp] theorem State.hold_thm (s : State) (m : Master) (a : Nat) (v : Word) : (s.hold m a v).thm = s.thm := rfl
@[simp] theorem State.hold_cals (s : State) (m : Master) (a : Nat) (v : Word) : (s.hold m a v).cals = s.cals := rfl
@[simp] theorem State.hold_calTurn (s : State) (m : Master) (a : Nat) (v : Word) : (s.hold m a v).calTurn = s.calTurn := rfl
@[simp] theorem State.hold_upd (s : State) (m : Master) (a : Nat) (v : Word) : (s.hold m a v).upd = s.upd := rfl
@[simp] theorem State.hold_tap (s : State) (m : Master) (a : Nat) (v : Word) : (s.hold m a v).tap = s.tap := rfl
@[simp] theorem State.hold_clocks (s : State) (m : Master) (a : Nat) (v : Word) : (s.hold m a v).clocks = s.clocks := rfl
@[simp] theorem State.hold_ticks (s : State) (m : Master) (a : Nat) (v : Word) : (s.hold m a v).ticks = s.ticks := rfl
@[simp] theorem State.hold_free (s : State) (m : Master) (a : Nat) (v : Word) : (s.hold m a v).free = s.free := rfl
@[simp] theorem State.hold_pending (s : State) (m : Master) (a : Nat) (v : Word) : (s.hold m a v).pending = s.pending := rfl

/-! ### unhold -/

@[simp] theorem State.unhold_now (s : State) (m : Master) (a : Nat) : (s.unhold m a).now = s.now := rfl
@[simp] theorem State.unhold_porst (s : State) (m : Master) (a : Nat) : (s.unhold m a).porst = s.porst := rfl
@[simp] theorem State.unhold_ul24 (s : State) (m : Master) (a : Nat) : (s.unhold m a).ul24 = s.ul24 := rfl
@[simp] theorem State.unhold_ftmStrap (s : State) (m : Master) (a : Nat) : (s.unhold m a).ftmStrap = s.ftmStrap := rfl
@[simp] theorem State.unhold_ftm (s : State) (m : Master) (a : Nat) : (s.unhold m a).ftm = s.ftm := rfl
@[simp] theorem State.unhold_devOp (s : State) (m : Master) (a : Nat) : (s.unhold m a).devOp = s.devOp := rfl
@[simp] theorem State.unhold_devOpBack (s : State) (m : Master) (a : Nat) : (s.unhold m a).devOpBack = s.devOpBack := rfl
@[simp] theorem State.unhold_bootFrom (s : State) (m : Master) (a : Nat) : (s.unhold m a).bootFrom = s.bootFrom := rfl
@[simp] theorem State.unhold_relAt (s : State) (m : Master) (a : Nat) : (s.unhold m a).relAt = s.relAt := rfl
@[simp] theorem State.unhold_sillAt (s : State) (m : Master) (a : Nat) : (s.unhold m a).sillAt = s.sillAt := rfl
@[simp] theorem State.unhold_kpsAt (s : State) (m : Master) (a : Nat) : (s.unhold m a).kpsAt = s.kpsAt := rfl
@[simp] theorem State.unhold_powerAt (s : State) (m : Master) (a : Nat) : (s.unhold m a).powerAt = s.powerAt := rfl
@[simp] theorem State.unhold_islandsAt (s : State) (m : Master) (a : Nat) : (s.unhold m a).islandsAt = s.islandsAt := rfl
@[simp] theorem State.unhold_appliesRecords (s : State) (m : Master) (a : Nat) : (s.unhold m a).appliesRecords = s.appliesRecords := rfl
@[simp] theorem State.unhold_regs (s : State) (m : Master) (a : Nat) : (s.unhold m a).regs = s.regs := rfl
@[simp] theorem State.unhold_active (s : State) (m : Master) (a : Nat) : (s.unhold m a).active = s.active := rfl
@[simp] theorem State.unhold_captures (s : State) (m : Master) (a : Nat) : (s.unhold m a).captures = s.captures := rfl
@[simp] theorem State.unhold_lastRead (s : State) (m : Master) (a : Nat) : (s.unhold m a).lastRead = s.lastRead := rfl
@[simp] theorem State.unhold_bar2Data (s : State) (m : Master) (a : Nat) : (s.unhold m a).bar2Data = s.bar2Data := rfl
@[simp] theorem State.unhold_waking (s : State) (m : Master) (a : Nat) : (s.unhold m a).waking = s.waking := rfl
@[simp] theorem State.unhold_stopPending (s : State) (m : Master) (a : Nat) : (s.unhold m a).stopPending = s.stopPending := rfl
@[simp] theorem State.unhold_ports (s : State) (m : Master) (a : Nat) : (s.unhold m a).ports = s.ports := rfl
@[simp] theorem State.unhold_rings (s : State) (m : Master) (a : Nat) : (s.unhold m a).rings = s.rings := rfl
@[simp] theorem State.unhold_band (s : State) (m : Master) (a : Nat) : (s.unhold m a).band = s.band := rfl
@[simp] theorem State.unhold_spool (s : State) (m : Master) (a : Nat) : (s.unhold m a).spool = s.spool := rfl
@[simp] theorem State.unhold_masks (s : State) (m : Master) (a : Nat) : (s.unhold m a).masks = s.masks := rfl
@[simp] theorem State.unhold_flash (s : State) (m : Master) (a : Nat) : (s.unhold m a).flash = s.flash := rfl
@[simp] theorem State.unhold_natShadow (s : State) (m : Master) (a : Nat) : (s.unhold m a).natShadow = s.natShadow := rfl
@[simp] theorem State.unhold_natActive (s : State) (m : Master) (a : Nat) : (s.unhold m a).natActive = s.natActive := rfl
@[simp] theorem State.unhold_widthShadow (s : State) (m : Master) (a : Nat) : (s.unhold m a).widthShadow = s.widthShadow := rfl
@[simp] theorem State.unhold_widthActive (s : State) (m : Master) (a : Nat) : (s.unhold m a).widthActive = s.widthActive := rfl
@[simp] theorem State.unhold_sine (s : State) (m : Master) (a : Nat) : (s.unhold m a).sine = s.sine := rfl
@[simp] theorem State.unhold_pvtTab (s : State) (m : Master) (a : Nat) : (s.unhold m a).pvtTab = s.pvtTab := rfl
@[simp] theorem State.unhold_ue (s : State) (m : Master) (a : Nat) : (s.unhold m a).ue = s.ue := rfl
@[simp] theorem State.unhold_ce (s : State) (m : Master) (a : Nat) : (s.unhold m a).ce = s.ce := rfl
@[simp] theorem State.unhold_eccCount (s : State) (m : Master) (a : Nat) : (s.unhold m a).eccCount = s.eccCount := rfl
@[simp] theorem State.unhold_mem (s : State) (m : Master) (a : Nat) : (s.unhold m a).mem = s.mem := rfl
@[simp] theorem State.unhold_memCfg (s : State) (m : Master) (a : Nat) : (s.unhold m a).memCfg = s.memCfg := rfl
@[simp] theorem State.unhold_scrubAt (s : State) (m : Master) (a : Nat) : (s.unhold m a).scrubAt = s.scrubAt := rfl
@[simp] theorem State.unhold_scrubbed (s : State) (m : Master) (a : Nat) : (s.unhold m a).scrubbed = s.scrubbed := rfl
@[simp] theorem State.unhold_chans (s : State) (m : Master) (a : Nat) : (s.unhold m a).chans = s.chans := rfl
@[simp] theorem State.unhold_axes (s : State) (m : Master) (a : Nat) : (s.unhold m a).axes = s.axes := rfl
@[simp] theorem State.unhold_mgroups (s : State) (m : Master) (a : Nat) : (s.unhold m a).mgroups = s.mgroups := rfl
@[simp] theorem State.unhold_msets (s : State) (m : Master) (a : Nat) : (s.unhold m a).msets = s.msets := rfl
@[simp] theorem State.unhold_jchans (s : State) (m : Master) (a : Nat) : (s.unhold m a).jchans = s.jchans := rfl
@[simp] theorem State.unhold_engines (s : State) (m : Master) (a : Nat) : (s.unhold m a).engines = s.engines := rfl
@[simp] theorem State.unhold_hal (s : State) (m : Master) (a : Nat) : (s.unhold m a).hal = s.hal := rfl
@[simp] theorem State.unhold_eths (s : State) (m : Master) (a : Nat) : (s.unhold m a).eths = s.eths := rfl
@[simp] theorem State.unhold_lnk (s : State) (m : Master) (a : Nat) : (s.unhold m a).lnk = s.lnk := rfl
@[simp] theorem State.unhold_pcie (s : State) (m : Master) (a : Nat) : (s.unhold m a).pcie = s.pcie := rfl
@[simp] theorem State.unhold_smp (s : State) (m : Master) (a : Nat) : (s.unhold m a).smp = s.smp := rfl
@[simp] theorem State.unhold_kps (s : State) (m : Master) (a : Nat) : (s.unhold m a).kps = s.kps := rfl
@[simp] theorem State.unhold_thm (s : State) (m : Master) (a : Nat) : (s.unhold m a).thm = s.thm := rfl
@[simp] theorem State.unhold_cals (s : State) (m : Master) (a : Nat) : (s.unhold m a).cals = s.cals := rfl
@[simp] theorem State.unhold_calTurn (s : State) (m : Master) (a : Nat) : (s.unhold m a).calTurn = s.calTurn := rfl
@[simp] theorem State.unhold_upd (s : State) (m : Master) (a : Nat) : (s.unhold m a).upd = s.upd := rfl
@[simp] theorem State.unhold_tap (s : State) (m : Master) (a : Nat) : (s.unhold m a).tap = s.tap := rfl
@[simp] theorem State.unhold_clocks (s : State) (m : Master) (a : Nat) : (s.unhold m a).clocks = s.clocks := rfl
@[simp] theorem State.unhold_ticks (s : State) (m : Master) (a : Nat) : (s.unhold m a).ticks = s.ticks := rfl
@[simp] theorem State.unhold_free (s : State) (m : Master) (a : Nat) : (s.unhold m a).free = s.free := rfl
@[simp] theorem State.unhold_pending (s : State) (m : Master) (a : Nat) : (s.unhold m a).pending = s.pending := rfl

/-! ### capture -/

@[simp] theorem State.capture_now (s : State) (m : Master) (a : Nat) (v : Word) : (s.capture m a v).now = s.now := rfl
@[simp] theorem State.capture_porst (s : State) (m : Master) (a : Nat) (v : Word) : (s.capture m a v).porst = s.porst := rfl
@[simp] theorem State.capture_ul24 (s : State) (m : Master) (a : Nat) (v : Word) : (s.capture m a v).ul24 = s.ul24 := rfl
@[simp] theorem State.capture_ftmStrap (s : State) (m : Master) (a : Nat) (v : Word) : (s.capture m a v).ftmStrap = s.ftmStrap := rfl
@[simp] theorem State.capture_ftm (s : State) (m : Master) (a : Nat) (v : Word) : (s.capture m a v).ftm = s.ftm := rfl
@[simp] theorem State.capture_devOp (s : State) (m : Master) (a : Nat) (v : Word) : (s.capture m a v).devOp = s.devOp := rfl
@[simp] theorem State.capture_devOpBack (s : State) (m : Master) (a : Nat) (v : Word) : (s.capture m a v).devOpBack = s.devOpBack := rfl
@[simp] theorem State.capture_bootFrom (s : State) (m : Master) (a : Nat) (v : Word) : (s.capture m a v).bootFrom = s.bootFrom := rfl
@[simp] theorem State.capture_relAt (s : State) (m : Master) (a : Nat) (v : Word) : (s.capture m a v).relAt = s.relAt := rfl
@[simp] theorem State.capture_sillAt (s : State) (m : Master) (a : Nat) (v : Word) : (s.capture m a v).sillAt = s.sillAt := rfl
@[simp] theorem State.capture_kpsAt (s : State) (m : Master) (a : Nat) (v : Word) : (s.capture m a v).kpsAt = s.kpsAt := rfl
@[simp] theorem State.capture_powerAt (s : State) (m : Master) (a : Nat) (v : Word) : (s.capture m a v).powerAt = s.powerAt := rfl
@[simp] theorem State.capture_islandsAt (s : State) (m : Master) (a : Nat) (v : Word) : (s.capture m a v).islandsAt = s.islandsAt := rfl
@[simp] theorem State.capture_appliesRecords (s : State) (m : Master) (a : Nat) (v : Word) : (s.capture m a v).appliesRecords = s.appliesRecords := rfl
@[simp] theorem State.capture_regs (s : State) (m : Master) (a : Nat) (v : Word) : (s.capture m a v).regs = s.regs := rfl
@[simp] theorem State.capture_active (s : State) (m : Master) (a : Nat) (v : Word) : (s.capture m a v).active = s.active := rfl
@[simp] theorem State.capture_heldLow (s : State) (m : Master) (a : Nat) (v : Word) : (s.capture m a v).heldLow = s.heldLow := rfl
@[simp] theorem State.capture_lastRead (s : State) (m : Master) (a : Nat) (v : Word) : (s.capture m a v).lastRead = s.lastRead := rfl
@[simp] theorem State.capture_bar2Data (s : State) (m : Master) (a : Nat) (v : Word) : (s.capture m a v).bar2Data = s.bar2Data := rfl
@[simp] theorem State.capture_waking (s : State) (m : Master) (a : Nat) (v : Word) : (s.capture m a v).waking = s.waking := rfl
@[simp] theorem State.capture_stopPending (s : State) (m : Master) (a : Nat) (v : Word) : (s.capture m a v).stopPending = s.stopPending := rfl
@[simp] theorem State.capture_ports (s : State) (m : Master) (a : Nat) (v : Word) : (s.capture m a v).ports = s.ports := rfl
@[simp] theorem State.capture_rings (s : State) (m : Master) (a : Nat) (v : Word) : (s.capture m a v).rings = s.rings := rfl
@[simp] theorem State.capture_band (s : State) (m : Master) (a : Nat) (v : Word) : (s.capture m a v).band = s.band := rfl
@[simp] theorem State.capture_spool (s : State) (m : Master) (a : Nat) (v : Word) : (s.capture m a v).spool = s.spool := rfl
@[simp] theorem State.capture_masks (s : State) (m : Master) (a : Nat) (v : Word) : (s.capture m a v).masks = s.masks := rfl
@[simp] theorem State.capture_flash (s : State) (m : Master) (a : Nat) (v : Word) : (s.capture m a v).flash = s.flash := rfl
@[simp] theorem State.capture_natShadow (s : State) (m : Master) (a : Nat) (v : Word) : (s.capture m a v).natShadow = s.natShadow := rfl
@[simp] theorem State.capture_natActive (s : State) (m : Master) (a : Nat) (v : Word) : (s.capture m a v).natActive = s.natActive := rfl
@[simp] theorem State.capture_widthShadow (s : State) (m : Master) (a : Nat) (v : Word) : (s.capture m a v).widthShadow = s.widthShadow := rfl
@[simp] theorem State.capture_widthActive (s : State) (m : Master) (a : Nat) (v : Word) : (s.capture m a v).widthActive = s.widthActive := rfl
@[simp] theorem State.capture_sine (s : State) (m : Master) (a : Nat) (v : Word) : (s.capture m a v).sine = s.sine := rfl
@[simp] theorem State.capture_pvtTab (s : State) (m : Master) (a : Nat) (v : Word) : (s.capture m a v).pvtTab = s.pvtTab := rfl
@[simp] theorem State.capture_ue (s : State) (m : Master) (a : Nat) (v : Word) : (s.capture m a v).ue = s.ue := rfl
@[simp] theorem State.capture_ce (s : State) (m : Master) (a : Nat) (v : Word) : (s.capture m a v).ce = s.ce := rfl
@[simp] theorem State.capture_eccCount (s : State) (m : Master) (a : Nat) (v : Word) : (s.capture m a v).eccCount = s.eccCount := rfl
@[simp] theorem State.capture_mem (s : State) (m : Master) (a : Nat) (v : Word) : (s.capture m a v).mem = s.mem := rfl
@[simp] theorem State.capture_memCfg (s : State) (m : Master) (a : Nat) (v : Word) : (s.capture m a v).memCfg = s.memCfg := rfl
@[simp] theorem State.capture_scrubAt (s : State) (m : Master) (a : Nat) (v : Word) : (s.capture m a v).scrubAt = s.scrubAt := rfl
@[simp] theorem State.capture_scrubbed (s : State) (m : Master) (a : Nat) (v : Word) : (s.capture m a v).scrubbed = s.scrubbed := rfl
@[simp] theorem State.capture_chans (s : State) (m : Master) (a : Nat) (v : Word) : (s.capture m a v).chans = s.chans := rfl
@[simp] theorem State.capture_axes (s : State) (m : Master) (a : Nat) (v : Word) : (s.capture m a v).axes = s.axes := rfl
@[simp] theorem State.capture_mgroups (s : State) (m : Master) (a : Nat) (v : Word) : (s.capture m a v).mgroups = s.mgroups := rfl
@[simp] theorem State.capture_msets (s : State) (m : Master) (a : Nat) (v : Word) : (s.capture m a v).msets = s.msets := rfl
@[simp] theorem State.capture_jchans (s : State) (m : Master) (a : Nat) (v : Word) : (s.capture m a v).jchans = s.jchans := rfl
@[simp] theorem State.capture_engines (s : State) (m : Master) (a : Nat) (v : Word) : (s.capture m a v).engines = s.engines := rfl
@[simp] theorem State.capture_hal (s : State) (m : Master) (a : Nat) (v : Word) : (s.capture m a v).hal = s.hal := rfl
@[simp] theorem State.capture_eths (s : State) (m : Master) (a : Nat) (v : Word) : (s.capture m a v).eths = s.eths := rfl
@[simp] theorem State.capture_lnk (s : State) (m : Master) (a : Nat) (v : Word) : (s.capture m a v).lnk = s.lnk := rfl
@[simp] theorem State.capture_pcie (s : State) (m : Master) (a : Nat) (v : Word) : (s.capture m a v).pcie = s.pcie := rfl
@[simp] theorem State.capture_smp (s : State) (m : Master) (a : Nat) (v : Word) : (s.capture m a v).smp = s.smp := rfl
@[simp] theorem State.capture_kps (s : State) (m : Master) (a : Nat) (v : Word) : (s.capture m a v).kps = s.kps := rfl
@[simp] theorem State.capture_thm (s : State) (m : Master) (a : Nat) (v : Word) : (s.capture m a v).thm = s.thm := rfl
@[simp] theorem State.capture_cals (s : State) (m : Master) (a : Nat) (v : Word) : (s.capture m a v).cals = s.cals := rfl
@[simp] theorem State.capture_calTurn (s : State) (m : Master) (a : Nat) (v : Word) : (s.capture m a v).calTurn = s.calTurn := rfl
@[simp] theorem State.capture_upd (s : State) (m : Master) (a : Nat) (v : Word) : (s.capture m a v).upd = s.upd := rfl
@[simp] theorem State.capture_tap (s : State) (m : Master) (a : Nat) (v : Word) : (s.capture m a v).tap = s.tap := rfl
@[simp] theorem State.capture_clocks (s : State) (m : Master) (a : Nat) (v : Word) : (s.capture m a v).clocks = s.clocks := rfl
@[simp] theorem State.capture_ticks (s : State) (m : Master) (a : Nat) (v : Word) : (s.capture m a v).ticks = s.ticks := rfl
@[simp] theorem State.capture_free (s : State) (m : Master) (a : Nat) (v : Word) : (s.capture m a v).free = s.free := rfl
@[simp] theorem State.capture_pending (s : State) (m : Master) (a : Nat) (v : Word) : (s.capture m a v).pending = s.pending := rfl

/-! ### stall -/

@[simp] theorem State.stall_now (s : State) (p : Nat) (w : Stalled) : (s.stall p w).now = s.now := rfl
@[simp] theorem State.stall_porst (s : State) (p : Nat) (w : Stalled) : (s.stall p w).porst = s.porst := rfl
@[simp] theorem State.stall_ul24 (s : State) (p : Nat) (w : Stalled) : (s.stall p w).ul24 = s.ul24 := rfl
@[simp] theorem State.stall_ftmStrap (s : State) (p : Nat) (w : Stalled) : (s.stall p w).ftmStrap = s.ftmStrap := rfl
@[simp] theorem State.stall_ftm (s : State) (p : Nat) (w : Stalled) : (s.stall p w).ftm = s.ftm := rfl
@[simp] theorem State.stall_devOp (s : State) (p : Nat) (w : Stalled) : (s.stall p w).devOp = s.devOp := rfl
@[simp] theorem State.stall_devOpBack (s : State) (p : Nat) (w : Stalled) : (s.stall p w).devOpBack = s.devOpBack := rfl
@[simp] theorem State.stall_bootFrom (s : State) (p : Nat) (w : Stalled) : (s.stall p w).bootFrom = s.bootFrom := rfl
@[simp] theorem State.stall_relAt (s : State) (p : Nat) (w : Stalled) : (s.stall p w).relAt = s.relAt := rfl
@[simp] theorem State.stall_sillAt (s : State) (p : Nat) (w : Stalled) : (s.stall p w).sillAt = s.sillAt := rfl
@[simp] theorem State.stall_kpsAt (s : State) (p : Nat) (w : Stalled) : (s.stall p w).kpsAt = s.kpsAt := rfl
@[simp] theorem State.stall_powerAt (s : State) (p : Nat) (w : Stalled) : (s.stall p w).powerAt = s.powerAt := rfl
@[simp] theorem State.stall_islandsAt (s : State) (p : Nat) (w : Stalled) : (s.stall p w).islandsAt = s.islandsAt := rfl
@[simp] theorem State.stall_appliesRecords (s : State) (p : Nat) (w : Stalled) : (s.stall p w).appliesRecords = s.appliesRecords := rfl
@[simp] theorem State.stall_regs (s : State) (p : Nat) (w : Stalled) : (s.stall p w).regs = s.regs := rfl
@[simp] theorem State.stall_active (s : State) (p : Nat) (w : Stalled) : (s.stall p w).active = s.active := rfl
@[simp] theorem State.stall_heldLow (s : State) (p : Nat) (w : Stalled) : (s.stall p w).heldLow = s.heldLow := rfl
@[simp] theorem State.stall_captures (s : State) (p : Nat) (w : Stalled) : (s.stall p w).captures = s.captures := rfl
@[simp] theorem State.stall_lastRead (s : State) (p : Nat) (w : Stalled) : (s.stall p w).lastRead = s.lastRead := rfl
@[simp] theorem State.stall_bar2Data (s : State) (p : Nat) (w : Stalled) : (s.stall p w).bar2Data = s.bar2Data := rfl
@[simp] theorem State.stall_waking (s : State) (p : Nat) (w : Stalled) : (s.stall p w).waking = s.waking := rfl
@[simp] theorem State.stall_stopPending (s : State) (p : Nat) (w : Stalled) : (s.stall p w).stopPending = s.stopPending := rfl
@[simp] theorem State.stall_rings (s : State) (p : Nat) (w : Stalled) : (s.stall p w).rings = s.rings := rfl
@[simp] theorem State.stall_band (s : State) (p : Nat) (w : Stalled) : (s.stall p w).band = s.band := rfl
@[simp] theorem State.stall_spool (s : State) (p : Nat) (w : Stalled) : (s.stall p w).spool = s.spool := rfl
@[simp] theorem State.stall_masks (s : State) (p : Nat) (w : Stalled) : (s.stall p w).masks = s.masks := rfl
@[simp] theorem State.stall_flash (s : State) (p : Nat) (w : Stalled) : (s.stall p w).flash = s.flash := rfl
@[simp] theorem State.stall_natShadow (s : State) (p : Nat) (w : Stalled) : (s.stall p w).natShadow = s.natShadow := rfl
@[simp] theorem State.stall_natActive (s : State) (p : Nat) (w : Stalled) : (s.stall p w).natActive = s.natActive := rfl
@[simp] theorem State.stall_widthShadow (s : State) (p : Nat) (w : Stalled) : (s.stall p w).widthShadow = s.widthShadow := rfl
@[simp] theorem State.stall_widthActive (s : State) (p : Nat) (w : Stalled) : (s.stall p w).widthActive = s.widthActive := rfl
@[simp] theorem State.stall_sine (s : State) (p : Nat) (w : Stalled) : (s.stall p w).sine = s.sine := rfl
@[simp] theorem State.stall_pvtTab (s : State) (p : Nat) (w : Stalled) : (s.stall p w).pvtTab = s.pvtTab := rfl
@[simp] theorem State.stall_ue (s : State) (p : Nat) (w : Stalled) : (s.stall p w).ue = s.ue := rfl
@[simp] theorem State.stall_ce (s : State) (p : Nat) (w : Stalled) : (s.stall p w).ce = s.ce := rfl
@[simp] theorem State.stall_eccCount (s : State) (p : Nat) (w : Stalled) : (s.stall p w).eccCount = s.eccCount := rfl
@[simp] theorem State.stall_mem (s : State) (p : Nat) (w : Stalled) : (s.stall p w).mem = s.mem := rfl
@[simp] theorem State.stall_memCfg (s : State) (p : Nat) (w : Stalled) : (s.stall p w).memCfg = s.memCfg := rfl
@[simp] theorem State.stall_scrubAt (s : State) (p : Nat) (w : Stalled) : (s.stall p w).scrubAt = s.scrubAt := rfl
@[simp] theorem State.stall_scrubbed (s : State) (p : Nat) (w : Stalled) : (s.stall p w).scrubbed = s.scrubbed := rfl
@[simp] theorem State.stall_chans (s : State) (p : Nat) (w : Stalled) : (s.stall p w).chans = s.chans := rfl
@[simp] theorem State.stall_axes (s : State) (p : Nat) (w : Stalled) : (s.stall p w).axes = s.axes := rfl
@[simp] theorem State.stall_mgroups (s : State) (p : Nat) (w : Stalled) : (s.stall p w).mgroups = s.mgroups := rfl
@[simp] theorem State.stall_msets (s : State) (p : Nat) (w : Stalled) : (s.stall p w).msets = s.msets := rfl
@[simp] theorem State.stall_jchans (s : State) (p : Nat) (w : Stalled) : (s.stall p w).jchans = s.jchans := rfl
@[simp] theorem State.stall_engines (s : State) (p : Nat) (w : Stalled) : (s.stall p w).engines = s.engines := rfl
@[simp] theorem State.stall_hal (s : State) (p : Nat) (w : Stalled) : (s.stall p w).hal = s.hal := rfl
@[simp] theorem State.stall_eths (s : State) (p : Nat) (w : Stalled) : (s.stall p w).eths = s.eths := rfl
@[simp] theorem State.stall_lnk (s : State) (p : Nat) (w : Stalled) : (s.stall p w).lnk = s.lnk := rfl
@[simp] theorem State.stall_pcie (s : State) (p : Nat) (w : Stalled) : (s.stall p w).pcie = s.pcie := rfl
@[simp] theorem State.stall_smp (s : State) (p : Nat) (w : Stalled) : (s.stall p w).smp = s.smp := rfl
@[simp] theorem State.stall_kps (s : State) (p : Nat) (w : Stalled) : (s.stall p w).kps = s.kps := rfl
@[simp] theorem State.stall_thm (s : State) (p : Nat) (w : Stalled) : (s.stall p w).thm = s.thm := rfl
@[simp] theorem State.stall_cals (s : State) (p : Nat) (w : Stalled) : (s.stall p w).cals = s.cals := rfl
@[simp] theorem State.stall_calTurn (s : State) (p : Nat) (w : Stalled) : (s.stall p w).calTurn = s.calTurn := rfl
@[simp] theorem State.stall_upd (s : State) (p : Nat) (w : Stalled) : (s.stall p w).upd = s.upd := rfl
@[simp] theorem State.stall_tap (s : State) (p : Nat) (w : Stalled) : (s.stall p w).tap = s.tap := rfl
@[simp] theorem State.stall_clocks (s : State) (p : Nat) (w : Stalled) : (s.stall p w).clocks = s.clocks := rfl
@[simp] theorem State.stall_ticks (s : State) (p : Nat) (w : Stalled) : (s.stall p w).ticks = s.ticks := rfl
@[simp] theorem State.stall_free (s : State) (p : Nat) (w : Stalled) : (s.stall p w).free = s.free := rfl
@[simp] theorem State.stall_pending (s : State) (p : Nat) (w : Stalled) : (s.stall p w).pending = s.pending := rfl

/-! ### modSmp -/

@[simp] theorem State.modSmp_now (s : State) (f : Smp → Smp) : (s.modSmp f).now = s.now := rfl
@[simp] theorem State.modSmp_porst (s : State) (f : Smp → Smp) : (s.modSmp f).porst = s.porst := rfl
@[simp] theorem State.modSmp_ul24 (s : State) (f : Smp → Smp) : (s.modSmp f).ul24 = s.ul24 := rfl
@[simp] theorem State.modSmp_ftmStrap (s : State) (f : Smp → Smp) : (s.modSmp f).ftmStrap = s.ftmStrap := rfl
@[simp] theorem State.modSmp_ftm (s : State) (f : Smp → Smp) : (s.modSmp f).ftm = s.ftm := rfl
@[simp] theorem State.modSmp_devOp (s : State) (f : Smp → Smp) : (s.modSmp f).devOp = s.devOp := rfl
@[simp] theorem State.modSmp_devOpBack (s : State) (f : Smp → Smp) : (s.modSmp f).devOpBack = s.devOpBack := rfl
@[simp] theorem State.modSmp_bootFrom (s : State) (f : Smp → Smp) : (s.modSmp f).bootFrom = s.bootFrom := rfl
@[simp] theorem State.modSmp_relAt (s : State) (f : Smp → Smp) : (s.modSmp f).relAt = s.relAt := rfl
@[simp] theorem State.modSmp_sillAt (s : State) (f : Smp → Smp) : (s.modSmp f).sillAt = s.sillAt := rfl
@[simp] theorem State.modSmp_kpsAt (s : State) (f : Smp → Smp) : (s.modSmp f).kpsAt = s.kpsAt := rfl
@[simp] theorem State.modSmp_powerAt (s : State) (f : Smp → Smp) : (s.modSmp f).powerAt = s.powerAt := rfl
@[simp] theorem State.modSmp_islandsAt (s : State) (f : Smp → Smp) : (s.modSmp f).islandsAt = s.islandsAt := rfl
@[simp] theorem State.modSmp_appliesRecords (s : State) (f : Smp → Smp) : (s.modSmp f).appliesRecords = s.appliesRecords := rfl
@[simp] theorem State.modSmp_regs (s : State) (f : Smp → Smp) : (s.modSmp f).regs = s.regs := rfl
@[simp] theorem State.modSmp_active (s : State) (f : Smp → Smp) : (s.modSmp f).active = s.active := rfl
@[simp] theorem State.modSmp_heldLow (s : State) (f : Smp → Smp) : (s.modSmp f).heldLow = s.heldLow := rfl
@[simp] theorem State.modSmp_captures (s : State) (f : Smp → Smp) : (s.modSmp f).captures = s.captures := rfl
@[simp] theorem State.modSmp_lastRead (s : State) (f : Smp → Smp) : (s.modSmp f).lastRead = s.lastRead := rfl
@[simp] theorem State.modSmp_bar2Data (s : State) (f : Smp → Smp) : (s.modSmp f).bar2Data = s.bar2Data := rfl
@[simp] theorem State.modSmp_waking (s : State) (f : Smp → Smp) : (s.modSmp f).waking = s.waking := rfl
@[simp] theorem State.modSmp_stopPending (s : State) (f : Smp → Smp) : (s.modSmp f).stopPending = s.stopPending := rfl
@[simp] theorem State.modSmp_ports (s : State) (f : Smp → Smp) : (s.modSmp f).ports = s.ports := rfl
@[simp] theorem State.modSmp_rings (s : State) (f : Smp → Smp) : (s.modSmp f).rings = s.rings := rfl
@[simp] theorem State.modSmp_band (s : State) (f : Smp → Smp) : (s.modSmp f).band = s.band := rfl
@[simp] theorem State.modSmp_spool (s : State) (f : Smp → Smp) : (s.modSmp f).spool = s.spool := rfl
@[simp] theorem State.modSmp_masks (s : State) (f : Smp → Smp) : (s.modSmp f).masks = s.masks := rfl
@[simp] theorem State.modSmp_flash (s : State) (f : Smp → Smp) : (s.modSmp f).flash = s.flash := rfl
@[simp] theorem State.modSmp_natShadow (s : State) (f : Smp → Smp) : (s.modSmp f).natShadow = s.natShadow := rfl
@[simp] theorem State.modSmp_natActive (s : State) (f : Smp → Smp) : (s.modSmp f).natActive = s.natActive := rfl
@[simp] theorem State.modSmp_widthShadow (s : State) (f : Smp → Smp) : (s.modSmp f).widthShadow = s.widthShadow := rfl
@[simp] theorem State.modSmp_widthActive (s : State) (f : Smp → Smp) : (s.modSmp f).widthActive = s.widthActive := rfl
@[simp] theorem State.modSmp_sine (s : State) (f : Smp → Smp) : (s.modSmp f).sine = s.sine := rfl
@[simp] theorem State.modSmp_pvtTab (s : State) (f : Smp → Smp) : (s.modSmp f).pvtTab = s.pvtTab := rfl
@[simp] theorem State.modSmp_ue (s : State) (f : Smp → Smp) : (s.modSmp f).ue = s.ue := rfl
@[simp] theorem State.modSmp_ce (s : State) (f : Smp → Smp) : (s.modSmp f).ce = s.ce := rfl
@[simp] theorem State.modSmp_eccCount (s : State) (f : Smp → Smp) : (s.modSmp f).eccCount = s.eccCount := rfl
@[simp] theorem State.modSmp_mem (s : State) (f : Smp → Smp) : (s.modSmp f).mem = s.mem := rfl
@[simp] theorem State.modSmp_memCfg (s : State) (f : Smp → Smp) : (s.modSmp f).memCfg = s.memCfg := rfl
@[simp] theorem State.modSmp_scrubAt (s : State) (f : Smp → Smp) : (s.modSmp f).scrubAt = s.scrubAt := rfl
@[simp] theorem State.modSmp_scrubbed (s : State) (f : Smp → Smp) : (s.modSmp f).scrubbed = s.scrubbed := rfl
@[simp] theorem State.modSmp_chans (s : State) (f : Smp → Smp) : (s.modSmp f).chans = s.chans := rfl
@[simp] theorem State.modSmp_axes (s : State) (f : Smp → Smp) : (s.modSmp f).axes = s.axes := rfl
@[simp] theorem State.modSmp_mgroups (s : State) (f : Smp → Smp) : (s.modSmp f).mgroups = s.mgroups := rfl
@[simp] theorem State.modSmp_msets (s : State) (f : Smp → Smp) : (s.modSmp f).msets = s.msets := rfl
@[simp] theorem State.modSmp_jchans (s : State) (f : Smp → Smp) : (s.modSmp f).jchans = s.jchans := rfl
@[simp] theorem State.modSmp_engines (s : State) (f : Smp → Smp) : (s.modSmp f).engines = s.engines := rfl
@[simp] theorem State.modSmp_hal (s : State) (f : Smp → Smp) : (s.modSmp f).hal = s.hal := rfl
@[simp] theorem State.modSmp_eths (s : State) (f : Smp → Smp) : (s.modSmp f).eths = s.eths := rfl
@[simp] theorem State.modSmp_lnk (s : State) (f : Smp → Smp) : (s.modSmp f).lnk = s.lnk := rfl
@[simp] theorem State.modSmp_pcie (s : State) (f : Smp → Smp) : (s.modSmp f).pcie = s.pcie := rfl
@[simp] theorem State.modSmp_kps (s : State) (f : Smp → Smp) : (s.modSmp f).kps = s.kps := rfl
@[simp] theorem State.modSmp_thm (s : State) (f : Smp → Smp) : (s.modSmp f).thm = s.thm := rfl
@[simp] theorem State.modSmp_cals (s : State) (f : Smp → Smp) : (s.modSmp f).cals = s.cals := rfl
@[simp] theorem State.modSmp_calTurn (s : State) (f : Smp → Smp) : (s.modSmp f).calTurn = s.calTurn := rfl
@[simp] theorem State.modSmp_upd (s : State) (f : Smp → Smp) : (s.modSmp f).upd = s.upd := rfl
@[simp] theorem State.modSmp_tap (s : State) (f : Smp → Smp) : (s.modSmp f).tap = s.tap := rfl
@[simp] theorem State.modSmp_clocks (s : State) (f : Smp → Smp) : (s.modSmp f).clocks = s.clocks := rfl
@[simp] theorem State.modSmp_ticks (s : State) (f : Smp → Smp) : (s.modSmp f).ticks = s.ticks := rfl
@[simp] theorem State.modSmp_free (s : State) (f : Smp → Smp) : (s.modSmp f).free = s.free := rfl
@[simp] theorem State.modSmp_pending (s : State) (f : Smp → Smp) : (s.modSmp f).pending = s.pending := rfl

/-! ### modPcie -/

@[simp] theorem State.modPcie_now (s : State) (f : Pcie → Pcie) : (s.modPcie f).now = s.now := rfl
@[simp] theorem State.modPcie_porst (s : State) (f : Pcie → Pcie) : (s.modPcie f).porst = s.porst := rfl
@[simp] theorem State.modPcie_ul24 (s : State) (f : Pcie → Pcie) : (s.modPcie f).ul24 = s.ul24 := rfl
@[simp] theorem State.modPcie_ftmStrap (s : State) (f : Pcie → Pcie) : (s.modPcie f).ftmStrap = s.ftmStrap := rfl
@[simp] theorem State.modPcie_ftm (s : State) (f : Pcie → Pcie) : (s.modPcie f).ftm = s.ftm := rfl
@[simp] theorem State.modPcie_devOp (s : State) (f : Pcie → Pcie) : (s.modPcie f).devOp = s.devOp := rfl
@[simp] theorem State.modPcie_devOpBack (s : State) (f : Pcie → Pcie) : (s.modPcie f).devOpBack = s.devOpBack := rfl
@[simp] theorem State.modPcie_bootFrom (s : State) (f : Pcie → Pcie) : (s.modPcie f).bootFrom = s.bootFrom := rfl
@[simp] theorem State.modPcie_relAt (s : State) (f : Pcie → Pcie) : (s.modPcie f).relAt = s.relAt := rfl
@[simp] theorem State.modPcie_sillAt (s : State) (f : Pcie → Pcie) : (s.modPcie f).sillAt = s.sillAt := rfl
@[simp] theorem State.modPcie_kpsAt (s : State) (f : Pcie → Pcie) : (s.modPcie f).kpsAt = s.kpsAt := rfl
@[simp] theorem State.modPcie_powerAt (s : State) (f : Pcie → Pcie) : (s.modPcie f).powerAt = s.powerAt := rfl
@[simp] theorem State.modPcie_islandsAt (s : State) (f : Pcie → Pcie) : (s.modPcie f).islandsAt = s.islandsAt := rfl
@[simp] theorem State.modPcie_appliesRecords (s : State) (f : Pcie → Pcie) : (s.modPcie f).appliesRecords = s.appliesRecords := rfl
@[simp] theorem State.modPcie_regs (s : State) (f : Pcie → Pcie) : (s.modPcie f).regs = s.regs := rfl
@[simp] theorem State.modPcie_active (s : State) (f : Pcie → Pcie) : (s.modPcie f).active = s.active := rfl
@[simp] theorem State.modPcie_heldLow (s : State) (f : Pcie → Pcie) : (s.modPcie f).heldLow = s.heldLow := rfl
@[simp] theorem State.modPcie_captures (s : State) (f : Pcie → Pcie) : (s.modPcie f).captures = s.captures := rfl
@[simp] theorem State.modPcie_lastRead (s : State) (f : Pcie → Pcie) : (s.modPcie f).lastRead = s.lastRead := rfl
@[simp] theorem State.modPcie_bar2Data (s : State) (f : Pcie → Pcie) : (s.modPcie f).bar2Data = s.bar2Data := rfl
@[simp] theorem State.modPcie_waking (s : State) (f : Pcie → Pcie) : (s.modPcie f).waking = s.waking := rfl
@[simp] theorem State.modPcie_stopPending (s : State) (f : Pcie → Pcie) : (s.modPcie f).stopPending = s.stopPending := rfl
@[simp] theorem State.modPcie_ports (s : State) (f : Pcie → Pcie) : (s.modPcie f).ports = s.ports := rfl
@[simp] theorem State.modPcie_rings (s : State) (f : Pcie → Pcie) : (s.modPcie f).rings = s.rings := rfl
@[simp] theorem State.modPcie_band (s : State) (f : Pcie → Pcie) : (s.modPcie f).band = s.band := rfl
@[simp] theorem State.modPcie_spool (s : State) (f : Pcie → Pcie) : (s.modPcie f).spool = s.spool := rfl
@[simp] theorem State.modPcie_masks (s : State) (f : Pcie → Pcie) : (s.modPcie f).masks = s.masks := rfl
@[simp] theorem State.modPcie_flash (s : State) (f : Pcie → Pcie) : (s.modPcie f).flash = s.flash := rfl
@[simp] theorem State.modPcie_natShadow (s : State) (f : Pcie → Pcie) : (s.modPcie f).natShadow = s.natShadow := rfl
@[simp] theorem State.modPcie_natActive (s : State) (f : Pcie → Pcie) : (s.modPcie f).natActive = s.natActive := rfl
@[simp] theorem State.modPcie_widthShadow (s : State) (f : Pcie → Pcie) : (s.modPcie f).widthShadow = s.widthShadow := rfl
@[simp] theorem State.modPcie_widthActive (s : State) (f : Pcie → Pcie) : (s.modPcie f).widthActive = s.widthActive := rfl
@[simp] theorem State.modPcie_sine (s : State) (f : Pcie → Pcie) : (s.modPcie f).sine = s.sine := rfl
@[simp] theorem State.modPcie_pvtTab (s : State) (f : Pcie → Pcie) : (s.modPcie f).pvtTab = s.pvtTab := rfl
@[simp] theorem State.modPcie_ue (s : State) (f : Pcie → Pcie) : (s.modPcie f).ue = s.ue := rfl
@[simp] theorem State.modPcie_ce (s : State) (f : Pcie → Pcie) : (s.modPcie f).ce = s.ce := rfl
@[simp] theorem State.modPcie_eccCount (s : State) (f : Pcie → Pcie) : (s.modPcie f).eccCount = s.eccCount := rfl
@[simp] theorem State.modPcie_mem (s : State) (f : Pcie → Pcie) : (s.modPcie f).mem = s.mem := rfl
@[simp] theorem State.modPcie_memCfg (s : State) (f : Pcie → Pcie) : (s.modPcie f).memCfg = s.memCfg := rfl
@[simp] theorem State.modPcie_scrubAt (s : State) (f : Pcie → Pcie) : (s.modPcie f).scrubAt = s.scrubAt := rfl
@[simp] theorem State.modPcie_scrubbed (s : State) (f : Pcie → Pcie) : (s.modPcie f).scrubbed = s.scrubbed := rfl
@[simp] theorem State.modPcie_chans (s : State) (f : Pcie → Pcie) : (s.modPcie f).chans = s.chans := rfl
@[simp] theorem State.modPcie_axes (s : State) (f : Pcie → Pcie) : (s.modPcie f).axes = s.axes := rfl
@[simp] theorem State.modPcie_mgroups (s : State) (f : Pcie → Pcie) : (s.modPcie f).mgroups = s.mgroups := rfl
@[simp] theorem State.modPcie_msets (s : State) (f : Pcie → Pcie) : (s.modPcie f).msets = s.msets := rfl
@[simp] theorem State.modPcie_jchans (s : State) (f : Pcie → Pcie) : (s.modPcie f).jchans = s.jchans := rfl
@[simp] theorem State.modPcie_engines (s : State) (f : Pcie → Pcie) : (s.modPcie f).engines = s.engines := rfl
@[simp] theorem State.modPcie_hal (s : State) (f : Pcie → Pcie) : (s.modPcie f).hal = s.hal := rfl
@[simp] theorem State.modPcie_eths (s : State) (f : Pcie → Pcie) : (s.modPcie f).eths = s.eths := rfl
@[simp] theorem State.modPcie_lnk (s : State) (f : Pcie → Pcie) : (s.modPcie f).lnk = s.lnk := rfl
@[simp] theorem State.modPcie_smp (s : State) (f : Pcie → Pcie) : (s.modPcie f).smp = s.smp := rfl
@[simp] theorem State.modPcie_kps (s : State) (f : Pcie → Pcie) : (s.modPcie f).kps = s.kps := rfl
@[simp] theorem State.modPcie_thm (s : State) (f : Pcie → Pcie) : (s.modPcie f).thm = s.thm := rfl
@[simp] theorem State.modPcie_cals (s : State) (f : Pcie → Pcie) : (s.modPcie f).cals = s.cals := rfl
@[simp] theorem State.modPcie_calTurn (s : State) (f : Pcie → Pcie) : (s.modPcie f).calTurn = s.calTurn := rfl
@[simp] theorem State.modPcie_upd (s : State) (f : Pcie → Pcie) : (s.modPcie f).upd = s.upd := rfl
@[simp] theorem State.modPcie_tap (s : State) (f : Pcie → Pcie) : (s.modPcie f).tap = s.tap := rfl
@[simp] theorem State.modPcie_clocks (s : State) (f : Pcie → Pcie) : (s.modPcie f).clocks = s.clocks := rfl
@[simp] theorem State.modPcie_ticks (s : State) (f : Pcie → Pcie) : (s.modPcie f).ticks = s.ticks := rfl
@[simp] theorem State.modPcie_free (s : State) (f : Pcie → Pcie) : (s.modPcie f).free = s.free := rfl
@[simp] theorem State.modPcie_pending (s : State) (f : Pcie → Pcie) : (s.modPcie f).pending = s.pending := rfl

/-! ### modThm -/

@[simp] theorem State.modThm_now (s : State) (f : Thm → Thm) : (s.modThm f).now = s.now := rfl
@[simp] theorem State.modThm_porst (s : State) (f : Thm → Thm) : (s.modThm f).porst = s.porst := rfl
@[simp] theorem State.modThm_ul24 (s : State) (f : Thm → Thm) : (s.modThm f).ul24 = s.ul24 := rfl
@[simp] theorem State.modThm_ftmStrap (s : State) (f : Thm → Thm) : (s.modThm f).ftmStrap = s.ftmStrap := rfl
@[simp] theorem State.modThm_ftm (s : State) (f : Thm → Thm) : (s.modThm f).ftm = s.ftm := rfl
@[simp] theorem State.modThm_devOp (s : State) (f : Thm → Thm) : (s.modThm f).devOp = s.devOp := rfl
@[simp] theorem State.modThm_devOpBack (s : State) (f : Thm → Thm) : (s.modThm f).devOpBack = s.devOpBack := rfl
@[simp] theorem State.modThm_bootFrom (s : State) (f : Thm → Thm) : (s.modThm f).bootFrom = s.bootFrom := rfl
@[simp] theorem State.modThm_relAt (s : State) (f : Thm → Thm) : (s.modThm f).relAt = s.relAt := rfl
@[simp] theorem State.modThm_sillAt (s : State) (f : Thm → Thm) : (s.modThm f).sillAt = s.sillAt := rfl
@[simp] theorem State.modThm_kpsAt (s : State) (f : Thm → Thm) : (s.modThm f).kpsAt = s.kpsAt := rfl
@[simp] theorem State.modThm_powerAt (s : State) (f : Thm → Thm) : (s.modThm f).powerAt = s.powerAt := rfl
@[simp] theorem State.modThm_islandsAt (s : State) (f : Thm → Thm) : (s.modThm f).islandsAt = s.islandsAt := rfl
@[simp] theorem State.modThm_appliesRecords (s : State) (f : Thm → Thm) : (s.modThm f).appliesRecords = s.appliesRecords := rfl
@[simp] theorem State.modThm_regs (s : State) (f : Thm → Thm) : (s.modThm f).regs = s.regs := rfl
@[simp] theorem State.modThm_active (s : State) (f : Thm → Thm) : (s.modThm f).active = s.active := rfl
@[simp] theorem State.modThm_heldLow (s : State) (f : Thm → Thm) : (s.modThm f).heldLow = s.heldLow := rfl
@[simp] theorem State.modThm_captures (s : State) (f : Thm → Thm) : (s.modThm f).captures = s.captures := rfl
@[simp] theorem State.modThm_lastRead (s : State) (f : Thm → Thm) : (s.modThm f).lastRead = s.lastRead := rfl
@[simp] theorem State.modThm_bar2Data (s : State) (f : Thm → Thm) : (s.modThm f).bar2Data = s.bar2Data := rfl
@[simp] theorem State.modThm_waking (s : State) (f : Thm → Thm) : (s.modThm f).waking = s.waking := rfl
@[simp] theorem State.modThm_stopPending (s : State) (f : Thm → Thm) : (s.modThm f).stopPending = s.stopPending := rfl
@[simp] theorem State.modThm_ports (s : State) (f : Thm → Thm) : (s.modThm f).ports = s.ports := rfl
@[simp] theorem State.modThm_rings (s : State) (f : Thm → Thm) : (s.modThm f).rings = s.rings := rfl
@[simp] theorem State.modThm_band (s : State) (f : Thm → Thm) : (s.modThm f).band = s.band := rfl
@[simp] theorem State.modThm_spool (s : State) (f : Thm → Thm) : (s.modThm f).spool = s.spool := rfl
@[simp] theorem State.modThm_masks (s : State) (f : Thm → Thm) : (s.modThm f).masks = s.masks := rfl
@[simp] theorem State.modThm_flash (s : State) (f : Thm → Thm) : (s.modThm f).flash = s.flash := rfl
@[simp] theorem State.modThm_natShadow (s : State) (f : Thm → Thm) : (s.modThm f).natShadow = s.natShadow := rfl
@[simp] theorem State.modThm_natActive (s : State) (f : Thm → Thm) : (s.modThm f).natActive = s.natActive := rfl
@[simp] theorem State.modThm_widthShadow (s : State) (f : Thm → Thm) : (s.modThm f).widthShadow = s.widthShadow := rfl
@[simp] theorem State.modThm_widthActive (s : State) (f : Thm → Thm) : (s.modThm f).widthActive = s.widthActive := rfl
@[simp] theorem State.modThm_sine (s : State) (f : Thm → Thm) : (s.modThm f).sine = s.sine := rfl
@[simp] theorem State.modThm_pvtTab (s : State) (f : Thm → Thm) : (s.modThm f).pvtTab = s.pvtTab := rfl
@[simp] theorem State.modThm_ue (s : State) (f : Thm → Thm) : (s.modThm f).ue = s.ue := rfl
@[simp] theorem State.modThm_ce (s : State) (f : Thm → Thm) : (s.modThm f).ce = s.ce := rfl
@[simp] theorem State.modThm_eccCount (s : State) (f : Thm → Thm) : (s.modThm f).eccCount = s.eccCount := rfl
@[simp] theorem State.modThm_mem (s : State) (f : Thm → Thm) : (s.modThm f).mem = s.mem := rfl
@[simp] theorem State.modThm_memCfg (s : State) (f : Thm → Thm) : (s.modThm f).memCfg = s.memCfg := rfl
@[simp] theorem State.modThm_scrubAt (s : State) (f : Thm → Thm) : (s.modThm f).scrubAt = s.scrubAt := rfl
@[simp] theorem State.modThm_scrubbed (s : State) (f : Thm → Thm) : (s.modThm f).scrubbed = s.scrubbed := rfl
@[simp] theorem State.modThm_chans (s : State) (f : Thm → Thm) : (s.modThm f).chans = s.chans := rfl
@[simp] theorem State.modThm_axes (s : State) (f : Thm → Thm) : (s.modThm f).axes = s.axes := rfl
@[simp] theorem State.modThm_mgroups (s : State) (f : Thm → Thm) : (s.modThm f).mgroups = s.mgroups := rfl
@[simp] theorem State.modThm_msets (s : State) (f : Thm → Thm) : (s.modThm f).msets = s.msets := rfl
@[simp] theorem State.modThm_jchans (s : State) (f : Thm → Thm) : (s.modThm f).jchans = s.jchans := rfl
@[simp] theorem State.modThm_engines (s : State) (f : Thm → Thm) : (s.modThm f).engines = s.engines := rfl
@[simp] theorem State.modThm_hal (s : State) (f : Thm → Thm) : (s.modThm f).hal = s.hal := rfl
@[simp] theorem State.modThm_eths (s : State) (f : Thm → Thm) : (s.modThm f).eths = s.eths := rfl
@[simp] theorem State.modThm_lnk (s : State) (f : Thm → Thm) : (s.modThm f).lnk = s.lnk := rfl
@[simp] theorem State.modThm_pcie (s : State) (f : Thm → Thm) : (s.modThm f).pcie = s.pcie := rfl
@[simp] theorem State.modThm_smp (s : State) (f : Thm → Thm) : (s.modThm f).smp = s.smp := rfl
@[simp] theorem State.modThm_kps (s : State) (f : Thm → Thm) : (s.modThm f).kps = s.kps := rfl
@[simp] theorem State.modThm_cals (s : State) (f : Thm → Thm) : (s.modThm f).cals = s.cals := rfl
@[simp] theorem State.modThm_calTurn (s : State) (f : Thm → Thm) : (s.modThm f).calTurn = s.calTurn := rfl
@[simp] theorem State.modThm_upd (s : State) (f : Thm → Thm) : (s.modThm f).upd = s.upd := rfl
@[simp] theorem State.modThm_tap (s : State) (f : Thm → Thm) : (s.modThm f).tap = s.tap := rfl
@[simp] theorem State.modThm_clocks (s : State) (f : Thm → Thm) : (s.modThm f).clocks = s.clocks := rfl
@[simp] theorem State.modThm_ticks (s : State) (f : Thm → Thm) : (s.modThm f).ticks = s.ticks := rfl
@[simp] theorem State.modThm_free (s : State) (f : Thm → Thm) : (s.modThm f).free = s.free := rfl
@[simp] theorem State.modThm_pending (s : State) (f : Thm → Thm) : (s.modThm f).pending = s.pending := rfl

/-! ### uncapture -/

@[simp] theorem State.uncapture_now (s : State) (m : Master) (a : Nat) : (s.uncapture m a).now = s.now := rfl
@[simp] theorem State.uncapture_porst (s : State) (m : Master) (a : Nat) : (s.uncapture m a).porst = s.porst := rfl
@[simp] theorem State.uncapture_ul24 (s : State) (m : Master) (a : Nat) : (s.uncapture m a).ul24 = s.ul24 := rfl
@[simp] theorem State.uncapture_ftmStrap (s : State) (m : Master) (a : Nat) : (s.uncapture m a).ftmStrap = s.ftmStrap := rfl
@[simp] theorem State.uncapture_ftm (s : State) (m : Master) (a : Nat) : (s.uncapture m a).ftm = s.ftm := rfl
@[simp] theorem State.uncapture_devOp (s : State) (m : Master) (a : Nat) : (s.uncapture m a).devOp = s.devOp := rfl
@[simp] theorem State.uncapture_devOpBack (s : State) (m : Master) (a : Nat) : (s.uncapture m a).devOpBack = s.devOpBack := rfl
@[simp] theorem State.uncapture_bootFrom (s : State) (m : Master) (a : Nat) : (s.uncapture m a).bootFrom = s.bootFrom := rfl
@[simp] theorem State.uncapture_relAt (s : State) (m : Master) (a : Nat) : (s.uncapture m a).relAt = s.relAt := rfl
@[simp] theorem State.uncapture_sillAt (s : State) (m : Master) (a : Nat) : (s.uncapture m a).sillAt = s.sillAt := rfl
@[simp] theorem State.uncapture_kpsAt (s : State) (m : Master) (a : Nat) : (s.uncapture m a).kpsAt = s.kpsAt := rfl
@[simp] theorem State.uncapture_powerAt (s : State) (m : Master) (a : Nat) : (s.uncapture m a).powerAt = s.powerAt := rfl
@[simp] theorem State.uncapture_islandsAt (s : State) (m : Master) (a : Nat) : (s.uncapture m a).islandsAt = s.islandsAt := rfl
@[simp] theorem State.uncapture_appliesRecords (s : State) (m : Master) (a : Nat) : (s.uncapture m a).appliesRecords = s.appliesRecords := rfl
@[simp] theorem State.uncapture_regs (s : State) (m : Master) (a : Nat) : (s.uncapture m a).regs = s.regs := rfl
@[simp] theorem State.uncapture_active (s : State) (m : Master) (a : Nat) : (s.uncapture m a).active = s.active := rfl
@[simp] theorem State.uncapture_heldLow (s : State) (m : Master) (a : Nat) : (s.uncapture m a).heldLow = s.heldLow := rfl
@[simp] theorem State.uncapture_lastRead (s : State) (m : Master) (a : Nat) : (s.uncapture m a).lastRead = s.lastRead := rfl
@[simp] theorem State.uncapture_bar2Data (s : State) (m : Master) (a : Nat) : (s.uncapture m a).bar2Data = s.bar2Data := rfl
@[simp] theorem State.uncapture_waking (s : State) (m : Master) (a : Nat) : (s.uncapture m a).waking = s.waking := rfl
@[simp] theorem State.uncapture_stopPending (s : State) (m : Master) (a : Nat) : (s.uncapture m a).stopPending = s.stopPending := rfl
@[simp] theorem State.uncapture_ports (s : State) (m : Master) (a : Nat) : (s.uncapture m a).ports = s.ports := rfl
@[simp] theorem State.uncapture_rings (s : State) (m : Master) (a : Nat) : (s.uncapture m a).rings = s.rings := rfl
@[simp] theorem State.uncapture_band (s : State) (m : Master) (a : Nat) : (s.uncapture m a).band = s.band := rfl
@[simp] theorem State.uncapture_spool (s : State) (m : Master) (a : Nat) : (s.uncapture m a).spool = s.spool := rfl
@[simp] theorem State.uncapture_masks (s : State) (m : Master) (a : Nat) : (s.uncapture m a).masks = s.masks := rfl
@[simp] theorem State.uncapture_flash (s : State) (m : Master) (a : Nat) : (s.uncapture m a).flash = s.flash := rfl
@[simp] theorem State.uncapture_natShadow (s : State) (m : Master) (a : Nat) : (s.uncapture m a).natShadow = s.natShadow := rfl
@[simp] theorem State.uncapture_natActive (s : State) (m : Master) (a : Nat) : (s.uncapture m a).natActive = s.natActive := rfl
@[simp] theorem State.uncapture_widthShadow (s : State) (m : Master) (a : Nat) : (s.uncapture m a).widthShadow = s.widthShadow := rfl
@[simp] theorem State.uncapture_widthActive (s : State) (m : Master) (a : Nat) : (s.uncapture m a).widthActive = s.widthActive := rfl
@[simp] theorem State.uncapture_sine (s : State) (m : Master) (a : Nat) : (s.uncapture m a).sine = s.sine := rfl
@[simp] theorem State.uncapture_pvtTab (s : State) (m : Master) (a : Nat) : (s.uncapture m a).pvtTab = s.pvtTab := rfl
@[simp] theorem State.uncapture_ue (s : State) (m : Master) (a : Nat) : (s.uncapture m a).ue = s.ue := rfl
@[simp] theorem State.uncapture_ce (s : State) (m : Master) (a : Nat) : (s.uncapture m a).ce = s.ce := rfl
@[simp] theorem State.uncapture_eccCount (s : State) (m : Master) (a : Nat) : (s.uncapture m a).eccCount = s.eccCount := rfl
@[simp] theorem State.uncapture_mem (s : State) (m : Master) (a : Nat) : (s.uncapture m a).mem = s.mem := rfl
@[simp] theorem State.uncapture_memCfg (s : State) (m : Master) (a : Nat) : (s.uncapture m a).memCfg = s.memCfg := rfl
@[simp] theorem State.uncapture_scrubAt (s : State) (m : Master) (a : Nat) : (s.uncapture m a).scrubAt = s.scrubAt := rfl
@[simp] theorem State.uncapture_scrubbed (s : State) (m : Master) (a : Nat) : (s.uncapture m a).scrubbed = s.scrubbed := rfl
@[simp] theorem State.uncapture_chans (s : State) (m : Master) (a : Nat) : (s.uncapture m a).chans = s.chans := rfl
@[simp] theorem State.uncapture_axes (s : State) (m : Master) (a : Nat) : (s.uncapture m a).axes = s.axes := rfl
@[simp] theorem State.uncapture_mgroups (s : State) (m : Master) (a : Nat) : (s.uncapture m a).mgroups = s.mgroups := rfl
@[simp] theorem State.uncapture_msets (s : State) (m : Master) (a : Nat) : (s.uncapture m a).msets = s.msets := rfl
@[simp] theorem State.uncapture_jchans (s : State) (m : Master) (a : Nat) : (s.uncapture m a).jchans = s.jchans := rfl
@[simp] theorem State.uncapture_engines (s : State) (m : Master) (a : Nat) : (s.uncapture m a).engines = s.engines := rfl
@[simp] theorem State.uncapture_hal (s : State) (m : Master) (a : Nat) : (s.uncapture m a).hal = s.hal := rfl
@[simp] theorem State.uncapture_eths (s : State) (m : Master) (a : Nat) : (s.uncapture m a).eths = s.eths := rfl
@[simp] theorem State.uncapture_lnk (s : State) (m : Master) (a : Nat) : (s.uncapture m a).lnk = s.lnk := rfl
@[simp] theorem State.uncapture_pcie (s : State) (m : Master) (a : Nat) : (s.uncapture m a).pcie = s.pcie := rfl
@[simp] theorem State.uncapture_smp (s : State) (m : Master) (a : Nat) : (s.uncapture m a).smp = s.smp := rfl
@[simp] theorem State.uncapture_kps (s : State) (m : Master) (a : Nat) : (s.uncapture m a).kps = s.kps := rfl
@[simp] theorem State.uncapture_thm (s : State) (m : Master) (a : Nat) : (s.uncapture m a).thm = s.thm := rfl
@[simp] theorem State.uncapture_cals (s : State) (m : Master) (a : Nat) : (s.uncapture m a).cals = s.cals := rfl
@[simp] theorem State.uncapture_calTurn (s : State) (m : Master) (a : Nat) : (s.uncapture m a).calTurn = s.calTurn := rfl
@[simp] theorem State.uncapture_upd (s : State) (m : Master) (a : Nat) : (s.uncapture m a).upd = s.upd := rfl
@[simp] theorem State.uncapture_tap (s : State) (m : Master) (a : Nat) : (s.uncapture m a).tap = s.tap := rfl
@[simp] theorem State.uncapture_clocks (s : State) (m : Master) (a : Nat) : (s.uncapture m a).clocks = s.clocks := rfl
@[simp] theorem State.uncapture_ticks (s : State) (m : Master) (a : Nat) : (s.uncapture m a).ticks = s.ticks := rfl
@[simp] theorem State.uncapture_free (s : State) (m : Master) (a : Nat) : (s.uncapture m a).free = s.free := rfl
@[simp] theorem State.uncapture_pending (s : State) (m : Master) (a : Nat) : (s.uncapture m a).pending = s.pending := rfl

/-! ### answer -/

@[simp] theorem State.answer_now (s : State) (m : Master) (bs : List Byte) : (s.answer m bs).now = s.now := rfl
@[simp] theorem State.answer_porst (s : State) (m : Master) (bs : List Byte) : (s.answer m bs).porst = s.porst := rfl
@[simp] theorem State.answer_ul24 (s : State) (m : Master) (bs : List Byte) : (s.answer m bs).ul24 = s.ul24 := rfl
@[simp] theorem State.answer_ftmStrap (s : State) (m : Master) (bs : List Byte) : (s.answer m bs).ftmStrap = s.ftmStrap := rfl
@[simp] theorem State.answer_ftm (s : State) (m : Master) (bs : List Byte) : (s.answer m bs).ftm = s.ftm := rfl
@[simp] theorem State.answer_devOp (s : State) (m : Master) (bs : List Byte) : (s.answer m bs).devOp = s.devOp := rfl
@[simp] theorem State.answer_devOpBack (s : State) (m : Master) (bs : List Byte) : (s.answer m bs).devOpBack = s.devOpBack := rfl
@[simp] theorem State.answer_bootFrom (s : State) (m : Master) (bs : List Byte) : (s.answer m bs).bootFrom = s.bootFrom := rfl
@[simp] theorem State.answer_relAt (s : State) (m : Master) (bs : List Byte) : (s.answer m bs).relAt = s.relAt := rfl
@[simp] theorem State.answer_sillAt (s : State) (m : Master) (bs : List Byte) : (s.answer m bs).sillAt = s.sillAt := rfl
@[simp] theorem State.answer_kpsAt (s : State) (m : Master) (bs : List Byte) : (s.answer m bs).kpsAt = s.kpsAt := rfl
@[simp] theorem State.answer_powerAt (s : State) (m : Master) (bs : List Byte) : (s.answer m bs).powerAt = s.powerAt := rfl
@[simp] theorem State.answer_islandsAt (s : State) (m : Master) (bs : List Byte) : (s.answer m bs).islandsAt = s.islandsAt := rfl
@[simp] theorem State.answer_appliesRecords (s : State) (m : Master) (bs : List Byte) : (s.answer m bs).appliesRecords = s.appliesRecords := rfl
@[simp] theorem State.answer_regs (s : State) (m : Master) (bs : List Byte) : (s.answer m bs).regs = s.regs := rfl
@[simp] theorem State.answer_active (s : State) (m : Master) (bs : List Byte) : (s.answer m bs).active = s.active := rfl
@[simp] theorem State.answer_heldLow (s : State) (m : Master) (bs : List Byte) : (s.answer m bs).heldLow = s.heldLow := rfl
@[simp] theorem State.answer_captures (s : State) (m : Master) (bs : List Byte) : (s.answer m bs).captures = s.captures := rfl
@[simp] theorem State.answer_bar2Data (s : State) (m : Master) (bs : List Byte) : (s.answer m bs).bar2Data = s.bar2Data := rfl
@[simp] theorem State.answer_waking (s : State) (m : Master) (bs : List Byte) : (s.answer m bs).waking = s.waking := rfl
@[simp] theorem State.answer_stopPending (s : State) (m : Master) (bs : List Byte) : (s.answer m bs).stopPending = s.stopPending := rfl
@[simp] theorem State.answer_ports (s : State) (m : Master) (bs : List Byte) : (s.answer m bs).ports = s.ports := rfl
@[simp] theorem State.answer_rings (s : State) (m : Master) (bs : List Byte) : (s.answer m bs).rings = s.rings := rfl
@[simp] theorem State.answer_band (s : State) (m : Master) (bs : List Byte) : (s.answer m bs).band = s.band := rfl
@[simp] theorem State.answer_spool (s : State) (m : Master) (bs : List Byte) : (s.answer m bs).spool = s.spool := rfl
@[simp] theorem State.answer_masks (s : State) (m : Master) (bs : List Byte) : (s.answer m bs).masks = s.masks := rfl
@[simp] theorem State.answer_flash (s : State) (m : Master) (bs : List Byte) : (s.answer m bs).flash = s.flash := rfl
@[simp] theorem State.answer_natShadow (s : State) (m : Master) (bs : List Byte) : (s.answer m bs).natShadow = s.natShadow := rfl
@[simp] theorem State.answer_natActive (s : State) (m : Master) (bs : List Byte) : (s.answer m bs).natActive = s.natActive := rfl
@[simp] theorem State.answer_widthShadow (s : State) (m : Master) (bs : List Byte) : (s.answer m bs).widthShadow = s.widthShadow := rfl
@[simp] theorem State.answer_widthActive (s : State) (m : Master) (bs : List Byte) : (s.answer m bs).widthActive = s.widthActive := rfl
@[simp] theorem State.answer_sine (s : State) (m : Master) (bs : List Byte) : (s.answer m bs).sine = s.sine := rfl
@[simp] theorem State.answer_pvtTab (s : State) (m : Master) (bs : List Byte) : (s.answer m bs).pvtTab = s.pvtTab := rfl
@[simp] theorem State.answer_ue (s : State) (m : Master) (bs : List Byte) : (s.answer m bs).ue = s.ue := rfl
@[simp] theorem State.answer_ce (s : State) (m : Master) (bs : List Byte) : (s.answer m bs).ce = s.ce := rfl
@[simp] theorem State.answer_eccCount (s : State) (m : Master) (bs : List Byte) : (s.answer m bs).eccCount = s.eccCount := rfl
@[simp] theorem State.answer_mem (s : State) (m : Master) (bs : List Byte) : (s.answer m bs).mem = s.mem := rfl
@[simp] theorem State.answer_memCfg (s : State) (m : Master) (bs : List Byte) : (s.answer m bs).memCfg = s.memCfg := rfl
@[simp] theorem State.answer_scrubAt (s : State) (m : Master) (bs : List Byte) : (s.answer m bs).scrubAt = s.scrubAt := rfl
@[simp] theorem State.answer_scrubbed (s : State) (m : Master) (bs : List Byte) : (s.answer m bs).scrubbed = s.scrubbed := rfl
@[simp] theorem State.answer_chans (s : State) (m : Master) (bs : List Byte) : (s.answer m bs).chans = s.chans := rfl
@[simp] theorem State.answer_axes (s : State) (m : Master) (bs : List Byte) : (s.answer m bs).axes = s.axes := rfl
@[simp] theorem State.answer_mgroups (s : State) (m : Master) (bs : List Byte) : (s.answer m bs).mgroups = s.mgroups := rfl
@[simp] theorem State.answer_msets (s : State) (m : Master) (bs : List Byte) : (s.answer m bs).msets = s.msets := rfl
@[simp] theorem State.answer_jchans (s : State) (m : Master) (bs : List Byte) : (s.answer m bs).jchans = s.jchans := rfl
@[simp] theorem State.answer_engines (s : State) (m : Master) (bs : List Byte) : (s.answer m bs).engines = s.engines := rfl
@[simp] theorem State.answer_hal (s : State) (m : Master) (bs : List Byte) : (s.answer m bs).hal = s.hal := rfl
@[simp] theorem State.answer_eths (s : State) (m : Master) (bs : List Byte) : (s.answer m bs).eths = s.eths := rfl
@[simp] theorem State.answer_lnk (s : State) (m : Master) (bs : List Byte) : (s.answer m bs).lnk = s.lnk := rfl
@[simp] theorem State.answer_pcie (s : State) (m : Master) (bs : List Byte) : (s.answer m bs).pcie = s.pcie := rfl
@[simp] theorem State.answer_smp (s : State) (m : Master) (bs : List Byte) : (s.answer m bs).smp = s.smp := rfl
@[simp] theorem State.answer_kps (s : State) (m : Master) (bs : List Byte) : (s.answer m bs).kps = s.kps := rfl
@[simp] theorem State.answer_thm (s : State) (m : Master) (bs : List Byte) : (s.answer m bs).thm = s.thm := rfl
@[simp] theorem State.answer_cals (s : State) (m : Master) (bs : List Byte) : (s.answer m bs).cals = s.cals := rfl
@[simp] theorem State.answer_calTurn (s : State) (m : Master) (bs : List Byte) : (s.answer m bs).calTurn = s.calTurn := rfl
@[simp] theorem State.answer_upd (s : State) (m : Master) (bs : List Byte) : (s.answer m bs).upd = s.upd := rfl
@[simp] theorem State.answer_tap (s : State) (m : Master) (bs : List Byte) : (s.answer m bs).tap = s.tap := rfl
@[simp] theorem State.answer_clocks (s : State) (m : Master) (bs : List Byte) : (s.answer m bs).clocks = s.clocks := rfl
@[simp] theorem State.answer_ticks (s : State) (m : Master) (bs : List Byte) : (s.answer m bs).ticks = s.ticks := rfl
@[simp] theorem State.answer_free (s : State) (m : Master) (bs : List Byte) : (s.answer m bs).free = s.free := rfl
@[simp] theorem State.answer_pending (s : State) (m : Master) (bs : List Byte) : (s.answer m bs).pending = s.pending := rfl

end Sys2Proof.Machine
end

