-- ==== Sys2Proof/Laws/Regs.lean ====
section
/-! SUPPORT. The register space: which page holds an address, what a word and a field read after a write, and the
canonical form of the register file. -/

namespace Sys2Proof

theorem Page.mem_all (p : Page) : p ∈ Page.all := by cases p <;> decide

end Sys2Proof

namespace Sys2Proof.Machine

/-- The addresses of two pages lie apart, or interleave with one stride. -/
def pagesApart (p q : Page) : Bool :=
  decide (p.base + p.stride * (p.count - 1) + 0x1000 ≤ q.base) ||
  decide (q.base + q.stride * (q.count - 1) + 0x1000 ≤ p.base) ||
  (p.stride == q.stride && (p.stride == 0x2000 || p.stride == 0x4000) && p.base % 0x1000 == 0 && q.base % 0x1000 == 0 &&
    p.base / 0x1000 % (p.stride / 0x1000) != q.base / 0x1000 % (p.stride / 0x1000))

theorem pagesApart_all :
    (Page.all.all fun p => Page.all.all fun q => p == q || pagesApart p q) = true := by decide +kernel

theorem pagesApart_of_ne {p q : Page} (h : p ≠ q) : pagesApart p q = true := by
  have h1 := List.all_eq_true.mp pagesApart_all p (Page.mem_all p)
  have h2 := List.all_eq_true.mp h1 q (Page.mem_all q)
  simpa [h] using h2

/-- The test that `locate` makes of one page. -/
def pageHit (a : Nat) (p : Page) : Bool :=
  decide (p.base ≤ a) && decide ((a - p.base) / p.stride < p.count) && decide ((a - p.base) % p.stride < 0x1000)

theorem Page.stride_pos (p : Page) : 0x1000 ≤ p.stride := by cases p <;> decide

theorem pageHit_iff (a : Nat) (p : Page) :
    pageHit a p = true ↔ ∃ i off, i < p.count ∧ off < 0x1000 ∧ a = regAddr p i off := by
  have hs := Page.stride_pos p
  simp only [pageHit, Bool.and_eq_true, decide_eq_true_eq, regAddr]
  constructor
  · rintro ⟨⟨h1, h2⟩, h3⟩
    refine ⟨(a - p.base) / p.stride, (a - p.base) % p.stride, h2, h3, ?_⟩
    have := Nat.div_add_mod (a - p.base) p.stride
    omega
  · rintro ⟨i, off, h1, h2, rfl⟩
    have e : p.base + p.stride * i + off - p.base = p.stride * i + off := by omega
    have d : (p.stride * i + off) / p.stride = i := by
      rw [Nat.mul_add_div (by omega)]; simp [Nat.div_eq_of_lt (show off < p.stride by omega)]
    have m : (p.stride * i + off) % p.stride = off := by
      rw [Nat.mul_add_mod]; exact Nat.mod_eq_of_lt (by omega)
    rw [e, d, m]
    exact ⟨⟨by omega, h1⟩, h2⟩

theorem pageHit_unique {a : Nat} {p q : Page} (hp : pageHit a p = true) (hq : pageHit a q = true) : p = q := by
  rw [pageHit_iff] at hp hq
  obtain ⟨i, o, hi, ho, rfl⟩ := hp
  obtain ⟨j, u, hj, hu, he⟩ := hq
  refine Decidable.byContradiction fun hne => ?_
  have hap := pagesApart_of_ne hne
  simp only [pagesApart, Bool.or_eq_true, Bool.and_eq_true, decide_eq_true_eq, beq_iff_eq, bne_iff_ne, ne_eq] at hap
  have m1 : p.stride * i ≤ p.stride * (p.count - 1) := Nat.mul_le_mul_left _ (by omega)
  have m2 : q.stride * j ≤ q.stride * (q.count - 1) := Nat.mul_le_mul_left _ (by omega)
  simp only [regAddr] at he
  rcases hap with (h | h) | ⟨⟨⟨⟨h1, h2⟩, h3⟩, h4⟩, h5⟩
  · omega
  · omega
  · rw [← h1] at he
    rcases h2 with h2 | h2 <;> rw [h2] at he h5 <;> omega

theorem locate_regAddr {p : Page} {i off : Nat} (hi : i < p.count) (ho : off < 0x1000) :
    locate (regAddr p i off) = some (p, i, off) := by
  have hs := Page.stride_pos p
  have hit : pageHit (regAddr p i off) p = true := (pageHit_iff _ _).mpr ⟨i, off, hi, ho, rfl⟩
  have hf : (Page.all.find? fun q => pageHit (regAddr p i off) q) = some p := by
    cases h : Page.all.find? fun q => pageHit (regAddr p i off) q with
    | none =>
      have := List.find?_eq_none.mp h p (Page.mem_all p)
      simp [hit] at this
    | some q =>
      have := List.find?_some h
      rw [pageHit_unique hit this]
  have hf' : (Page.all.find? fun q => decide (q.base ≤ regAddr p i off) &&
      decide ((regAddr p i off - q.base) / q.stride < q.count) &&
      decide ((regAddr p i off - q.base) % q.stride < 0x1000)) = some p := hf
  simp only [locate, hf', Option.map_some, Option.some.injEq, Prod.mk.injEq, true_and]
  have e : regAddr p i off - p.base = p.stride * i + off := by simp only [regAddr]; omega
  rw [e]
  constructor
  · rw [Nat.mul_add_div (by omega)]; simp [Nat.div_eq_of_lt (show off < p.stride by omega)]
  · rw [Nat.mul_add_mod]; exact Nat.mod_eq_of_lt (by omega)

/-- Two registers of pages stand at the same address only if they are the same register. -/
theorem regAddr_inj {p q : Page} {i j a b : Nat} (hi : i < p.count) (ha : a < 0x1000) (hj : j < q.count)
    (hb : b < 0x1000) : regAddr p i a = regAddr q j b ↔ p = q ∧ i = j ∧ a = b := by
  constructor
  · intro h
    have := (locate_regAddr hi ha).symm.trans ((congrArg locate h).trans (locate_regAddr hj hb))
    simpa using this
  · rintro ⟨rfl, rfl, rfl⟩; rfl

/-! ### Words -/

theorem State.word_setWord (s : State) (a b : Nat) (w : Word) :
    (s.setWord a w).word b = if b = a then w else s.word b := by
  simp [State.word, State.setWord, Sparse.get_put]

@[simp] theorem State.word_setWord_self (s : State) (a : Nat) (w : Word) : (s.setWord a w).word a = w := by
  simp [State.word_setWord]

theorem State.word_setWord_ne (s : State) {a b : Nat} (w : Word) (h : b ≠ a) : (s.setWord a w).word b = s.word b := by
  simp [State.word_setWord, h]

@[simp] theorem State.aword_setWord (s : State) (a b : Nat) (w : Word) : (s.setWord a w).aword b = s.aword b := rfl

@[simp] theorem State.word_setAword (s : State) (a b : Nat) (w : Word) : (s.setAword a w).word b = s.word b := rfl

theorem State.aword_setAword (s : State) (a b : Nat) (w : Word) :
    (s.setAword a w).aword b = if b = a then w else s.aword b := by
  simp [State.aword, State.setAword, Sparse.get_put]

/-- The register file is all that a word read depends on. -/
theorem State.word_congr {s u : State} (h : u.regs = s.regs) (h2 : u.ul24 = s.ul24) (a : Nat) : u.word a = s.word a := by
  simp [State.word, h, h2]

theorem State.word_fput (s : State) (f : Fld) (v i j k b : Nat) :
    (s.fput f v i j k).word b = if b = f.addr i j k then f.set (s.word b) v else s.word b := by
  simp only [State.fput, State.word_setWord]
  split
  · next h => subst h; rfl
  · rfl

theorem State.word_fput_ne (s : State) (f : Fld) (v i j k : Nat) {b : Nat} (h : b ≠ f.addr i j k) :
    (s.fput f v i j k).word b = s.word b := by
  simp [State.word_fput, h]

/-- A field that fits in its word reads what was written to it, cut to its width. -/
theorem Fld.get_set (f : Fld) (h : f.lo ≤ f.hi ∧ f.hi < 32) (w : Word) (v : Nat) :
    f.get (f.set w v) = v % 2 ^ f.width := by
  obtain ⟨h1, h2⟩ := h
  have hw : f.lo + f.width ≤ 32 := by simp only [Fld.width]; omega
  apply Nat.eq_of_testBit_eq
  intro i
  have e1 : f.get (f.set w v) = (f.set w v).toNat >>> f.lo % 2 ^ f.width := by
    simp [Fld.get, Nat.shiftRight_eq_div_pow]
  rw [e1, Nat.testBit_mod_two_pow, Nat.testBit_mod_two_pow, Nat.testBit_shiftRight]
  by_cases hi : i < f.width
  · have hlt : f.lo + i < 32 := by omega
    simp only [hi, decide_true, Bool.true_and]
    rw [BitVec.testBit_toNat]
    simp only [Fld.set, BitVec.getLsbD_or, BitVec.getLsbD_and, BitVec.getLsbD_not, Fld.mask,
      BitVec.getLsbD_ofNat, hlt, decide_true, Bool.true_and]
    have m1 : ((2 ^ f.width - 1) * 2 ^ f.lo).testBit (f.lo + i) = true := by
      rw [Nat.mul_comm, Nat.testBit_two_pow_mul]
      simp [Nat.testBit_two_pow_sub_one, hi]
    have m2 : (v % 2 ^ f.width * 2 ^ f.lo).testBit (f.lo + i) = v.testBit i := by
      rw [Nat.mul_comm, Nat.testBit_two_pow_mul]
      simp [Nat.testBit_mod_two_pow, hi]
    simp [m1, m2]
  · simp [hi]

/-- A field that shares no bit with the one written keeps its value. -/
theorem Fld.get_set_apart (f g : Fld) (hg : g.lo ≤ g.hi)
    (h : g.hi < f.lo ∨ f.hi < g.lo) (w : Word) (v : Nat) : g.get (f.set w v) = g.get w := by
  apply Nat.eq_of_testBit_eq
  intro i
  have e1 : ∀ x : Word, g.get x = x.toNat >>> g.lo % 2 ^ g.width := by
    intro x; simp [Fld.get, Nat.shiftRight_eq_div_pow]
  rw [e1, e1, Nat.testBit_mod_two_pow, Nat.testBit_mod_two_pow, Nat.testBit_shiftRight, Nat.testBit_shiftRight]
  by_cases hi : i < g.width
  · simp only [hi, decide_true, Bool.true_and]
    rw [BitVec.testBit_toNat, BitVec.testBit_toNat]
    simp only [Fld.set, BitVec.getLsbD_or, BitVec.getLsbD_and, BitVec.getLsbD_not, Fld.mask, BitVec.getLsbD_ofNat]
    have hgi : g.lo + i ≤ g.hi := by simp only [Fld.width] at hi; omega
    have m : ∀ x : Nat, (x % 2 ^ f.width * 2 ^ f.lo).testBit (g.lo + i) = false := by
      intro x
      rw [Nat.mul_comm, Nat.testBit_two_pow_mul]
      rcases h with h | h
      · simp [show ¬ (f.lo ≤ g.lo + i) by omega]
      · have : ¬ (g.lo + i - f.lo < f.width) := by simp only [Fld.width]; omega
        simp [Nat.testBit_mod_two_pow, this]
    have m1 : ((2 ^ f.width - 1) * 2 ^ f.lo).testBit (g.lo + i) = false := by
      have := m (2 ^ f.width - 1)
      rwa [Nat.mod_eq_of_lt (by have := Nat.two_pow_pos f.width; omega)] at this
    rw [m v, m1]
    by_cases hl : g.lo + i < 32
    · simp [hl]
    · simpa [hl] using BitVec.getLsbD_of_ge w _ (by omega)
  · simp [hi]

/-- A field reads what was written to it. -/
theorem State.fget_fput_self (s : State) (f : Fld) (h : f.lo ≤ f.hi ∧ f.hi < 32) (v i j k : Nat) :
    (s.fput f v i j k).fget f i j k = v % 2 ^ f.width := by
  simp [State.fget, State.word_fput, Fld.get_set f h]

/-- A field of another register keeps its value. -/
theorem State.fget_fput_ne (s : State) (f g : Fld) (v i j k a b c : Nat) (h : g.addr a b c ≠ f.addr i j k) :
    (s.fput f v i j k).fget g a b c = s.fget g a b c := by
  simp [State.fget, State.word_fput, h]

/-- Another field of the same register keeps its value. -/
theorem State.fget_fput_apart (s : State) (f g : Fld) (hg : g.lo ≤ g.hi)
    (h : g.hi < f.lo ∨ f.hi < g.lo) (v i j k : Nat) (e : g.addr i j k = f.addr i j k) :
    (s.fput f v i j k).fget g i j k = s.fget g i j k := by
  simp [State.fget, State.word_fput, e, Fld.get_set_apart f g hg h]

end Sys2Proof.Machine
end

