-- ==== Sys2Proof/Laws/Ops.lean ====
section
/-! SUPPORT. The shared operations: what the records of ports, channels, axes and the rest read after a change, what a
fault message leaves, how a command ends, and what the checks of R61 answer. -/

namespace Sys2Proof.Machine

/-! ### The records of the state, by number -/

theorem State.port_setPort (s : State) (p q : Nat) (x : Port) :
    (s.setPort p x).port q = if q = p then x else s.port q := by
  simp [State.port, State.setPort, Sparse.get_put]

@[simp] theorem State.port_setPort_self (s : State) (p : Nat) (x : Port) : (s.setPort p x).port p = x := by
  simp [State.port_setPort]

theorem State.port_modPort (s : State) (p q : Nat) (f : Port → Port) :
    (s.modPort p f).port q = if q = p then f (s.port p) else s.port q := by
  simp [State.modPort, State.port_setPort]

@[simp] theorem State.port_modPort_self (s : State) (p : Nat) (f : Port → Port) : (s.modPort p f).port p = f (s.port p) := by
  simp [State.modPort]

theorem State.ring_setRing (s : State) (p q : Nat) (x : Ring) :
    (s.setRing p x).ring q = if q = p then x else s.ring q := by
  simp [State.ring, State.setRing, Sparse.get_put]

@[simp] theorem State.ring_setRing_self (s : State) (p : Nat) (x : Ring) : (s.setRing p x).ring p = x := by
  simp [State.ring_setRing]

theorem State.ring_modRing (s : State) (p q : Nat) (f : Ring → Ring) :
    (s.modRing p f).ring q = if q = p then f (s.ring p) else s.ring q := by
  simp [State.modRing, State.ring_setRing]

@[simp] theorem State.ring_modRing_self (s : State) (p : Nat) (f : Ring → Ring) : (s.modRing p f).ring p = f (s.ring p) := by
  simp [State.modRing]

theorem State.chan_setChan (s : State) (c q : Nat) (x : Chan) :
    (s.setChan c x).chan q = if q = c then x else s.chan q := by
  simp [State.chan, State.setChan, Sparse.get_put]

@[simp] theorem State.chan_setChan_self (s : State) (c : Nat) (x : Chan) : (s.setChan c x).chan c = x := by
  simp [State.chan_setChan]

theorem State.chan_modChan (s : State) (c q : Nat) (f : Chan → Chan) :
    (s.modChan c f).chan q = if q = c then f (s.chan c) else s.chan q := by
  simp [State.modChan, State.chan_setChan]

@[simp] theorem State.chan_modChan_self (s : State) (c : Nat) (f : Chan → Chan) : (s.modChan c f).chan c = f (s.chan c) := by
  simp [State.modChan]

theorem State.axis_setAxis (s : State) (a q : Nat) (x : Axis) :
    (s.setAxis a x).axis q = if q = a then x else s.axis q := by
  simp [State.axis, State.setAxis, Sparse.get_put]

@[simp] theorem State.axis_setAxis_self (s : State) (a : Nat) (x : Axis) : (s.setAxis a x).axis a = x := by
  simp [State.axis_setAxis]

theorem State.axis_modAxis (s : State) (a q : Nat) (f : Axis → Axis) :
    (s.modAxis a f).axis q = if q = a then f (s.axis a) else s.axis q := by
  simp [State.modAxis, State.axis_setAxis]

@[simp] theorem State.axis_modAxis_self (s : State) (a : Nat) (f : Axis → Axis) : (s.modAxis a f).axis a = f (s.axis a) := by
  simp [State.modAxis]

theorem State.mgroup_modMgroup (s : State) (k q : Nat) (f : MGroup → MGroup) :
    (s.modMgroup k f).mgroup q = if q = k then f (s.mgroup k) else s.mgroup q := by
  simp [State.modMgroup, State.mgroup, Sparse.get_put]

@[simp] theorem State.mgroup_modMgroup_self (s : State) (k : Nat) (f : MGroup → MGroup) : (s.modMgroup k f).mgroup k = f (s.mgroup k) := by
  simp [State.mgroup_modMgroup]

theorem State.engine_modEngine (s : State) (k q : Nat) (f : Engine → Engine) :
    (s.modEngine k f).engine q = if q = k then f (s.engine k) else s.engine q := by
  simp [State.modEngine, State.engine, Sparse.get_put]

@[simp] theorem State.engine_modEngine_self (s : State) (k : Nat) (f : Engine → Engine) : (s.modEngine k f).engine k = f (s.engine k) := by
  simp [State.engine_modEngine]

theorem State.eth_modEth (s : State) (k q : Nat) (f : Eth → Eth) :
    (s.modEth k f).eth q = if q = k then f (s.eth k) else s.eth q := by
  simp [State.modEth, State.eth, Sparse.get_put]

@[simp] theorem State.eth_modEth_self (s : State) (k : Nat) (f : Eth → Eth) : (s.modEth k f).eth k = f (s.eth k) := by
  simp [State.eth_modEth]

theorem State.bx_modBx (s : State) (k q : Nat) (f : BxLink → BxLink) :
    (s.modBx k f).bx q = if q = k then f (s.bx k) else s.bx q := by
  simp [State.modBx, State.bx, Sparse.get_put]

@[simp] theorem State.bx_modBx_self (s : State) (k : Nat) (f : BxLink → BxLink) : (s.modBx k f).bx k = f (s.bx k) := by
  simp [State.bx_modBx]

theorem State.txs_modTx (s : State) (k q : Nat) (f : TxStream → TxStream) :
    (s.modTx k f).txs q = if q = k then f (s.txs k) else s.txs q := by
  simp [State.modTx, State.txs, Sparse.get_put]

@[simp] theorem State.txs_modTx_self (s : State) (k : Nat) (f : TxStream → TxStream) : (s.modTx k f).txs k = f (s.txs k) := by
  simp [State.txs_modTx]

theorem State.rxs_modRx (s : State) (k q : Nat) (f : RxStream → RxStream) :
    (s.modRx k f).rxs q = if q = k then f (s.rxs k) else s.rxs q := by
  simp [State.modRx, State.rxs, Sparse.get_put]

@[simp] theorem State.rxs_modRx_self (s : State) (k : Nat) (f : RxStream → RxStream) : (s.modRx k f).rxs k = f (s.rxs k) := by
  simp [State.rxs_modRx]

theorem State.cal_modCal (s : State) (k q : Nat) (f : CalChan → CalChan) :
    (s.modCal k f).cal q = if q = k then f (s.cal k) else s.cal q := by
  simp [State.modCal, State.cal, Sparse.get_put]

@[simp] theorem State.cal_modCal_self (s : State) (k : Nat) (f : CalChan → CalChan) : (s.modCal k f).cal k = f (s.cal k) := by
  simp [State.cal_modCal]

theorem State.jchan_modJchan (s : State) (e c g d : Nat) (f : JChan → JChan) :
    (s.modJchan e c f).jchan g d = if 16 * g + d = 16 * e + c then f (s.jchan e c) else s.jchan g d := by
  simp [State.modJchan, State.jchan, Sparse.get_put]

@[simp] theorem State.jchan_modJchan_self (s : State) (e c : Nat) (f : JChan → JChan) :
    (s.modJchan e c f).jchan e c = f (s.jchan e c) := by
  simp [State.jchan_modJchan]

theorem State.mset_modMset (s : State) (g k h j : Nat) (f : MSet → MSet) :
    (s.modMset g k f).mset h j = if 2 * h + j = 2 * g + k then f (s.mset g k) else s.mset h j := by
  simp [State.modMset, State.mset, Sparse.get_put]

@[simp] theorem State.mset_modMset_self (s : State) (g k : Nat) (f : MSet → MSet) :
    (s.modMset g k f).mset g k = f (s.mset g k) := by
  simp [State.mset_modMset]

theorem State.path_setPath (s : State) (i j : Nat) (x : MsgPath) :
    (s.setPath i x).path j = if j = i then x else s.path j := by
  simp [State.path, State.setPath, Sparse.get_put]

theorem State.port_congr {s u : State} (h : u.ports = s.ports) (k : Nat) : u.port k = s.port k := by simp [State.port, h]
theorem State.ring_congr {s u : State} (h : u.rings = s.rings) (k : Nat) : u.ring k = s.ring k := by simp [State.ring, h]
theorem State.chan_congr {s u : State} (h : u.chans = s.chans) (k : Nat) : u.chan k = s.chan k := by simp [State.chan, h]
theorem State.axis_congr {s u : State} (h : u.axes = s.axes) (k : Nat) : u.axis k = s.axis k := by simp [State.axis, h]
theorem State.mgroup_congr {s u : State} (h : u.mgroups = s.mgroups) (k : Nat) : u.mgroup k = s.mgroup k := by simp [State.mgroup, h]
theorem State.engine_congr {s u : State} (h : u.engines = s.engines) (k : Nat) : u.engine k = s.engine k := by simp [State.engine, h]
theorem State.eth_congr {s u : State} (h : u.eths = s.eths) (k : Nat) : u.eth k = s.eth k := by simp [State.eth, h]
theorem State.cal_congr {s u : State} (h : u.cals = s.cals) (k : Nat) : u.cal k = s.cal k := by simp [State.cal, h]
theorem State.bx_congr {s u : State} (h : u.lnk = s.lnk) (k : Nat) : u.bx k = s.bx k := by simp [State.bx, h]
theorem State.txs_congr {s u : State} (h : u.lnk = s.lnk) (k : Nat) : u.txs k = s.txs k := by simp [State.txs, h]
theorem State.rxs_congr {s u : State} (h : u.lnk = s.lnk) (k : Nat) : u.rxs k = s.rxs k := by simp [State.rxs, h]
theorem State.jchan_congr {s u : State} (h : u.jchans = s.jchans) (e c : Nat) : u.jchan e c = s.jchan e c := by
  simp [State.jchan, h]
theorem State.mset_congr {s u : State} (h : u.msets = s.msets) (g k : Nat) : u.mset g k = s.mset g k := by
  simp [State.mset, h]

/-! ### Operations over a list -/

@[simp] theorem State.forEach_nil (s : State) (f : State → Nat → State) : s.forEach [] f = s := rfl

@[simp] theorem State.forEach_cons (s : State) (a : Nat) (l : List Nat) (f : State → Nat → State) :
    s.forEach (a :: l) f = (f s a).forEach l f := rfl

/-- What every turn of a loop keeps, the loop keeps. -/
theorem State.forEach_keeps {P : State → State → Prop} (refl : ∀ s, P s s) (trans : ∀ a b c, P a b → P b c → P a c)
    {f : State → Nat → State} (l : List Nat) (h : ∀ s, ∀ k ∈ l, P s (f s k)) (s : State) : P s (s.forEach l f) := by
  induction l generalizing s with
  | nil => exact refl s
  | cons a l ih =>
    exact trans _ _ _ (h s a (by simp)) (ih (fun s k hk => h s k (by simp [hk])) (f s a))

/-- A state property that every turn keeps holds after the loop. -/
theorem State.forEach_inv {P : State → Prop} {f : State → Nat → State} (l : List Nat)
    (h : ∀ s, ∀ k ∈ l, P s → P (f s k)) (s : State) (hs : P s) : P (s.forEach l f) := by
  induction l generalizing s with
  | nil => exact hs
  | cons a l ih => exact ih (fun s k hk => h s k (by simp [hk])) _ (h s a (by simp) hs)

theorem State.when_true (s : State) (f : State → State) : s.when true f = f s := rfl

theorem State.when_false (s : State) (f : State → State) : s.when false f = s := rfl

/-! ### How a command ends -/

/-- R351: settling touches the host interface only: its record and its own registers. -/
theorem State.settle_frame (s : State) : s.settle = { s with regs := s.settle.regs, pcie := s.settle.pcie } := by
  simp only [State.settle, State.when, State.raiseMsi, State.dropMsi]
  repeat' split
  all_goals rfl

@[simp] theorem State.settle_now (s : State) : s.settle.now = s.now := by rw [State.settle_frame]
@[simp] theorem State.settle_porst (s : State) : s.settle.porst = s.porst := by rw [State.settle_frame]
@[simp] theorem State.settle_ul24 (s : State) : s.settle.ul24 = s.ul24 := by rw [State.settle_frame]
@[simp] theorem State.settle_ftmStrap (s : State) : s.settle.ftmStrap = s.ftmStrap := by rw [State.settle_frame]
@[simp] theorem State.settle_ftm (s : State) : s.settle.ftm = s.ftm := by rw [State.settle_frame]
@[simp] theorem State.settle_devOp (s : State) : s.settle.devOp = s.devOp := by rw [State.settle_frame]
@[simp] theorem State.settle_devOpBack (s : State) : s.settle.devOpBack = s.devOpBack := by rw [State.settle_frame]
@[simp] theorem State.settle_bootFrom (s : State) : s.settle.bootFrom = s.bootFrom := by rw [State.settle_frame]
@[simp] theorem State.settle_relAt (s : State) : s.settle.relAt = s.relAt := by rw [State.settle_frame]
@[simp] theorem State.settle_sillAt (s : State) : s.settle.sillAt = s.sillAt := by rw [State.settle_frame]
@[simp] theorem State.settle_kpsAt (s : State) : s.settle.kpsAt = s.kpsAt := by rw [State.settle_frame]
@[simp] theorem State.settle_powerAt (s : State) : s.settle.powerAt = s.powerAt := by rw [State.settle_frame]
@[simp] theorem State.settle_islandsAt (s : State) : s.settle.islandsAt = s.islandsAt := by rw [State.settle_frame]
@[simp] theorem State.settle_appliesRecords (s : State) : s.settle.appliesRecords = s.appliesRecords := by rw [State.settle_frame]
@[simp] theorem State.settle_active (s : State) : s.settle.active = s.active := by rw [State.settle_frame]
@[simp] theorem State.settle_heldLow (s : State) : s.settle.heldLow = s.heldLow := by rw [State.settle_frame]
@[simp] theorem State.settle_captures (s : State) : s.settle.captures = s.captures := by rw [State.settle_frame]
@[simp] theorem State.settle_lastRead (s : State) : s.settle.lastRead = s.lastRead := by rw [State.settle_frame]
@[simp] theorem State.settle_bar2Data (s : State) : s.settle.bar2Data = s.bar2Data := by rw [State.settle_frame]
@[simp] theorem State.settle_waking (s : State) : s.settle.waking = s.waking := by rw [State.settle_frame]
@[simp] theorem State.settle_stopPending (s : State) : s.settle.stopPending = s.stopPending := by rw [State.settle_frame]
@[simp] theorem State.settle_ports (s : State) : s.settle.ports = s.ports := by rw [State.settle_frame]
@[simp] theorem State.settle_rings (s : State) : s.settle.rings = s.rings := by rw [State.settle_frame]
@[simp] theorem State.settle_band (s : State) : s.settle.band = s.band := by rw [State.settle_frame]
@[simp] theorem State.settle_spool (s : State) : s.settle.spool = s.spool := by rw [State.settle_frame]
@[simp] theorem State.settle_masks (s : State) : s.settle.masks = s.masks := by rw [State.settle_frame]
@[simp] theorem State.settle_flash (s : State) : s.settle.flash = s.flash := by rw [State.settle_frame]
@[simp] theorem State.settle_natShadow (s : State) : s.settle.natShadow = s.natShadow := by rw [State.settle_frame]
@[simp] theorem State.settle_natActive (s : State) : s.settle.natActive = s.natActive := by rw [State.settle_frame]
@[simp] theorem State.settle_widthShadow (s : State) : s.settle.widthShadow = s.widthShadow := by rw [State.settle_frame]
@[simp] theorem State.settle_widthActive (s : State) : s.settle.widthActive = s.widthActive := by rw [State.settle_frame]
@[simp] theorem State.settle_sine (s : State) : s.settle.sine = s.sine := by rw [State.settle_frame]
@[simp] theorem State.settle_pvtTab (s : State) : s.settle.pvtTab = s.pvtTab := by rw [State.settle_frame]
@[simp] theorem State.settle_ue (s : State) : s.settle.ue = s.ue := by rw [State.settle_frame]
@[simp] theorem State.settle_ce (s : State) : s.settle.ce = s.ce := by rw [State.settle_frame]
@[simp] theorem State.settle_eccCount (s : State) : s.settle.eccCount = s.eccCount := by rw [State.settle_frame]
@[simp] theorem State.settle_mem (s : State) : s.settle.mem = s.mem := by rw [State.settle_frame]
@[simp] theorem State.settle_memCfg (s : State) : s.settle.memCfg = s.memCfg := by rw [State.settle_frame]
@[simp] theorem State.settle_scrubAt (s : State) : s.settle.scrubAt = s.scrubAt := by rw [State.settle_frame]
@[simp] theorem State.settle_scrubbed (s : State) : s.settle.scrubbed = s.scrubbed := by rw [State.settle_frame]
@[simp] theorem State.settle_chans (s : State) : s.settle.chans = s.chans := by rw [State.settle_frame]
@[simp] theorem State.settle_axes (s : State) : s.settle.axes = s.axes := by rw [State.settle_frame]
@[simp] theorem State.settle_mgroups (s : State) : s.settle.mgroups = s.mgroups := by rw [State.settle_frame]
@[simp] theorem State.settle_msets (s : State) : s.settle.msets = s.msets := by rw [State.settle_frame]
@[simp] theorem State.settle_jchans (s : State) : s.settle.jchans = s.jchans := by rw [State.settle_frame]
@[simp] theorem State.settle_engines (s : State) : s.settle.engines = s.engines := by rw [State.settle_frame]
@[simp] theorem State.settle_hal (s : State) : s.settle.hal = s.hal := by rw [State.settle_frame]
@[simp] theorem State.settle_eths (s : State) : s.settle.eths = s.eths := by rw [State.settle_frame]
@[simp] theorem State.settle_lnk (s : State) : s.settle.lnk = s.lnk := by rw [State.settle_frame]
@[simp] theorem State.settle_smp (s : State) : s.settle.smp = s.smp := by rw [State.settle_frame]
@[simp] theorem State.settle_kps (s : State) : s.settle.kps = s.kps := by rw [State.settle_frame]
@[simp] theorem State.settle_thm (s : State) : s.settle.thm = s.thm := by rw [State.settle_frame]
@[simp] theorem State.settle_cals (s : State) : s.settle.cals = s.cals := by rw [State.settle_frame]
@[simp] theorem State.settle_calTurn (s : State) : s.settle.calTurn = s.calTurn := by rw [State.settle_frame]
@[simp] theorem State.settle_upd (s : State) : s.settle.upd = s.upd := by rw [State.settle_frame]
@[simp] theorem State.settle_tap (s : State) : s.settle.tap = s.tap := by rw [State.settle_frame]
@[simp] theorem State.settle_clocks (s : State) : s.settle.clocks = s.clocks := by rw [State.settle_frame]
@[simp] theorem State.settle_ticks (s : State) : s.settle.ticks = s.ticks := by rw [State.settle_frame]
@[simp] theorem State.settle_free (s : State) : s.settle.free = s.free := by rw [State.settle_frame]
@[simp] theorem State.settle_pending (s : State) : s.settle.pending = s.pending := by rw [State.settle_frame]

theorem pen_present {off : Nat} (h : off < 0x1000) : pageAt (regAddr .pen 0 off) = some .pen := by
  simp [pageAt, locate_regAddr (p := .pen) (i := 0) (by decide) h]

/-- Dropping a deferred MSI writes at most the host interface's cause register. -/
theorem State.dropMsi_word_of_ne (s : State) {a : Nat} (h2 : a ≠ regAddr .pen 0 0x14) : s.dropMsi.word a = s.word a := by
  rw [State.dropMsi]
  refine (State.word_congr (s := s.when s.pcie.msiPend fun s => s.latch .pen 0) rfl rfl a).trans ?_
  rw [State.when]
  split
  · rw [State.latch, State.word_setWord_ne _ _ h2]
  · rfl

/-- Settling writes at most the MSI counter and the host interface's cause register. -/
theorem State.settle_word_of_ne (s : State) {a : Nat} (h1 : a ≠ Reg.PEN_MSI_CNT_COUNT.addr) (h2 : a ≠ regAddr .pen 0 0x14) :
    s.settle.word a = s.word a := by
  have hr : s.raiseMsi.word a = s.word a := by
    rw [State.raiseMsi]
    split
    · show (State.fadd _ _ _).word a = _
      rw [State.fadd, State.word_fput_ne _ _ _ _ _ _ h1]
      exact (State.word_congr (s := s.dropMsi) rfl rfl a).trans (s.dropMsi_word_of_ne h2)
    · rw [State.latch, State.word_setWord_ne _ _ h2]
      exact State.word_congr rfl rfl a
  rw [State.settle]
  split
  · refine (State.word_congr (u := _) (s := s.when _ State.raiseMsi) rfl rfl a).trans ?_
    rw [State.when]
    split
    · exact hr
    · rfl
  · exact (State.word_congr (s := s.dropMsi) rfl rfl a).trans (s.dropMsi_word_of_ne h2)

/-- Settling leaves the words of every other page alone. -/
theorem State.settle_word (s : State) {a : Nat} (h : pageAt a ≠ some .pen) : s.settle.word a = s.word a :=
  s.settle_word_of_ne (fun e => h (e ▸ pen_present (off := Reg.PEN_MSI_CNT_COUNT.off) (by decide)))
    (fun e => h (e ▸ pen_present (by decide)))

@[simp] theorem State.settle_aword (s : State) (a : Nat) : s.settle.aword a = s.aword a := by
  rw [State.settle_frame]; rfl

/-- What a page's registers keep, an address outside the host interface's page keeps through the end of a command. -/
theorem State.settle_fget (s : State) (f : Fld) (i j k : Nat) (h : pageAt (f.addr i j k) ≠ some .pen) :
    s.settle.fget f i j k = s.fget f i j k := by
  simp [State.fget, State.settle_word s h]

/-! ### Pages, masters and waiting stop requests -/

theorem State.present_count {s : State} {p : Page} {i : Nat} (h : s.present p i = true) : i < p.count := by
  simp [State.present] at h; exact h.1.1.2

/-- R36, R448: an island that is on stays on as time goes on. -/
theorem State.islandOn_at {s : State} (t : Time) {i : Nat} (h : s.islandOn i = true) :
    (s.at t).islandOn i = true := by
  simp only [State.islandOn, Bool.and_eq_true, decide_eq_true_eq] at h ⊢
  exact ⟨h.1, Nat.le_trans h.2 (Nat.le_max_left ..)⟩

/-- R56: a page that is present stays present as time goes on. -/
theorem State.present_at {s : State} (t : Time) {p : Page} {i : Nat} (h : s.present p i = true) :
    (s.at t).present p i = true := by
  simp only [State.present, Bool.and_eq_true] at h ⊢
  exact ⟨⟨h.1.1, State.islandOn_at t h.1.2⟩, h.2⟩

theorem State.shutTo_at (s : State) (t : Time) (m : Master) : (s.at t).shutTo m = s.shutTo m := rfl

theorem State.serveStops_nil (s : State) (h : s.kps.stops = []) : s.serveStops = s := by
  show State.forEach ({ s with kps := { s.kps with stops := [] } } : State) s.kps.stops State.portSafe = s
  rw [h]
  show ({ s with kps := { s.kps with stops := [] } } : State) = s
  rw [← h]

theorem pageAt_regAddr {p : Page} {i off : Nat} (hi : i < p.count) (ho : off < 0x1000) : pageAt (regAddr p i off) = some p := by
  simp [pageAt, locate_regAddr hi ho]

/-! ### Reaching the page (R61) -/

theorem State.by_of (s : State) (m : Master) (f : State → State) (h : s.shutTo m = false) : s.by m f = f s := by
  simp [State.by, h]

theorem State.by_shut (s : State) (m : Master) (f : State → State) (h : s.shutTo m = true) : s.by m f = s := by
  simp [State.by, h]

/-- R57: with no earlier access of the master to the page waiting, a write of a register acts. -/
theorem State.ordered_of (s : State) (m : Master) (p : Page) (i off : Nat) (v : Word) (f : State → State)
    (h : s.behind m p i = none) : s.ordered m p i off v f = f s := by
  simp [State.ordered, h]

/-- R57: behind an earlier access that waits, a write of a register waits with it. -/
theorem State.ordered_behind (s : State) (m : Master) (p : Page) (i off q : Nat) (v : Word) (f : State → State)
    (h : s.behind m p i = some q) :
    s.ordered m p i off v f = s.stall q (.write m [(regAddr p i off, leBytes 4 v.toNat)]) := by
  simp [State.ordered, h]

theorem State.command_absent (s : State) (m : Master) (p : Page) (i code arg : Nat) (g : Bool) (spec : Option CmdSpec)
    (h : s.present p i = false ∨ s.shutTo m = true) : s.command m p i code arg g spec = s := by
  rcases h with h | h <;> simp [State.command, h]

theorem State.exec?_countCmd (s : State) (p : Page) (i code : Nat) : (s.countCmd p i code).exec? p i = s.exec? p i := by
  simp only [State.exec?, State.countCmd, State.word_setWord_self, BitVec.getLsbD_or, BitVec.getLsbD_and,
    BitVec.getLsbD_ofNat]
  rw [show ((s.word (statusAddr p i)).toNat / 2 ^ 24 + 1) % 256 * 2 ^ 24 + code % 256 =
    2 ^ 24 * (((s.word (statusAddr p i)).toNat / 2 ^ 24 + 1) % 256) + code % 256 by omega,
    Nat.testBit_two_pow_mul_add _ (by omega)]
  have : (code % 256).testBit 16 = false := by
    apply Nat.testBit_lt_two_pow; omega
  simp [this, State.resetting, State.setWord]
  rfl

/-- R61: a command that passes every check acts with RESULT OK. -/
theorem State.command_ok (s : State) (m : Master) (p : Page) (i code arg : Nat) (c : CmdSpec)
    (hp : s.present p i = true) (hs : s.shutTo m = false) (hb : s.behind m p i = none) (he : s.exec? p i = false) (ha : c.argOk = true)
    (hu : c.unlock = true → s.unlocked p i = true) (hl : c.legal = true) (hc : c.cond = true) :
    s.command m p i code arg false (some c) = c.eff ((s.countCmd p i code).setResult p i resOk) := by
  have hlock : (s.countCmd p i code).unlocked p i = s.unlocked p i := by
    simp only [State.unlocked]
    rw [show (s.countCmd p i code).word (regAddr p i 0x24) = s.word (regAddr p i 0x24) from
      State.word_setWord_ne _ _ (by simp [statusAddr, regAddr])]
  have hu' : (c.unlock && !s.unlocked p i) = false := by
    cases hcu : c.unlock <;> simp [hcu] at hu ⊢
    exact hu
  simp [State.command, hp, hs, State.ordered, hb, State.exec?_countCmd, he, State.judge, ha, hlock, hu', hl, hc]

/-! ### The boot directory -/

/-- R329: the next number comes after a number, and no number comes after the next one. -/
theorem laterPage_next (n : Nat) :
    laterPage ((n + 1) % 2 ^ 32) n = true ∧ laterPage n ((n + 1) % 2 ^ 32) = false := by
  simp only [laterPage, decide_eq_true_eq, decide_eq_false_iff_not]
  omega

/-- R432: a directory written with the next generation is the one in use. -/
theorem Upd.dir_putDir {u : Upd} {d : Dir} (h : d.gen = (u.dir.gen + 1) % 2 ^ 32) : (u.putDir d).dir = d := by
  obtain ⟨hl, hr⟩ := laterPage_next u.dir.gen
  rw [← h] at hl hr
  cases ha : u.copy0 <;> cases hb : u.copy1
  · simp [Upd.putDir, Upd.dir, Upd.useB, ha, hb]
  · simp [Upd.putDir, Upd.dir, Upd.useB, ha, hb] at hl hr ⊢
    simp [hr]
  · simp [Upd.putDir, Upd.dir, Upd.useB, ha, hb] at hl hr ⊢
    simp [hl]
  · rename_i a b
    cases hab : laterPage b.gen a.gen <;>
      simp [Upd.putDir, Upd.dir, Upd.useB, ha, hb, hab] at hl hr ⊢ <;> simp [hl, hr]

/-- R432: a change of the directory that leaves its generation alone is in use at once. -/
theorem State.changeDir_dir (s : State) (f : Dir → Dir) (h : ∀ d, (f d).gen = d.gen) :
    (s.changeDir f).upd.dir = { f s.upd.dir with
      gen := (s.upd.dir.gen + 1) % 2 ^ 32
      mgmt := { (f s.upd.dir).mgmt with bootTries := s.bootTries }
      safety := { (f s.upd.dir).safety with bootTries := s.bootTries } } := by
  simp only [State.changeDir]
  rw [Upd.dir_putDir] <;> simp only [h]

end Sys2Proof.Machine
end

