-- ==== Sys2Proof/Tests/Slice0.lean ====
section
/-! SUPPORT. The model's own tests: an ill-formed command for each check of WellFormed.lean, a witness for the
hypotheses of each statement (clause by clause, at boundary values), and small tests of one command each, whose
expected values are worked out by hand from the rule that the comment names. -/

open Sys2Proof Sys2Proof.Machine

namespace Sys2Proof.Tests

set_option Elab.async false

/-! ### Small states -/

/-- Every island on, self-test passed, the latches of ports 0, 1 and 95 clear, no other port out of its reset state. -/
def up : State :=
  ({ State.reset with
    porst := false, devOp := .run, mem := .ready,
    kps := { Kps.reset with
      st := .run, dsafe := false, deviceLatch := false, portClear := [0, 1, 95], motionClear := List.range 8 } }).fput
    Reg.CLK_ISL_ON_ON 0x3FFFFFFF

/-- The same device in profile UL-24. -/
def up24 : State := { up with ul24 := true }

/-- `up` with stage 1 of throttling applied: what is idle is clock-gated (R402). -/
def throttled : State := { up with thm := { up.thm with level := 1 } }

/-- A page that takes commands, and no stop request that waits. -/
abbrev ready (s : State) (m : Master) (p : Page) (i : Nat) : Prop := s.takes m p i ∧ s.stopsServed

/-- A port that takes accesses to its tables. -/
abbrev open? (s : State) (m : Master) (p : Nat) : Prop := s.hasPort p = true ∧ s.shutTo m = false ∧ s.stopsServed

/-! ### Witnesses: the hypotheses of each statement hold together in a state -/

theorem witness_RegisterCommandsAct :
    ready up .smp .ft 95 ∧ ready up .host .pen 0 ∧ up.answers .host .dev 0 ∧ up.exec? .dev 0 = false := by
  decide +kernel

theorem witness_UnmappedAndAliasAccesses :
    (up.porst = false ∧ up.shutTo .host = false ∧ up.bandBytes ≤ 0x10000000 ∧ up.place 0x3800000 = .unmapped ∧
      up.place 0xC000 = .unmapped) ∧
    (up24.ul24 = true ∧ 0x7FFFFC < 0x800000 ∧ 0x7FFFFC % 4 = 0 ∧ aliasOf 0x7FFFFC = none ∧ aliasOf 0x27FFC = some 0x15CFFC ∧
      aliasOf 0x602FFC = none ∧ aliasOf 0x600BFC = some 0x2402E7C ∧ (up24.at 0).waitsFor .host 0x15CFFC = none) ∧
    up.ul24 = false ∧ (0x42 % 4 + [(0 : Byte), 0].length ≤ 4 ∧ up.place 0x42 ≠ .unmapped ∧
      (up.at 0).waitsFor .host 0x42 = none) := by decide +kernel

theorem witness_WideFieldsHoldAndCapture :
    let held := up.hold .mgmt (regAddr .fbk 95 0x44) 0xFFFFFFFF
    (up.answers .host .ft 95 ∧ up.stopsServed ∧ wideLow .ft 0x2DC = true ∧ wideLow .ft 0x200 = true ∧
      up.absentPart .ft 0x200 = false ∧ groupReg 0x200 = false ∧ groupReg 0x2DC = true ∧ up.answers .host .ft 84 ∧
      84 % 12 = 0 ∧ (up.at 0).waitsFor .host (regAddr .ft 95 0x2DC) = none ∧
      (isShadowed .ft 0x2DC = true ∨ up.takesWrite .ft 95 0x2DC = true)) ∧
    (wideLow .hal0 0x44 = true ∧ isShadowed .hal0 0x44 = false ∧ up.takesWrite .hal0 0 0x44 = false ∧
      (up.setLock .hal0 0 true).takesWrite .hal0 0 0x44 = true) ∧
    (held.answers .mgmt .fbk 95 ∧ held.stopsServed ∧ (held.chan 95).st = .off ∧ wideHigh .fbk 0x48 = true ∧
      held.heldAt .mgmt (regAddr .fbk 95 0x44) = some 0xFFFFFFFF) ∧
    (up.modChan 0 fun x => { x with st := .service }).answers .smp .fbk 0 ∧
    up.captured .host (regAddr .ft 95 0x2DC) = none ∧
    (up.answers .smp .hal0 0 ∧ up.captured .smp (regAddr .hal0 0 0xA4) = none) ∧
    (up.answers .host .kps1 0 ∧ up.captured .host (regAddr .kps1 0 (0x100 + 16 * 31)) = none) := by decide +kernel

theorem witness_SerialPortCarriesAccesses :
    let busy (r : Bool) : State := { up with smp := { up.smp with busy := true, reading := r } }
    let bad := (smpReadBytes 0x18).set 8 0x5A
    (up.porst = false ∧ up.islandOn 29 = true ∧ up.tap.disconnected = false ∧ up.present .mgp 7 = true ∧ up.behind .smp .mgp 7 = none ∧
      up.stopsServed ∧ up.smp.busy = false ∧ up.islandOn 0 = true ∧ up.captured .smp (regAddr .mgp 7 0x18) = none) ∧
    (smpWriteBytes 0x18 5).take 5 ++ (smpWriteBytes 0x18 5).drop 5 = smpWriteBytes 0x18 5 ∧
    ((busy true).islandOn 29 = true ∧ (busy true).smp.busy = true ∧ (busy true).smp.reading = true ∧ (busy true).smpWaits = false ∧
      (busy false).smp.reading = false ∧ (busy false).smpWaits = false) ∧
    (smpOp bad = some .read ∧ SmpOp.read.length ≤ bad.length ∧ SmpOp.read.crcOk bad = false ∧
      SmpOp.read.crcOk (smpReadBytes 0x18) = true) ∧
    (smpOp (smpWriteBytes 0x18 5) = some .write ∧ SmpOp.write.length ≤ (smpWriteBytes 0x18 5).length ∧
      (busy false).smp.busy = true) ∧
    (smpOp [0xFF] = none ∧ smpOp (List.replicate 8 0x0B) = some .read ∧
      (List.replicate 8 (0x0B : Byte)).length < SmpOp.read.length) := by decide +kernel

theorem witness_WokenPartTakesWaitingCommand :
    let w : Waking := ⟨.host, .scr, 7, 1, 11⟩
    let asleep := { (throttled.setExec .scr 7 true) with waking := [w] }
    (throttled.takes .host .scr 7 ∧ throttled.gatedScreen 7 = true ∧ throttled.takes .host .scr 0 ∧
      throttled.gatedScreen 0 = true) ∧
    asleep.waking.find? (fun w => w.page == .scr && w.inst == 7) = some w ∧ asleep.present .scr 7 = true ∧
    asleep.exec? .scr 7 = true ∧ asleep.stopsServed := by decide +kernel

theorem witness_ShadowedTablesTakeWrites :
    let busy := up.modPort 95 fun x => { x with busyNow := true }
    (open? up .host 95 ∧ (up.at 0).waits 95 = false) ∧ (open? busy .host 95 ∧ (busy.at 0).waits 95 = true) ∧
    (open? up24 .smp 23 ∧ (up24.at 7).waits 23 = false) ∧
    (95 = 12 * 7 + 11 ∧ up.takes .host .scr 7 ∧ up.gatedScreen 7 = false) ∧
    (busy.takes .host .scr 7 ∧ busy.gatedScreen 7 = false) := by decide +kernel

theorem witness_ShadowTransferOnRequest :
    let armed := up.modPort 0 fun x => { x with sq := .armed }
    let busy := up.modPort 95 fun x => { x with busyNow := true }
    let l : List Stalled := [.write .host [(natAddr 95 12287, leBytes 4 0xFFFFFFFF)], .write .host [(widthAddr 95 95, leBytes 4 7)],
      .natImm 12286 5, .read .host [(natAddr 95 12287, 4)]]
    let waits := up.modPort 95 fun x => { x with stalled := l }
    (open? up .host 95 ∧ up.answers .host .ft 95 ∧ (up.port 95).sq = .idle) ∧
    (open? armed .host 0 ∧ armed.answers .host .ft 0 ∧ (armed.port 0).sq ≠ .idle) ∧
    (open? busy .host 95 ∧ (busy.port 95).busyNow = true ∧ (busy.at 9).busy 95 = true) ∧
    (open? waits .host 95 ∧ (waits.at 0).busy 95 = false ∧ (waits.port 95).stalled = l ∧
      (waits.port 95).rdActive = false ∧ waits.readData .host = []) := by
  decide +kernel

theorem witness_GroupTablesTakeWrites :
    let armed := up.modPort 95 fun x => { x with sq := .armed, flow := { x.flow with slot := 7 } }
    let moving := up.modAxis 95 fun x => { x with st := .moving }
    let playing := up.modAxis 84 fun x => { x with pvt := some ⟨255, 0, 0, 0⟩ }
    let running := up.modCal 0xE0 fun x => { x with phase := .p2 }
    (up.shutTo .host = false ∧ up.present .scr 7 = true ∧ (up.slotUse 7).testBit 7 = false) ∧
    (armed.present .scr 7 = true ∧ (armed.slotUse 7).testBit 7 = true) ∧
    (up.present .mgp 7 = true ∧ up.groupEnabled 7 = false) ∧ (moving.present .mgp 7 = true ∧ moving.groupEnabled 7 = true) ∧
    (up.axis 84).pvt = none ∧ (playing.present .mgp 7 = true ∧ (playing.axis (12 * 7)).pvt = some ⟨255, 0, 0, 0⟩ ∧ 255 = 1023 / 4) ∧
    (up.present .cal 0 = true ∧ up.calPresent 0xF9 = true ∧ up.calWritable 0xF9 = true) ∧
    (running.calPresent 0xE0 = true ∧ running.calWritable 0xE0 = false) := by decide +kernel

/-- A slot that would put port 11's own credits over its group's active maximum. -/
theorem witness_PlanAndBudgetRegistersTakeWrites :
    let v : Word := 0xFFFFFFFF
    let low := (up.setAword (Reg.GRP_MAX_ACTIVE_MAX.addr 0) 0)
    let plan (s : State) (p : Nat) (new : SlotCfg) := (members (p / 12)).map fun q => if q = p then new else s.slotOf q
    (open? up .host 95 ∧ up.portCfg 95 = true ∧
      planOk (up.groupA 7) (plan up 95 ⟨up.fget Reg.FT_SEQ_CRED 95, Reg.FT_SLOT_OFS.get v, Reg.FT_SLOT_WIN.get v⟩) = true) ∧
    (open? low .host 11 ∧ low.portCfg 11 = true ∧
      planOk (low.groupA 0) (plan low 11 ⟨Reg.FT_SEQ_CRED.get v, low.fget Reg.FT_SLOT_OFS 11, low.fget Reg.FT_SLOT_WIN 11⟩) = false) ∧
    (up.setLock .en 95 true).unlocked .en 95 = true ∧ open? (up.setLock .en 95 true) .host 95 ∧
    up.unlocked .en 95 = false := by decide +kernel

theorem witness_HostReachesBandStoreAndSpool :
    let ring (x : Ring → Ring) := up.setRing 95 (x { Ring.reset with st := .run, base := 4095, size := 1 })
    let holds := ring fun r => { r with wpos := 64 }
    let spoolOnly := ring fun r => { r with spoolOnly := true }
    let bad := { up with ue := [(.band, 0x1FFFFFF)] }
    let full := up.fput Reg.MEM_CAP_CAP 64
    let top := full.fput Reg.MEM_AP_BASE_BASE 3
    (up.porst = false ∧ up.islandOn isleMemory = true ∧ up.pcie.d0 = true ∧ up.stopsServed) ∧
    (0xFFFFFFF + [(0 : Byte)].length ≤ up.bandBytes ∧ ∀ q, q < up.portCount → ∀ i, i < [(0 : Byte)].length →
      (up.ring q).committed (0xFFFFFFF + i) = false ∧
        ((up.ring q).spoolOnly = true → (up.ring q).holds (0xFFFFFFF + i) = false)) ∧
    (95 < holds.portCount ∧ (holds.ring 95).committed (65536 * 4095 + 63) = true ∧
      (holds.ring 95).committed (65536 * 4095 + 64) = false) ∧
    ((spoolOnly.ring 95).spoolOnly = true ∧ (spoolOnly.ring 95).holds 0xFFFFFFF = true) ∧
    (0xFFFFFF8 < up.bandBytes ∧ up.ue = [] ∧ bad.isUe .band (0xFFFFFF8 / 8) = true) ∧
    (full.mem = .ready ∧ 0x40000000 * full.fget Reg.MEM_AP_BASE_BASE + 0x3FFFFFFF + 1 ≤ full.spoolSize) ∧
    ({ up with mem := .training }).mem ≠ .ready ∧
    (0x40000000 * top.fget Reg.MEM_AP_BASE_BASE + 0x3FFFFFFF + [(0 : Byte)].length ≤ top.spoolSize ∧
      top.spoolSize < 0x40000000 * top.fget Reg.MEM_AP_BASE_BASE + 0x3FFFFFFF + [(0 : Byte), 0].length) ∧
    (up.mem = .ready ∧ up.spoolSize < 0x40000000 * up.fget Reg.MEM_AP_BASE_BASE + 0 + 1) := by decide +kernel


/-- A band header of R93 with its CRC: one format-3 band of 64-byte rows. -/
def header (port page first lines pageLines : Nat) (last : Bool) (seqNo : Nat) : List Byte :=
  let w := ([0xBD5A0103, page, first, lines, pageLines, 1, (if last then 256 else 0) + port, seqNo * 65536 + 64] ++
    List.replicate 7 0).flatMap (leBytes 4)
  w ++ leBytes 4 (crc32c w).toNat

/-- Port 95 with a one-unit ring at the top of the Band Store that holds some bytes. -/
def ringed (st : RingState) (bytes : List Byte) : State :=
  { up.setRing 95 { Ring.reset with st := st, base := 4095, size := 1, cols := 512, wpos := bytes.length } with
    band := memPut 0 [] (65536 * 4095) bytes }

/-- The flow of port 95 is printing a page of 2 lines. -/
def page0 : PageInfo := ⟨0, 3, 2, 1, 0, false, 0, 0, false⟩

def blackLine : Line := ⟨0, none, [(0, 1)], List.replicate 12 400, [400, 400, 400], none, 0, none, false⟩

def printing (f : Flow → Flow) : State :=
  up.modPort 95 fun x => { x with
    st := .printing, sq := .printing, pwrEn := true, link := .run,
    flow := f { x.flow with cur := some page0, total := 2, fetchM := 1, lines := [blackLine] } }

theorem witness_RingProducerCommands :
    let s := ringed .run []
    let cfg := ((up.setLock .bnd0 0 true).fput Reg.BND_RCFG_BASE 4095 0 95).fput Reg.BND_RCFG_SIZE 1 0 95
    let w : Ptr := ⟨0x80000000 % 2 ^ 28, true⟩
    (95 < s.portCount ∧ s.answers .host .bnd1 0 ∧ (s.ring 95).st ≠ .unconfigured ∧ w.off < (s.ring 95).bytes ∧
      w.off % 64 = 0 ∧ 0 < (Ptr.ofPos (s.ring 95).bytes (s.ring 95).wpos).ahead w (s.ring 95).bytes ∧
      (s.ring 95).fill + (Ptr.ofPos (s.ring 95).bytes (s.ring 95).wpos).ahead w (s.ring 95).bytes = (s.ring 95).bytes) ∧
    ((up.ring 95).st = .unconfigured ∧ (s.ring 95).bytes ≤ 65536 ∧ 65535 % 64 ≠ 0 ∧
      (Ptr.ofPos (s.ring 95).bytes 0).ahead ⟨0, false⟩ (s.ring 95).bytes = 0) ∧
    (cfg.takesUnlocked .host .bnd0 0 ∧ cfg.gatedRing 95 = false ∧ (cfg.port 95).sq = .idle ∧ cfg.ringOk 95 = true) ∧
    s.takes .host .bnd0 0 := by decide +kernel

theorem witness_ReaderChecksBandHeaders :
    let good := ringed .run (header 95 0 0 2 2 true 65535)
    let ahead := ringed .run (header 95 1 0 2 2 true 65535)
    let short := { good with ue := [(.band, (65536 * 4095 + 56) / 8)] }
    let noise := ringed .resync (List.replicate 64 0xFF)
    let found := ringed .resync (header 95 7 1 1 2 true 9)
    let r (s : State) := s.ring 95
    let bs (s : State) := s.ringBytes 95 (r s).hpos 64
    let c16 (s : State) := s.check16 95 (bs s) (s.ringUe 95 (r s).hpos).isSome
    let code (s : State) := if c16 s ≠ 0 then c16 s else (r s).check710 (parseHdr (bs s))
    (good.hasPort 95 = true ∧ good.islandOn isleMemory = true ∧ good.stopsServed ∧ (r good).hpos + 64 ≤ (r good).wpos ∧
      (r good).st = .run ∧ (r good).cols % 512 = 0 ∧ good.discards? 95 0 = false ∧ (parseHdr (bs good)).page = 0 ∧ code good = 0) ∧
    (code short = 10 ∧ short.discards? 95 (parseHdr (bs short)).page = false ∧
      (short.at 0).hasPassed 95 (parseHdr (bs short)).page = false) ∧
    ahead.discards? 95 (parseHdr (bs ahead)).page = true ∧
    ((r noise).st = .resync ∧ (r noise).hpos + 64 ≤ (r noise).wpos ∧ c16 noise ≠ 0) ∧
    ((r found).st = .resync ∧ c16 found = 0 ∧ (r found).curInfo = none ∧
      (parseHdr (bs found)).geometryOk (r found).cols none = true) := by decide +kernel

theorem witness_MemoryControllerStates :
    let off := ((({ up with mem := .off }).setLock .mem 0 true).fput Reg.MEM_CFG_CH_EN 15).fput Reg.MEM_CFG_DENSITY 5
    let training := { up with mem := .training }
    let scrubbed := { up.fput Reg.MEM_CAP_CAP 1 with memCfg := 0xFFFFFFFF }
    (off.takesUnlocked .mgmt .mem 0 ∧ off.mem = .off ∧ (channelsOf (off.fget Reg.MEM_CFG_CH_EN)).isSome = true ∧
      1 ≤ off.fget Reg.MEM_CFG_DENSITY ∧ off.fget Reg.MEM_CFG_DENSITY ≤ 5) ∧
    (training.porst = false ∧ training.islandOn isleMemory = true ∧ training.stopsServed ∧ training.mem = .training) ∧
    (up.takes .mgmt .mem 0 ∧ up.mem = .ready) ∧
    ({ up with mem := .selfRefresh }).takes .mgmt .mem 0 ∧
    (scrubbed.mem = .ready ∧ Reg.MEM_CFG_SCRUB_EN.get scrubbed.memCfg = 1 ∧ 0 < scrubbed.spoolSize ∧ scrubbed.stopsServed ∧
      scrubbed.spoolEcc = true ∧
      scrubbed.scrubbed + max 1 (scrubbed.fget Reg.MEM_SCRUB_INTERVAL) * us ≤ max scrubbed.now (100000 * ms)) := by
  decide +kernel

theorem witness_SequencerCommandsMovePorts :
    let ready95 := ((up.fput Reg.SEQ_PORT_EN_EN 0x80000000 0 2).modPort 95 fun x => { x with st := .ready }).modRing 95
      fun r => { r with met := some ⟨0, 0, 2, 1⟩, pages := [page0] }
    let armed := up.modPort 0 fun x => { x with st := .printing, sq := .armed }
    let drained := up.modPort 95 fun x => { x with st := .printing, sq := .draining }
    let bound := ready95.modPort 95 fun x => { x with st := .printing, sq := .boundary }
    (ready95.takes .host .seq 0 ∧ ready95.gatedArm = false ∧ ready95.devState = .idle ∧
      ready95.portList.any ready95.armable = true ∧ ready95.devOp ≠ .limited ∧ ready95.mayLeaveIdle 95 = true ∧
      ready95.mayLeaveIdle 0 = false ∧ ready95.stopsServed ∧ ready95.ue = []) ∧
    (armed.takes .host .seq 0 ∧ armed.devState ≠ .idle ∧ (armed.port 0).sq = .armed) ∧
    ((printing id).takes .host .seq 0 ∧ (printing id).devState ≠ .idle ∧ ((printing id).port 95).sq = .printing) ∧
    (drained.hasPort 95 = true ∧ drained.stopsServed ∧ (drained.port 95).sq = .draining ∧ (drained.flow 95).ended = true ∧
      (drained.port 95).hold = false ∧ drained.upd.act = none) ∧
    (bound.hasPort 95 = true ∧ bound.stopsServed ∧ (bound.port 95).sq = .boundary ∧ (bound.flow 95).boundaryEnd = none ∧
      (bound.port 95).svcPend = .none ∧ bound.stopPending = false ∧ bound.enabledPort 95 = true ∧
      (bound.ring 95).pages ≠ [] ∧ bound.sKnown 95 = true ∧ bound.ue = []) ∧
    ({ bound with stopPending := true }).stopPending = true ∧ (bound.port 95).inFlow = true := by decide +kernel

theorem witness_PortStateCommandsMovePorts :
    let at95 (f : Port → Port) := up.modPort 95 f
    let served := (at95 fun x => { x with st := .service, pwrEn := true, link := .idle }).fput Reg.LK_STAT_IDENT_OK 1 95
    let standby := at95 fun x => { x with st := .standby, statusSeen := true }
    let safe := at95 fun x => { x with st := .safe }
    let boundary := at95 fun x => { x with st := .printing, sq := .boundary, svcPend := .boundary }
    let line := at95 fun x => { x with st := .printing, sq := .printing, svcPend := .afterLine }
    (up.hasPort 95 = true ∧ up.takes .smp .ft 95 ∧ up.gatedFire 7 = false ∧ (up.port 95).st = .off ∧ up.kps.dsafe = false ∧
      up.kps.portClear.contains 95 = true ∧ up.kps.portClear.contains 94 = false ∧ up.portAcked 94 = true) ∧
    (safe.takes .smp .ft 95 ∧ safe.portAcked 95 = true ∧ (safe.port 95).recipeLoad = false) ∧
    ((printing id).takes .smp .ft 95 ∧ ((printing id).port 95).st = .printing ∧ ((printing id).port 95).svcPend = .none) ∧
    (boundary.stopsServed ∧ (boundary.port 95).inFlow = true ∧ (boundary.port 95).svcPend = .boundary ∧
      (boundary.port 95).sq = .boundary) ∧
    ((line.port 95).svcPend = .afterLine ∧ line.lineEnd 95 ≤ max line.now 0) ∧
    (served.takes .smp .ft 95 ∧ (served.port 95).st = .service ∧ served.devOp ≠ .limited ∧
      (served.port 95).recipeLoad = false ∧ served.fbit Reg.LK_STAT_IDENT_OK 95 = true ∧ (served.port 95).link ≠ .down ∧
      served.fits 95 = true) ∧
    ((at95 fun x => { x with st := .service }).port 95).pwrEn = false ∧
    (standby.takes .smp .ft 95 ∧ standby.gatedFire 7 = false ∧ (standby.port 95).st = .standby ∧
      (standby.port 95).statusSeen = true ∧ (standby.port 95).hotDies = 0 ∧ standby.devState = .idle) := by decide +kernel

theorem witness_GroupPlanApplies :
    let fixed := up.fput Reg.GRP_PACE_FIXED 1 84
    (up.takes .host .ft 84 ∧ up.gatedFire 7 = false ∧ (∀ q ∈ members 7, (up.port q).sq = .idle) ∧ up.groupUsable 7 = true ∧
      up.planFits 7 = true) ∧
    (fixed.takes .host .ft 84 ∧ fixed.groupUsable 7 = true ∧ fixed.planFits 7 = true ∧ (fixed.groupP 7).fixed = true) ∧
    (up.takes .host .ft 95 ∧ 95 % 12 ≠ 0) := by decide +kernel

theorem witness_LineStagesAdvance :
    let s := printing id
    let staged := printing fun f => { f with stageM := 1 }
    let hot := staged.modPort 95 fun x => { x with st := .hotHold }
    (s.hasPort 95 = true ∧ s.stopsServed ∧ (s.flow 95).cur = some page0 ∧
      (s.flow 95).lines.find? (fun l => l.m == (s.flow 95).stageM) = some blackLine ∧ blackLine.lost = none ∧
      page0.blank = false ∧ blackLine.m < page0.pageLines ∧ (s.flow 95).schedM ≤ blackLine.m ∧ (s.port 95).st = .printing) ∧
    ((s.flow 95).stageM < (s.flow 95).fetchM ∧ s.ue = []) ∧
    ((staged.flow 95).sendM < (staged.flow 95).stageM ∧ (staged.port 95).st = .printing ∧
      (staged.port 95).linkFreeAt ≤ max staged.now 0 ∧ staged.trimFirst 95 = false ∧
      (staged.flow 95).lines.find? (fun l => l.m == (staged.flow 95).sendM) = some blackLine ∧
      (staged.flow 95).cur = some page0) ∧
    ((hot.flow 95).sendM < (hot.flow 95).stageM ∧ (hot.port 95).st = .hotHold ∧ hot.stopsServed) := by decide +kernel

theorem witness_PlacementStartsPagesAndLines :
    let armed := (((up.modPort 95 fun x => { x with st := .printing, sq := .armed }).modRing 95 fun r =>
      { r with met := some ⟨0, 0, 2, 1⟩, pages := [page0] }).modChan 84 fun x => { x with st := .run })
    let fixed := { up.setAword (Reg.GRP_PACE_FIXED.addr 84) 1 with clocks := [(7, (0, 20834 * 2 ^ 32))] }
    let timed := printing fun f => { f with lines := [{ blackLine with t0 := some 5 }] }
    (armed.hasPort 95 = true ∧ armed.stopsServed ∧ armed.fixedPace 7 = false ∧ (armed.port 95).sq = .armed ∧
      armed.sKnown 95 = true ∧ (armed.ring 95).pages = [page0] ∧ armed.due 95 page0.start 0 = true ∧ armed.ue = []) ∧
    (fixed.hasPort 95 = true ∧ fixed.stopsServed ∧ fixed.fixedPace 7 = true ∧ fixed.islandOn (9 + 7) = true ∧
      (fixed.clock 7).2 ≠ 0) ∧
    (up.fixedPace 7 = false ∧ (up.clock 7).2 = 0) ∧
    (timed.hasPort 95 = true ∧ (timed.flow 95).lines.find? (·.t0.isSome) = some { blackLine with t0 := some 5 } ∧
      (timed.flow 95).cur = some page0 ∧ (timed.port 95).st = .printing ∧ timed.stopsServed) ∧
    ((up.modPort 95 fun x => { x with st := .hotHold }).port 95).st = .hotHold := by decide +kernel

theorem witness_PhasesRaiseStrobes :
    let firing (k : Nat) := printing fun f => { f with firing := some { blackLine with t0 := some 5 }, phase := k }
    let marked := printing fun f => { f with
      firing := some { blackLine with t0 := some 5 }, marked := 1, markFor := some 0 }
    let out := printing fun f => { f with lines := [{ blackLine with sentAt := some 3 }] }
    let held := up.modPort 95 fun x => { x with
      st := .hotHold, flow := { x.flow with firing := some { blackLine with t0 := some 5 }, marked := 1, markFor := some 9 } }
    let still := up.modPort 95 fun x => { x with st := .hotHold }
    ((firing 14).hasPort 95 = true ∧ (firing 14).stopsServed ∧ (firing 14).ul24 = false ∧
      ((firing 14).port 95).health.stepT0 = none ∧
      ((firing 14).flow 95).firing = some { blackLine with t0 := some 5 } ∧ ((firing 14).flow 95).phase + 1 = 15) ∧
    (marked.stopsServed ∧ marked.hasPort 95 = true ∧ (marked.port 95).pwrEn = true ∧
      marked.nextMarker 95 = some ⟨1, 0, marked.phaseStart 95 5 0 + 50 * ns⟩ ∧
      max marked.now 0 < marked.phaseStart 95 5 0 + 50 * ns ∧
      marked.phaseStart 95 5 0 + 50 * ns ≤ max marked.now us ∧
      (marked.flow 95).markFor = some ({ blackLine with t0 := some 5 } : Line).lseq ∧ (marked.flow 95).marked ≠ 0) ∧
    up.nextMarker 95 = none ∧
    (still.hasPort 95 = true ∧ (still.port 95).st = .hotHold ∧ (still.port 95).health.stepT0 = none ∧
      (still.flow 95).marked = 0 ∧ still.stopsServed) ∧
    (held.hasPort 95 = true ∧ held.stopsServed ∧ (held.port 95).st = .hotHold ∧ (held.port 95).health.stepT0 = none ∧
      ∀ l, (held.flow 95).firing = some l → (held.flow 95).markFor ≠ some l.lseq) ∧
    ((out.port 95).health.stepT0 = none ∧ (out.port 95).st ≠ .hotHold ∧ (out.flow 95).marked = 0 ∧
      (out.flow 95).markNext = some { blackLine with sentAt := some 3 }) := by
  refine ⟨by decide +kernel, by decide +kernel, by decide +kernel, by decide +kernel,
    ⟨by decide +kernel, by decide +kernel, by decide +kernel, by decide +kernel, ?_⟩, by decide +kernel⟩
  intro l h
  have : some { blackLine with t0 := some 5 } = some l := h
  cases this
  decide +kernel

theorem witness_OverdriveBudgetCounts :
    let spent := up.modPort 95 fun x => { x with budget := ⟨[], 0, some 0, false⟩ }
    (up.hasPort 95 = true ∧ up.stopsServed ∧ (up.port 95).budget.binFrom + up.binLen 95 ≤ max up.now 156250000000 ∧
      max up.now 156249999999 < (up.port 95).budget.binFrom + up.binLen 95) ∧
    (spent.hasPort 95 = true ∧ spent.stopsServed ∧ (spent.port 95).budget.exhFrom = some 0 ∧
      0 + spent.fget Reg.EN_GRACE_GRACE 95 * ms ≤ max spent.now (spent.fget Reg.EN_GRACE_GRACE 95 * ms)) ∧
    (up.setLock .en 95 true).takesUnlocked .host .en 95 ∧ (up.port 95).st = .off ∧ up.takes .host .en 95 := by
  decide +kernel


theorem witness_ReturnLaneFramesAct :
    let at95 (f : Port → Port) := up.modPort 95 fun x => f { x with st := .standby, pwrEn := true, cfgDies := [3] }
    let waiting := at95 fun x => { x with ackWait := [(65535, none)] }
    let config := at95 fun x => { x with link := .config }
    let asked := at95 fun x => { x with link := .ident, identReqAt := some 0 }
    let printing95 (hot : Nat) := at95 fun x => { x with st := .printing, hotDies := hot }
    let warm := (printing95 0).fput Reg.EN_HOT_HOT 0 95
    let hotOf (s : State) (t : Int) := maskOf ((s.port 95).cfgDies.filter fun d => decide (s.hotLimit 95 ≤ [t, t, t, t].getD d 0))
    let hot (s : State) (t : Int) := (s.port 95).cfgDies.any fun d =>
      decide (signed 16 (s.fget Reg.EN_CRIT_CRIT 95) ≤ [t, t, t, t].getD d 0)
    (waiting.hasPort 95 = true ∧ waiting.stopsServed ∧ (waiting.port 95).pwrEn = true ∧ waiting.tap.disconnected = false ∧
      (waiting.port 95).ackWait.any (fun e => e.1 == 65535) = true) ∧
    ((config.port 95).st ≠ .printing ∧ hot config 0 = false) ∧
    ((config.port 95).st ≠ .off ∧ (config.port 95).critDies = 0 ∧ hot config 32767 = true) ∧
    (((printing95 0).port 95).st = .printing ∧ hot (printing95 0) 0 = false ∧ hotOf (printing95 0) 0 = 0 ∧
      (hot warm 1 = false ∧ hotOf warm 1 ≠ 0 ∧ (warm.port 95).hotDies = 0 ∧
        (warm.path (9 + 95 / 12)).queue.length < 16) ∧
      ((printing95 8).port 95).hotDies ≠ 0) ∧
    ((asked.port 95).identReqAt = some 0 ∧ max asked.now ms ≤ 0 + ms ∧ (asked.port 95).link = .ident) ∧
    ((config.port 95).link = .config ∧ config.fbit Reg.LK_STAT_CFG_OK 95 = false ∧ config.hasPort 95 = true ∧
      config.ue = [] ∧ (1 : Nat) ≠ 0 ∧ config.stopsServed) := by decide +kernel

theorem witness_LinkSupervisionActs :
    let at95 (f : Port → Port) := up.modPort 95 fun x => f { x with st := .standby, pwrEn := true, link := .run }
    let idle := at95 fun x => { x with link := .idle }
    let trims (f : Port → Port) := (at95 f).fput Reg.LK_CFG_TRIM_MODE 1 95
    let now := trims fun x => { x with trimImm := [767] }
    let pend := trims fun x => { x with trimPend := [767] }
    let due := at95 fun x => { x with ackWait := [(0, some 0)] }
    let held := (printing fun f => { f with sendM := 0, fetchM := 2 }).modPort 95 fun x => { x with
      trimImm := [767], immHold := some (0, 1) }
    let config (n : Nat) := at95 fun x => { x with link := .config, cfgTries := n, configAt := some 0 }
    let s := at95 id
    (idle.hasPort 95 = true ∧ idle.takes .host .lk 95 ∧ idle.gatedFire 7 = false ∧ (idle.port 95).link = .idle) ∧
    (now.stopsServed ∧ now.trimOn 95 = true ∧ (now.port 95).trimImm = 767 :: [] ∧ (now.port 95).linkFreeAt ≤ max now.now 0 ∧ now.hasPort 95 = true ∧ now.ue = [] ∧
      now.immHeld 95 = false) ∧
    (held.stopsServed ∧ (held.port 95).trimImm = 767 :: [] ∧ held.immHeld 95 = true) ∧
    (pend.stopsServed ∧ pend.trimOn 95 = true ∧ (pend.port 95).trimImm = [] ∧ (pend.port 95).trimPend = [767] ∧
      (pend.port 95).linkFreeAt ≤ max pend.now 0 ∧ pend.lineReady 95 = false) ∧
    ((due.port 95).ackWait.find? (fun e => match e.2 with
        | some d => decide (d ≤ max due.now 0) | none => false) = some (0, some 0) ∧ due.stopsServed) ∧
    ((config 2).stopsServed ∧ ((config 2).port 95).link = .config ∧ ((config 2).port 95).cfgTries < 3 ∧
      3 ≤ ((config 3).port 95).cfgTries ∧ ((config 2).port 95).configAt = some 0 ∧ 0 + ms ≤ max (config 2).now ms ∧
      max (config 2).now (ms - 1) < 0 + ms) ∧
    (s.stopsServed ∧ (s.port 95).link = .run ∧ (s.port 95).st = .standby ∧
      (s.port 95).statusAt + s.rtTimeout 95 * us ≤ max s.now (s.rtTimeout 95 * us) ∧ (s.port 95).rtLossNow = false) := by
  decide +kernel

theorem witness_ChannelsCountAndObserve :
    let run := up.modChan 95 fun x => { x with st := .run }
    let svc := (up.modChan 95 fun x => { x with st := .service }).fput Reg.FBK_CFG_IDX_EN 1 95
    let gate := svc.modChan 95 fun x => { x with a := true, b := true }
    let top := (run.modChan 95 fun x => { x with count := 2 ^ 47 - 1 })
    let two := run.fput Reg.FBK_CFG_FILT_N 2 95
    let hi := List.replicate 15 true
    (up.present .fbk 95 = true ∧ up.tap.disconnected = false ∧ (up.chan 95).a = false ∧ (up.chan 95).b = false ∧
      (up.chan 95).st = .off ∧ (run.chan 95).st ≠ .off ∧ top.softMax 95 < (top.chan 95).count + 1 ∧
      up.filtered 95 false hi = true ∧ up.filtered 95 false [] = false) ∧
    (max 1 (two.fget Reg.FBK_CFG_FILT_N 95) = [true, false].length ∧ two.filtered 95 true [true, false] = true ∧
      two.filtered 95 false [true, false] = false ∧ two.filtered 95 false [true, true] = true ∧
      two.filtered 95 true [false, false] = false) ∧
    (svc.present .fbk 95 = true ∧ (svc.chan 95).st = .service ∧ (svc.chan 95).i = false ∧ svc.filtered 95 false hi = true) ∧
    ((up.modChan 95 fun x => { x with i := true }).chan 95).i = true ∧
    (gate.fbit Reg.FBK_CFG_IDX_EN 95 = true ∧ (gate.chan 95).a = gate.fbit Reg.FBK_CFG_GATE_A 95 ∧
      (gate.chan 95).b = gate.fbit Reg.FBK_CFG_GATE_B 95) ∧
    (svc.fbit Reg.FBK_CFG_IDX_EN 95 = true ∧ (svc.chan 95).a ≠ svc.fbit Reg.FBK_CFG_GATE_A 95) := by decide +kernel

theorem witness_ChannelCommandsAct :
    let svc := up.modChan 95 fun x => { x with st := .service }
    let fault (sev2 : Bool) := up.modChan 95 fun x => { x with st := .fault, faultSev2 := sev2 }
    (up.takes .smp .fbk 95 ∧ (up.chan 95).st = .off ∧ up.chanBound 95 = false) ∧
    (((fault true).chan 95).st = .fault ∧ (fault true).chanAcked 95 = true ∧ (fault true).chanBound 95 = false ∧
      ((fault false).chan 95).faultSev2 = false) ∧
    (svc.takes .smp .fbk 95 ∧ (svc.chan 95).st = .service) := by decide +kernel

theorem witness_ScanCommandsAct :
    let at95 (f : Port → Port) := (up.modPort 95 f).fput Reg.LK_STAT_IDENT_OK 1 95
    let idle := at95 fun x => { x with st := .service, link := .idle }
    let waiting := at95 fun x => { x with st := .service, link := .run, health := { x.health with st := .waiting } }
    let step := at95 fun x => { x with st := .printing, health := { x.health with st := .stepping, stepT0 := some 9 } }
    (idle.takes .host .hl 95 ∧ idle.gatedFire 7 = false ∧ (idle.port 95).health.st = .stopped ∧ (idle.port 95).st ≠ .off ∧
      idle.scanOk 95 = true) ∧
    ((waiting.port 95).health.st ≠ .stopped ∧ (waiting.port 95).health.stepT0 = none ∧ waiting.takes .host .hl 95) ∧
    ((step.port 95).health.st ≠ .stopped ∧ (step.port 95).health.stepT0 = some 9) ∧
    (waiting.gatedFire 7 = false ∧ (waiting.port 95).health.st = .waiting ∧ (waiting.port 95).st = .service ∧
      waiting.fbit Reg.LK_STAT_IDENT_OK 95 = true ∧ (waiting.port 95).link ≠ .down ∧ waiting.fits 95 = true) := by
  decide +kernel

theorem witness_ScanStepsAct :
    let at95 (f : Health → Health) := up.modPort 95 fun x => { x with
      st := .service, link := .run, pwrEn := true, health := f { x.health with st := .stepping, svc := true } }
    let next := at95 fun h => { h with cursor := 767 }
    let l : Line := { blackLine with codes := [(0, 1)] }
    let done := at95 fun h => { h with stepT0 := some 9, stepLine := some l }
    let wide : Line := { blackLine with widths := List.replicate 12 16000, env := [16000, 0, 0], t0 := some 0 }
    let drift := (printing fun f => { f with
      firing := some wide, phase := 0, pulses := [⟨0, 0, 16000 * 250⟩] }).fput Reg.HL_CTL_DRIFT_EN 1 95
    let fs := (wide.codes.filter fun e => e.2 == 1 && e.1 % 16 == drift.ord 95 0).map (·.1)
    (next.hasPort 95 = true ∧ next.stopsServed ∧ (next.port 95).health.st = .stepping ∧
      (next.port 95).health.stepT0 = none ∧ next.runAlive 95 = true ∧ (next.port 95).link = .run ∧
      (next.port 95).health.confirm = [] ∧
      767 = next.nextStep 95 (next.port 95).health.cursor (next.scanEnd 95) ∧ 767 < next.scanEnd 95 ∧
      (next.at 0).stepFits 95 = true) ∧
    (done.hasPort 95 = true ∧ (done.port 95).health.stepLine = some l ∧ (done.port 95).health.learn = false ∧
      (done.port 95).health.confirm = [] ∧ (done.fput Reg.HL_POLICY_AUTO 0 95).fbit Reg.HL_POLICY_AUTO 95 = false ∧
      done.fget Reg.HL_RES_SIZE_SIZE 95 = 0 ∧ done.stopsServed) ∧
    (drift.hasPort 95 = true ∧ (drift.flow 95).firing = some wide ∧
      (drift.port 95).st = .printing ∧ drift.fbit Reg.HL_CTL_DRIFT_EN 95 = true ∧ (drift.flow 95).phase = 0 ∧ fs = [0] ∧
      drift.driftPhase 95 wide 0 0 fs = true) := by decide +kernel

/-- Axis 95 as told. -/
def axed (f : Axis → Axis) : State := up.modAxis 95 f

theorem witness_AxisStateCommandsAct :
    let faulted := axed fun x => { x with st := .fault, faultSev2 := true }
    let svc := ((axed fun x => { x with st := .service }).fput Reg.AX_COIL_COIL_R 1 95)
    let bound := svc.fput Reg.AX_ENC_ENC_CH 95 95
    let free := (svc.fput Reg.AX_ENC_ENC_CH 0x7F 95).fput Reg.AX_FERR_FERR_EN 0 95
    let off := axed fun x => { x with st := .disabled }
    let stby := off.fput Reg.AX_CFG_STBY_MODE 1 95
    let held := { off with kps := { off.kps with dsafe := true } }
    let still := axed fun x => { x with st := .standstill }
    (up.takes .host .ax0 95 ∧ (up.axis 95).st = .off ∧ (faulted.axis 95).st = .fault ∧ faulted.faultFree 95 = true ∧
      up.setMoves 95 = false ∧ faulted.setMoves 95 = false) ∧
    ((bound.axis 95).st = .service ∧ bound.fget Reg.AX_ENC_ENC_CH 95 < 96 ∧ bound.fget Reg.AX_COIL_COIL_R 95 ≠ 0 ∧
      bound.takes .host .ax0 95) ∧
    (free.fget Reg.AX_ENC_ENC_CH 95 = 0x7F ∧ free.fbit Reg.AX_FERR_FERR_EN 95 = false ∧
      free.fget Reg.AX_COIL_COIL_R 95 ≠ 0) ∧
    (off.gatedMotion 7 = false ∧ (off.axis 95).st = .disabled ∧ (off.mgroup 7).vbusFault = false ∧ off.kps.dsafe = false ∧
      off.fbit Reg.AX_CFG_STBY_MODE 95 = false ∧ off.encRun 95 = false) ∧
    stby.fbit Reg.AX_CFG_STBY_MODE 95 = true ∧ (held.takes .host .ax0 95 ∧ held.kps.dsafe = true) ∧
    (still.takes .host .ax0 95 ∧ (still.axis 95).st = .standstill) := by decide +kernel

theorem witness_MotionCommandsAct :
    let still := axed fun x => { x with st := .standstill, remainV := true, remain := -1 }
    let cfg := ((still.fput Reg.AX_ACC_ACC 1 95).fput Reg.AX_DEC_DEC 1 95).fput Reg.AX_TARGET_TARGET 0x7FFFFFFF 95
    let moving := axed fun x => { x with st := .moving, v := 1 }
    let homing := axed fun x => { x with st := .homing }
    let indexed := ((still.fput Reg.AX_HOME_CFG_MODE 1 95).fput Reg.AX_ENC_ENC_CH 0 95).fput Reg.FBK_CFG_IDX_EN 1 0
    let lead := ({ up with pvtTab := [(1024 * 7 + 1020, 10)] }.modAxis 84 fun x => { x with st := .standstill })
    (cfg.takes .host .ax0 95 ∧ (cfg.axis 95).st = .standstill ∧ (cfg.axis 95).inSet = none ∧ (cfg.axis 95).pvt = none ∧
      cfg.intoLimit 95 (firstMotion (cfg.axis 95).v ((cfg.sget Reg.AX_TARGET_TARGET 95 : Rat) - (cfg.axis 95).p)) = false ∧
      cfg.fget Reg.AX_ACC_ACC 95 ≠ 0 ∧ cfg.fget Reg.AX_DEC_DEC 95 ≠ 0) ∧
    ((moving.axis 95).st = .moving ∧ (moving.axis 95).inSet = none ∧ (homing.axis 95).st = .homing ∧
      homing.takes .host .ax0 95) ∧
    ((still.axis 95).remainV = true ∧ still.intoLimit 95 (still.axis 95).remain = false) ∧
    (still.fget Reg.AX_HOME_CFG_MODE 95 = 0 ∧ still.fget Reg.AX_HOME_CFG_SRC 95 ≤ 1) ∧
    (indexed.fget Reg.AX_HOME_CFG_MODE 95 = 1 ∧ indexed.encOf 95 = some 0 ∧ indexed.fbit Reg.FBK_CFG_IDX_EN 0 = true) ∧
    (84 % 12 = 0 ∧ lead.takes .host .ax0 84 ∧ (lead.axis 84).st = .standstill ∧
      lead.pvtOk 84 (0xFFFFFF % 256) (lead.axis 84).p 0 = true) := by decide +kernel


theorem witness_MotionTicksAct :
    let s := up.fput Reg.AX_TARGET_TARGET 0x7FFFFFFF 95
    let moving := (s.modAxis 95 fun x => { x with st := .moving, v := 1 }).fput Reg.AX_CFG_LIM_EN 1 95
    let open? := (moving.fput Reg.AX_ENC_ENC_CH 0x7F 95).fput Reg.AX_SNS_SNS_EN 1 95
    let low := (moving.modMgroup 7 fun x => { x with outRun := 9 })
    let back := (moving.modAxis 95 fun x => { x with v := -1 }).fput Reg.AX_CFG_LIM_POL 3 95
    let set (v : Rat) := ((moving.modAxis 95 fun x => { x with v := v, inSet := some 15 }).modMset 7 1 fun x =>
      { x with active := true }).fput Reg.AX_CFG_LIM_POL 3 95
    (moving.present .mgp 7 = true ∧ (moving.mset 7 0).active = false ∧ (moving.mset 7 1).active = false ∧
      (∀ b ∈ members 7, moving.fbit Reg.AX_FERR_FERR_EN b = false) ∧ 95 ∈ members 7 ∧ (moving.axis 95).st = .moving ∧
      (moving.axis 95).pvt = none ∧ (moving.axis 95).inSet = none ∧ moving.intoLimit 95 (moving.axis 95).v = false ∧
      moving.intoLimit 95 (moving.targetOf 95 - (moving.axis 95).p) = false ∧
      moving.targetOf 95 ≠ (moving.axis 95).p ∧ (moving.axis 94).enabled = false) ∧
    ((∀ b ∈ members 7, (moving.axis b).iSet ≠ moving.fget Reg.AX_LA_CUR_CEIL b) ∧ (moving.mgroup 7).outRun < 9 ∧
      (moving.axis 95).enabled = true) ∧
    ((low.mgroup 7).outRun = 9 ∧ (low.mgroup 7).vbusFault = false) ∧
    (open?.tap.disconnected = false ∧ open?.present .ax0 95 = true ∧ (open?.axis 95).enabled = true ∧
      open?.fget Reg.AX_ENC_ENC_CH 95 = 0x7F ∧ open?.fbit Reg.AX_SNS_SNS_EN 95 = true) ∧
    ((up.axis 95).limp ≠ some true ∧ (up.axis 95).limn ≠ some false ∧ (up.axis 95).enabled = false) ∧
    ((moving.axis 95).limp ≠ some false ∧ moving.fbit Reg.AX_CFG_LIM_EN 95 = true ∧
      false ≠ (moving.fget Reg.AX_CFG_LIM_POL 95).testBit 1 ∧ 0 < (moving.axis 95).v) ∧
    (moving.at 0).steppedNow 95 = false ∧
    ((back.axis 95).st = .moving ∧ (back.axis 95).inSet = none ∧ (back.axis 95).limn ≠ some false ∧
      back.fbit Reg.AX_CFG_LIM_EN 95 = true ∧ false ≠ (back.fget Reg.AX_CFG_LIM_POL 95).testBit 0 ∧ (back.axis 95).v < 0) ∧
    ((set 1).tap.disconnected = false ∧ (set 1).present .ax0 95 = true ∧ ((set 1).axis 95).st = .moving ∧
      ((set 1).axis 95).inSet = some 15 ∧ ((set 1).mset (15 / 2) (15 % 2)).active = true ∧
      (set 1).fbit Reg.AX_CFG_LIM_EN 95 = true ∧ ((set 1).axis 95).limp ≠ some false ∧
      false ≠ ((set 1).fget Reg.AX_CFG_LIM_POL 95).testBit 1 ∧ 0 < ((set 1).axis 95).v ∧
      ((set (-1)).axis 95).limn ≠ some false ∧ false ≠ ((set (-1)).fget Reg.AX_CFG_LIM_POL 95).testBit 0 ∧
      ((set (-1)).axis 95).v < 0) := by decide +kernel

theorem witness_SetCommandsAct :
    let member := ((up.fput Reg.SET_MEM_VALID 1 7 1 7).fput Reg.SET_MEM_AXIS 95 7 1 7).modAxis 95 fun x =>
      { x with st := .standstill, remainV := true, remain := 5 }
    let away := member.fput Reg.AX_TARGET_TARGET 1 95
    let active := up.modMset 7 1 fun x => { x with active := true }
    let faulted := (up.modMgroup 7 fun x => { x with vbusFault := true, vbus := 9000 })
    (away.takes .host .mgp 7 ∧ away.gatedMotion 7 = false ∧ away.membersStand 7 (3 % 2) = true ∧
      (∀ e ∈ away.setMembers 7 (3 % 2), e.2 < 96) ∧ (7, 95) ∈ away.setMembers 7 (3 % 2) ∧
      (away.sget Reg.AX_TARGET_TARGET 95 : Rat) ≠ (away.axis 95).p) ∧
    (∀ e ∈ member.setMembers 7 1, (member.sget Reg.AX_TARGET_TARGET e.2 : Rat) = (member.axis e.2).p) ∧
    ((active.mset 7 (1 % 2)).active = true ∧ (active.mset 7 (1 % 2)).stop = .none ∧ active.takes .host .mgp 7) ∧
    (member.setRemainV 7 1 = true ∧ (member.axis 95).remain ≠ 0) ∧
    ((faulted.mgroup 7).vbusFault = true ∧ faulted.takes .host .mgp 7 ∧ faulted.vbusOk 7 = true) := by decide +kernel

/-- A descriptor of 8 bytes from host address 0 to the spool's first bytes, with no flag set. -/
def copy8 : Desc := ⟨3, 0, 2 ^ 63, 8, 127 * 2 ^ 16, 0xFFFFFFFF⟩

/-- Channel 15 of engine 7 as told, 64 MiB of spool, bus mastering on. -/
def joist (f : JChan → JChan) : State :=
  ({ up with pcie := { up.pcie with bme := true } }.fput Reg.MEM_CAP_CAP 1).modJchan 7 15 f

theorem witness_JoistCommandsAct :
    let sized := up.fput Reg.CH_SIZE_SIZE 65536 7 15
    let pending := joist fun x => { x with st := .pending, pref := some copy8 }
    (sized.takes .mgmt .jst0 7 ∧ (sized.jchan 7 (0xFFFFF % 16)).st = .idle ∧
      0xFFFFF / 16 % 65536 < sized.fget Reg.CH_SIZE_SIZE 7 (0xFFFFF % 16)) ∧
    (pending.takes .mgmt .jst0 7 ∧ (pending.jchan 7 15).st = .pending) ∧
    ((joist fun x => { x with st := .running }).jchan 7 15).st = .running ∧
    ((joist fun x => { x with st := .halted }).jchan 7 15).st = .halted ∧
    (pending.stopsServed ∧ (pending.engine 7).holder = none ∧ pending.candidates 7 = 15 :: []) := by decide +kernel

theorem witness_JoistDescriptorsAct :
    let fetch (base : Nat) := (joist fun x => { x with st := .pending, fetching := some 3 }).fput Reg.CH_BASE_HI_BASE base 7 15
    let running := joist fun x => { x with st := .running, pref := some copy8 }
    let moving := joist fun x => { x with st := .running, run := some copy8, hostData := List.replicate 8 0xA5 }
    let short := joist fun x => { x with st := .running, run := some copy8, hostData := [] }
    let out : Desc := ⟨3, 2 ^ 63, 0, 8, 16, chainEnd⟩
    let readBack := joist fun x => { x with st := .running, run := some out }
    let mute : State := { running with pcie := { running.pcie with bme := false } }
    ((fetch 0x80000000).porst = false ∧ (fetch 0x80000000).islandOn 25 = true ∧ (fetch 0x80000000).stopsServed ∧
      ((fetch 0x80000000).jchan 7 15).fetching = some 3 ∧
      (fetch 0x80000000).spaceOf ((fetch 0x80000000).tableAddr 7 15 3) 32 = some (.spool, 96) ∧
      (fetch 0x80000000).ueWords .spool 96 32 = []) ∧
    (fetch 0).spaceOf ((fetch 0).tableAddr 7 15 3) 32 = some (.host, 96) ∧
    ((running.jchan 7 15).pref = some copy8 ∧ (running.jchan 7 15).st = .running ∧ (running.jchan 7 15).run = none ∧
      running.descCheck 7 15 copy8 = none ∧ running.descCheck 7 15 { copy8 with next := 65536 } = some 7 ∧
      running.pcie.bme = true ∧ copy8.usesHost = true ∧ mute.pcie.bme = false) ∧
    ((moving.jchan 7 15).run = some copy8 ∧ (moving.jchan 7 15).cut = none ∧ copy8.rb = false ∧ spaceName copy8.src = .host ∧
      moving.spaceOf copy8.dst copy8.len = some (.spool, 0) ∧ copy8.srcFix = false ∧ copy8.dstFix = false ∧
      copy8.swap = 0 ∧ copy8.evEn = false ∧ (moving.jchan 7 15).hostData.length = copy8.len ∧ copy8.next = chainEnd) ∧
    ((short.jchan 7 15).run = some copy8 ∧ (short.jchan 7 15).cut = none ∧ (short.jchan 7 15).hostData.length < copy8.len) ∧
    ((readBack.jchan 7 15).run = some out ∧ out.rb = true ∧ out.len ≠ 0 ∧ spaceName out.dst = .host) := by
  decide +kernel

/-- Bexgar on, link 7 enabled, its Ethernet link up, 64 MiB of spool; link 7 and the two streams 15 as told. -/
def bexgar (b : BxLink → BxLink) (tx : TxStream → TxStream) (rx : RxStream → RxStream) : State :=
  let s := ((({ up with lnk := { up.lnk with on := true } }.modEth 1 fun x =>
    { x with st := .up, mode := 2, up := [3] }).fput Reg.LNK_CFG_LINKS_EN 0x80).fput Reg.MEM_CAP_CAP 1)
  let s := ((s.fput Reg.RX_CFG_EN 1 0 15).fput Reg.RX_SIZE_SIZE 1 0 15).fput Reg.RX_CFG_SRC_ID 9 0 15
  let s := ((s.fput Reg.TX_CFG_EN 1 0 15).fput Reg.TX_CFG_LINK 7 0 15).fput Reg.TX_SIZE_SIZE 1 0 15
  ((s.modBx 7 b).modTx 15 tx).modRx 15 rx

theorem witness_BexgarCommandsAct :
    let off := (up.setLock .lnk0 0 true).fput Reg.MEM_CAP_CAP 1
    let on := bexgar id id id
    let noted := { up with lnk := { up.lnk with epochs := [⟨1, 127, 2, 3⟩] } }
    (off.takesUnlocked .host .lnk0 0 ∧ off.lnk.on = false ∧ off.lnkUsable = true) ∧
    (on.takes .host .lnk0 0 ∧ on.lnk.on = true ∧ on.linkEn (15 % 8) = true ∧ on.linkEn 0 = false) ∧
    (up.takes .host .lnk1 0 ∧ (31 : Nat).testBit 4 = true ∧ up.fbit Reg.RX_CFG_EN 0 (31 % 16) = false ∧
      (15 : Nat).testBit 4 = false ∧ up.fbit Reg.TX_CFG_EN 0 (15 % 16) = false) ∧
    (noted.takes .host .lnk1 0 ∧ noted.lnk.epochs ≠ []) := by decide +kernel

/-- The octets of a frame of line 9 on link 7 to line 0, with two octets of padding, and the header it bears. -/
def frameOf (type sub : Nat) (bs : List Byte) : List Byte :=
  bxOctets 9 7 ⟨type, 0, false, 0, 0, sub, 2 ^ 32 - 1, bs⟩ ++ [0, 0]

def hdrOf (type sub : Nat) : BxHdr := ⟨type, 9, 3, 0, false, 0, 0, sub, 2 ^ 32 - 1⟩

/-- The payload of an IDENT frame of R329: LINE_ID and the SEEN bit. -/
def identOf (id : Nat) (seen : Bool) : List Byte :=
  List.replicate 8 0 ++ [BitVec.ofNat 8 id, 0, (if seen then 1 else 0)] ++ List.replicate 5 0

/-- R328: what each type of frame spells, and what a frame with a wrong octet does. -/
theorem witness_BexgarReceives_octets :
    (∀ k ∈ [2, 3, 5, 6], ∀ sub ∈ [0, 1, 2, 255], let o := frameOf k sub [7];
      bxParse (o.take 20 ++ (o.drop 20).take 1 ++ (o.drop 21).take 4 ++ o.drop 25) = some (hdrOf k sub, [7])) ∧
    bxParse ((frameOf 1 15 [1]).take 20 ++ (frameOf 1 15 [1]).drop 20) = some (hdrOf 1 15, [1]) ∧
    bxParse (frameOf 4 0 (identOf 0 true)) = some (hdrOf 4 0, identOf 0 true) ∧
    bxParse ((frameOf 1 15 [1]).set 20 9) = none ∧ bxParse (frameOf 7 0 []) = none ∧ bxParse [1, 2] = none ∧
    (frameOf 1 15 [1]).length + 18 ≤ maxFrame ∧ maxFrame < (List.replicate 9199 (0 : Byte)).length + 18 := by
  decide +kernel

theorem witness_BexgarReceives :
    let frame : BxFrame := ⟨0, 15, 0, 15, 0, 1, 0⟩
    let s := bexgar (fun x => { x with st := .up, nextSeq := 1, retained := [frame] }) id fun x => { x with wptr := ⟨65535, false⟩, exp := 2 ^ 32 - 1 }
    let hello := bexgar (fun x => { x with st := .hello }) id id
    let full := { s with lnk := { s.lnk with epochs := List.replicate 16 ⟨1, 2, 3, 4⟩ } }
    let h := hdrOf 1 15
    (s.porst = false ∧ s.islandOn 26 = true ∧ s.stopsServed ∧ s.lnk.on = true ∧ s.ethUp 7 = true ∧ (s.bx 7).st ≠ .down) ∧
    (h.type = 1 ∧ (s.bx 7).st = .up ∧ h.seqNo = (s.bx 7).expect ∧ h.dst = s.lineId ∧ s.fbit Reg.RX_CFG_EN 0 h.sub = true ∧
      (s.rxs h.sub).halted = false ∧ h.srcId = s.fget Reg.RX_CFG_SRC_ID 0 h.sub ∧ s.mem = .ready ∧
      h.offset = (s.rxs h.sub).exp ∧ (s.rxs h.sub).wptr.off < s.rxBytes h.sub ∧ [(1 : Byte)].length ≤ s.rxBytes h.sub ∧
      [(1 : Byte)].length ≤ s.rxBytes h.sub - (s.rxs h.sub).rptr.ahead (s.rxs h.sub).wptr (s.rxBytes h.sub) ∧
      65536 * s.fget Reg.RX_BASE_BASE 0 h.sub + s.rxBytes h.sub ≤ s.spoolSize) ∧
    (serialLater (hdrOf 2 0).ack (s.bx 7).nextSeq = false ∧ serialLater 1 (s.bx 7).nextSeq = false ∧
      frame ∈ (s.bx 7).retained ∧ serialLater 1 frame.seqNo = true) ∧
    ({ s with mem := .selfRefresh }).mem ≠ .ready ∧
    (octet (identOf 9 true) 8 % 32 ≠ s.lineId ∧ (octet (identOf 9 true) 10).testBit 0 = true ∧
      (octet (identOf 9 false) 10).testBit 0 = false ∧ octet (identOf 0 false) 8 % 32 = s.lineId ∧
      (hello.bx 7).st = .hello ∧ hello.ethUp 7 = true) ∧
    (s.lnk.epochs.length < 16 ∧ 16 ≤ full.lnk.epochs.length ∧ (full.bx 7).st = .up) := by decide +kernel

theorem witness_BexgarSends :
    let data := bexgar (fun x => { x with st := .up }) (fun x => { x with wptr := ⟨64, false⟩ }) id
    let taken := bexgar (fun x => { x with st := .up, taken := 1000 }) id id
    let late := bexgar (fun x => { x with st := .up, taken := 1 }) id id
    let frame : BxFrame := ⟨0, 15, 0, 15, 0, 64, 0⟩
    let again := bexgar (fun x => { x with st := .up, nextSeq := 1, retained := [frame], resendFrom := some 0 }) id id
    let hello := bexgar (fun x => { x with st := .hello }) id id
    let top : BxOut := ⟨6, 31, true, 2 ^ 32 - 1, 2 ^ 32 - 1, 255, 2 ^ 32 - 1, [1, 2, 3]⟩
    bxParse (bxOctets 31 7 top ++ [0]) = some (⟨6, 31, 3, 31, true, 2 ^ 32 - 1, 2 ^ 32 - 1, 255, 2 ^ 32 - 1⟩, [1, 2, 3]) ∧
    (data.porst = false ∧ data.islandOn 26 = true ∧ data.stopsServed ∧ data.ethUp 7 = true ∧ (data.bx 7).st = .up ∧
      data.lnk.on = true ∧ (data.bx 7).resendFrom = none ∧ data.mem = .ready ∧ data.lnk.statusAt = none ∧
      ((List.range 16).map fun k => (Sparse.get (fun _ => 15) data.lnk.turn 7 + 1 + k) % 16).find? (data.canSend 7) = some 15 ∧
      data.nextLen 15 = 64 ∧ ∀ i, i < 64 → data.badWord .spool ((65536 * data.fget Reg.TX_BASE_BASE 0 15 + i) / 8) = false) ∧
    (0 < (taken.bx 7).taken ∧ max 1 (taken.fget Reg.LNK_ACK_ACK_N) ≤ (taken.bx 7).taken) ∧
    (0 < (late.bx 7).taken ∧ (late.bx 7).takenAt + us * late.fget Reg.LNK_ACK_ACK_T ≤ max late.now ms) ∧
    ((hello.bx 7).st = .hello ∧ (hello.bx 7).identAt = none ∧ hello.lnk.on = true) ∧
    ((again.bx 7).resendFrom = some 0 ∧ (again.bx 7).resendAt ≤ max again.now 0 ∧ again.mem = .ready ∧
      (again.bx 7).retained = frame :: [] ∧
      (again.bx 7).ackMoved + us * again.fget Reg.LNK_RTO_RTO ≤ max again.now (us * again.fget Reg.LNK_RTO_RTO)) ∧
    (data.bx 7).heardAt + 3 * ms * max 1 (data.fget Reg.LNK_STATUS_T_STATUS_T) ≤ max data.now (30000 * ms) := by
  decide +kernel

/-- R316: a one-step Sync at layer 2 to the PTP multicast address: domain 5, source 1, 2, port 3. -/
def syncOctets : List Byte :=
  [0x01, 0x1B, 0x19, 0, 0, 0] ++ List.replicate 6 2 ++ [0x88, 0xF7] ++ [0, 2, 0, 44, 5, 0, 0, 0] ++ List.replicate 12 0 ++
  beOctets 4 1 ++ beOctets 4 2 ++ beOctets 2 3 ++ List.replicate 14 0

/-- R313: a PAUSE frame, and a frame of another type to a group address. -/
def pauseOctets : List Byte := [0x01, 0x80, 0xC2, 0, 0, 1] ++ List.replicate 6 2 ++ [0x88, 0x08, 0, 1] ++ List.replicate 44 0

def plainOctets : List Byte := List.replicate 12 0xFF ++ [0x12, 0x34] ++ List.replicate 46 0

theorem witness_EthernetPortsAct :
    let unl := up.setLock .eth 1 true
    let quad (l : List Nat) := up.modEth 1 fun x => { x with st := .partialUp, mode := 2, up := l }
    let sync : Ptp := ⟨0, false, 5, 0, 1, 2, 3, 0, 0⟩
    let pair := ((((((quad [3]).fput Reg.HAL_CFG_SRC 1).fput Reg.HAL_CFG_PAIR_LINK 7).fput Reg.HAL_CFG_DOMAIN 5).fput
      Reg.HAL_PAIR_SRC0_ID 1).fput Reg.HAL_PAIR_SRC1_ID 2).fput Reg.HAL_PAIR_SRC2_PORT 3
    let stamp : TxStamp := ⟨7, 0, 0, 0, 0⟩
    let stamped (n : Nat) := { quad [3] with hal := { up.hal with stamps := List.replicate n stamp } }
    (unl.takesUnlocked .host .eth 1 ∧ unl.gatedEth 1 = false ∧ (unl.eth 1).st = .disabled ∧ unl.fget Reg.ETH_CFG_MODE 1 ≠ 3 ∧
      unl.fget Reg.ETH_CFG_FEC25 1 ≠ 3) ∧
    ((quad []).takes .host .eth 1 ∧ ((quad []).eth 1).st ≠ .disabled) ∧
    ((stamped 1).takes .host .hal1 0 ∧ (stamped 1).hal.stamps ≠ []) ∧
    ((quad []).porst = false ∧ (quad []).islandOn 26 = true ∧ (quad []).stopsServed ∧
      ((quad []).eth 1).lanes.contains 3 = true ∧ ((quad []).eth 1).up.contains 3 = false) ∧
    ((quad [3]).eth 1).up.contains 3 = true ∧ (linkPort 7 = 1 ∧ (quad [3]).ethUp 7 = true) ∧
    (({ quad [3] with devOp := .boot } : State).devOp = .boot ∧ (quad [3]).devOp ≠ .boot) ∧ pair.paired 7 sync = true ∧ (stamped 15).hal.stamps.length < 16 ∧ 16 ≤ (stamped 16).hal.stamps.length ∧
    (maxFrame < (List.replicate 9217 (0 : Byte)).length ∧ fcsGood (List.replicate 64 0) = false ∧ fcsGood [] = false) ∧
    (fcsGood (withFcs pauseOctets) = true ∧ isPause (withFcs pauseOctets) = true ∧ fcsGood (withFcs plainOctets) = true ∧
      isPause (withFcs plainOctets) = false ∧ up.toLink 7 (withFcs plainOctets) = true ∧
      (etherBody (withFcs plainOctets)).1 ≠ bexgarType ∧ eventOf plainOctets = none ∧ plainOctets.length + 4 ≤ maxFrame) ∧
    (fcsGood (withFcs syncOctets) = true ∧ isPause (withFcs syncOctets) = false ∧ up.toLink 7 (withFcs syncOctets) = true ∧
      (etherBody (withFcs syncOctets)).1 ≠ bexgarType ∧ eventOf (withFcs syncOctets) = some (⟨.l2, 14, 0⟩, sync) ∧
      eventOf syncOctets = some (⟨.l2, 14, 0⟩, sync) ∧ sync.msgType = 0 ∧ sync.twoStep = false) := by
  decide +kernel

theorem witness_HalyardServoActs :
    let hal (f : Hal → Hal) : State := { up with hal := f up.hal }
    let big := (up.fput Reg.HAL_OFS_IN_HI_OFS 0x7FFFFFFF)
    let step := hal fun h => { h with stepPend := true }
    let unl := (up.setLock .hal0 0 true).fput Reg.HAL_SET_NS_NS 999999999
    let waits := hal fun h => { h with syncs := [⟨0, 0, 0, 0, 0⟩] }
    (({ up with devOp := .boot } : State).takes .host .hal0 0 ∧ up.devOp ≠ .boot) ∧
    (up.takes .host .hal0 0 ∧ up.fbit Reg.HAL_CFG_SRC = false ∧
      absRat (((signed 64 (up.wide Reg.HAL_OFS_IN_LO_OFS Reg.HAL_OFS_IN_HI_OFS) * 256 : Int) : Rat) / 65536) ≤ (up.fget Reg.HAL_STEP_THR_THR : Rat)) ∧
    ((big.fget Reg.HAL_STEP_THR_THR : Rat) < absRat (((signed 64 (big.wide Reg.HAL_OFS_IN_LO_OFS Reg.HAL_OFS_IN_HI_OFS) * 256 : Int) : Rat) / 65536)) ∧
    (step.porst = false ∧ step.islandOn 26 = true ∧ step.stopsServed ∧ step.hal.stepPend = true ∧ step.mayStep = true ∧
      step.takes .host .hal0 0) ∧
    ((hal fun h => { h with servo := .locked }).hal.servo ≠ .holdover ∧ up.hal.servo ≠ .holdover ∧
      max up.hal.thetaAt up.relAt + ms * up.fget Reg.HAL_HOLD_T_HOLD_T ≤ max up.now (ms * up.fget Reg.HAL_HOLD_T_HOLD_T)) ∧
    ((⟨0, 0, 0, 0, 0⟩ : SyncWait) ∈ waits.hal.syncs ∧ (⟨0, 0, 0, 0, 0⟩ : SyncWait).at0 + 1000 * ms ≤ max waits.now (1000 * ms)) ∧
    (unl.takesUnlocked .host .hal0 0 ∧ unl.mayStep = true ∧ unl.fget Reg.HAL_SET_NS_NS ≤ 999999999) := by decide +kernel

/-- With the host island and Sill alone on, so that few pages are asked whether they signal. -/
theorem witness_PcieAndPennantAct :
    let mirror := ((up.fput Reg.CLK_ISL_ON_ON 0x20000001).fput Reg.PEN_CTL_MSI_MIRROR 1).fput Reg.PEN_EN_LO_EN 0xFFFFFFFF
    let act := ((mirror.fput Reg.PEN_EN_HI_EN 0x3FFFFF).setWord (regAddr .dev 0 0x18) 0xFFFFFFFF).raise Reg.DEV_CAUSE_UNMAPPED
    let sending : State := { act with pcie := { act.pcie with msiPend := true, actWas := true, msiEn := true, bme := true } }
    (up.porst = false ∧ up.islandOn 0 = true ∧ up.stopsServed) ∧
    (trains 5 8 = true ∧ trains 1 1 = true ∧ trains 6 8 = false ∧ trains 5 3 = false ∧ trains 0 1 = false) ∧
    (aerCorrectable .receiver = true ∧ aerCorrectable .unsupported = false ∧ aerLogsHeader .unsupported = true ∧
      aerLogsHeader .surpriseDown = false ∧ up.pcie.aerFirst = none ∧
      ({ up.pcie with aerFirst := some .malformed } : Pcie).aerFirst.isSome = true) ∧
    (up.pcie.d0 = true ∧ ({ up.pcie with d0 := false } : Pcie).d0 = false) ∧
    (sending.pcie.msiPend = true ∧ sending.msiReady = true ∧ (sending.at 0).actNow = true ∧ sending.pcie.actWas = true ∧
      sending.stopsServed) ∧
    (sending.takes .host .pen 0 ∧ sending.fbit Reg.PEN_CTL_MSI_MIRROR = true) ∧
    ({ sending with pcie := { sending.pcie with masked := true } } : State).msiReady = false := by decide +kernel


theorem witness_KingpostIntakeReacts :
    let queued (w : Word) := up.setPath 16 ⟨[w], 0⟩
    let w0 := msgWord 1 95 kindHeadHot 0 3
    let w1 := msgWord 1 95 kindHeadHot 1 3
    let w2 := msgWord 1 95 kindStbStuck 2 2
    let w3 := msgWord 1 95 kindHeadCrit 3 0
    let known := { queued w1 with kps := { (queued w1).kps with slots := [(63, ⟨true, msgSource w1, msgKind w1, 1, 255⟩)] } }
    let lost := up.setPath 29 ⟨[], 16383⟩
    ((queued w0).porst = false ∧ (queued w0).stopsServed ∧ (queued w0).islandOn 27 = true ∧ (queued w0).heads = [w0] ∧
      msgSev w0 = 0) ∧
    (known.heads = [w1] ∧ 0 < msgSev w1 ∧ known.kps.findSlot (msgSource w1) (msgKind w1) = some 63) ∧
    (0 < msgSev w1 ∧ (queued w1).kps.findSlot (msgSource w1) (msgKind w1) = none ∧ (queued w1).kps.freeSlot = some 0) ∧
    ((queued w3).heads = [w3] ∧ msgSev w3 = 3) ∧
    ((queued w2).heads = [w2] ∧ msgSev w2 = 2 ∧ msgClass w2 = 1 ∧ msgInst w2 = 95 ∧ 95 < (queued w2).portCount ∧
      (queued w2).kps.findSlot (msgSource w2) (msgKind w2) = none ∧ (queued w2).kps.freeSlot ≠ none) ∧
    (lost.islandOn 29 = true ∧ 0 < (lost.path 29).lost ∧ (lost.path 29).queue.length < 16 ∧ lost.stopsServed) := by
  decide +kernel

theorem witness_DetectorsStopTheMachine :
    let starting := { up with kps := { up.kps with st := .selftest }, upd := { up.upd with runSafety := 1 } }
    let full := up.setPath 16 ⟨List.replicate 15 0, 0⟩
    (full.porst = false ∧ full.stopsServed ∧ full.hasPort 95 = true ∧ (full.path (9 + 95 / 12)).queue.length < 16 ∧
      (full.at (515 * 8 * ns)).stuckNow 95 0 = true ∧ (full.at (514 * 8 * ns)).stuckNow 95 0 = false ∧
      (full.at (40 * ns + 1)).rogueNow 95 2 0 = true ∧ (full.at (40 * ns)).rogueNow 95 2 0 = false) ∧
    (up.islandOn 27 = true ∧ up.islandOn 29 = true ∧ up.islandOn 0 = true) ∧
    (up.kps.st ≠ .selftest ∧ up.thm.shutdown = false ∧ up.kps.heartbeatAt + 2 * ms ≤ max up.now (2 * ms) ∧
      (up.path 29).queue.length < 16) ∧
    (up.fget Reg.KPS_MGMT_WDOG_TIMEOUT ≠ 0 ∨ (up.fput Reg.KPS_MGMT_WDOG_TIMEOUT 1).fget Reg.KPS_MGMT_WDOG_TIMEOUT ≠ 0) ∧
    (up.path 28).queue.length < 16 ∧
    (up.latchSet 94 = true ∧ (up.latchSet 103 = false) ∧ ({ up with kps := Kps.reset }).latchSet 103 = true ∧
      ({ up with kps := Kps.reset }).latchSet 127 = true) ∧
    (starting.kps.st = .selftest ∧ starting.upd.runSafety ≠ 0 ∧ starting.islandOn 27 = true ∧ starting.stopsServed ∧
      starting.fget Reg.KPS_SELFTEST_CODE = 0) := by decide +kernel

theorem witness_KingpostCommandsAct :
    let unl := up.setLock .kps0 0 true
    let slot := { unl with kps := { unl.kps with slots := [(63, ⟨true, 0, 4, 2, 1⟩)] } }
    let held := { unl with kps := { unl.kps with st := .hold, dsafe := true } }
    let test := { up with ftm := .active }
    let pulsed := test.modPort 0 fun x => { x with recent := [⟨0, 0, 5⟩] }
    let w := msgWord 1 95 kindHeadHot 2 0
    let rb : Word := 4 ||| BitVec.ofNat 32 0
    (slot.takesUnlocked .mgmt .kps0 0 ∧ slot.stopsServed ∧ (slot.kps.slot (0xFFFFFF % 64)).valid = true) ∧
    (held.takesUnlocked .mgmt .kps0 0 ∧ held.kps.st = .hold ∧ held.ftmActive = false ∧ held.releasable = true) ∧
    (test.porst = false ∧ test.shutTo .mgmt = false ∧ test.islandOn 27 = true ∧ test.ftmActive = true ∧ test.stopsServed) ∧
    (msgKind w ∈ [kindHeadHot, kindHeadFlag, kindStall, kindVbus, kindSensorFail, kindUpdate] ∧
      (test.path (msgPath (msgClass w) (msgInst w))).queue.length < 16) ∧
    (rb.getLsbD 2 = true ∧ rb.getLsbD 1 = false ∧ rb.getLsbD 0 = false ∧ Reg.KPS_INJ_HW_PORT.get rb < test.portCount ∧
      Reg.KPS_INJ_HW_STB.get rb < 3 ∧ test.inWindow 0 0 (max test.now 0) = false ∧
      pulsed.inWindow 0 0 (max pulsed.now 0) = true ∧ (pulsed.flow 0).pulses = [] ∧ watchdogCounts us ≤ pulsed.stbMax 0 + 2) ∧
    ((2 : Word).getLsbD 1 = true ∧ (2 : Word).getLsbD 0 = false ∧
      test.islandOn (Reg.KPS_INJ_HW_ISLAND.get (2 : Word)) = true ∧ (1 : Word).getLsbD 0 = true) ∧
    (test.answers .host .fbk 95 ∧ up.answers .host .fbk 95 ∧ up.ftmActive = false) := by decide +kernel

theorem witness_TestAccessPortActs :
    let strap := { up with ftmStrap := true }
    let loaded := { strap with ftm := .loaded 0 }
    let driven := { up with tap := { up.tap with cells := [(9 * 95 + 8, true)] } }
    (up.kps.portClear.contains 94 = false ∧ up.ftmActive = false ∧ driven.kps.portClear.contains 95 = true ∧
      Sparse.get (fun _ => false) driven.tap.cells (9 * 95 + 8) = true) ∧
    up.porst = false ∧ (2040 : Nat) < 2041 ∧ (strap.ftmStrap = true ∧ strap.ftm = .none ∧ strap.ftm ≠ .active ∧ strap.ftm ≠ .blocked) ∧
    (loaded.ftmStrap = true ∧ loaded.ftm = .loaded 0) ∧ up.ftmStrap = false := by decide +kernel

theorem witness_CalibrationRunsAct :
    let in_ (c : Nat) (f : CalChan → CalChan) := up.modCal c f
    let pending := in_ 0xF9 fun x => { x with phase := .pending }
    let p1 := in_ 0xEB fun x => { x with phase := .p1 }
    let p2 := in_ 0xEB fun x => { x with phase := .p2 }
    let p3 := in_ 0xEB fun x => { x with phase := .p3 }
    let p4 (ok : Bool) := in_ 0xF8 fun x => { x with phase := .p4, accepted := ok }
    let even := List.replicate 18 250
    let deferred := in_ 0xEB fun x => { x with phase := .p1, defers := 255 }
    (up.takes .host .cal 0 ∧ up.stopsServed ∧ up.calPresent (0xFFF8 % 256) = true ∧ (up.cal 0xF8).inRun = false ∧
      (0xF8 : Nat).testBit 8 = false ∧ (0x1F8 : Nat).testBit 8 = true ∧ up.gatedFire (calGroup 0xF8) = false ∧
      up.calActive 0xF8 = false) ∧
    ((p2.cal 0xEB).running = true ∧ p2.takes .host .cal 0 ∧ (pending.cal 0xF9).phase = .pending) ∧
    (up.porst = false ∧ up.islandOn 28 = true ∧ (pending.at 0).calNext 7 .adc = some 0xF9 ∧ pending.calActive 0xF9 = false) ∧
    ((p1.cal 0xEB).phase = .p1 ∧ max p1.now (100 * us) ≤ (p1.cal 0xEB).startAt + 100 * us ∧
      (p1.at 0).switchPoint 0xEB = true) ∧
    (p2.cal 0xEB).phase = .p2 ∧
    ((p3.cal 0xEB).phase = .p3 ∧ calTiming 0xEB = true ∧ (calPort 0xEB).isSome = true ∧ p3.timingOk 0xEB even = true ∧
      p3.timingOk 0xEB (259 :: even) = false) ∧
    (0xF8 < 256 ∧ calK 0xF8 < 26 ∧ ((p4 true).cal 0xF8).phase = .p4 ∧ ((p4 true).at 0).switchPoint 0xF8 = true ∧
      ((p4 true).cal 0xF8).accepted = true ∧ ((p4 false).cal 0xF8).accepted = false) ∧
    ((p1.cal 0xEB).forced = false ∧ (p1.cal 0xEB).startAt + 100 * us ≤ max p1.now (100 * us) ∧
      (p1.cal 0xEB).defers < (p1.fput Reg.CAL_CFG_DEFER_MAX 1).fget Reg.CAL_CFG_DEFER_MAX ∧
      deferred.fget Reg.CAL_CFG_DEFER_MAX ≤ (deferred.cal 0xEB).defers) := by decide +kernel

/-- A scorching sensor with no neighbour that has not failed; the shutdown and its restart. -/
theorem witness_ThermalUnitActs :
    let alone := { up with thm := { up.thm with hot := [63], temps := [(63, 2000)], failed := List.range 63 } }
    let off := { up with thm := { up.thm with shutdown := true, allCoolFrom := some 0 } }
    (up.porst = false ∧ up.islandOn 29 = true ∧ up.stopsServed ∧ up.thm.floor ≤ up.thm.level) ∧
    (alone.thm.shutdown = false ∧ alone.thm.hot.contains 63 = true ∧ alone.sensorOk 63 = true ∧ 2000 ≤ alone.temp 63) ∧
    (∀ k, k < 64 → up.thm.hot.contains k = false) ∧
    (up.thm.vernierAt + 100 * us ≤ max up.now ms ∧ up.thm.refAt + ms ≤ max up.now ms ∧
      max up.now 0 < up.thm.vernierAt + 100 * us ∧ max up.now 0 < up.thm.refAt + ms) ∧
    (off.thm.shutdown = true ∧ off.thm.offLatched = false ∧ off.thm.allCoolFrom = some 0 ∧
      0 + 1000 * ms ≤ max off.now (1000 * ms) ∧ off.islandOn 29 = true ∧ off.stopsServed) ∧
    ((up.setLock .thm 0 true).takesUnlocked .smp .thm 0 ∧ up.takes .smp .thm 0 ∧ (64 : Nat).testBit 6 = true ∧
      (63 : Nat).testBit 6 = false) := by decide +kernel

/-- Whatever the floor plan that THM_NBR holds (`Config.thmNbr` has no body), every sensor at 125 °C scorches. -/
theorem witness_ThermalUnitActs_scorching (s : State) (k : Nat) (h : s.sensorOk k = true) (hall : ∀ j, s.temp j = 2000) :
    s.scorching k = true := by
  cases hv : s.validNbrs k with
  | nil => simp [State.scorching, h, hall, hv]
  | cons a l => simp [State.scorching, h, hall, hv]

/-- A session of class 1 in slot B with one byte in a buffer. -/
def session (st : UpdState) (f : Upd → Upd) : State :=
  { up with upd := f { up.upd with st := st, owner := 1, token := 1, cls := 1, bank := 1 } }

theorem witness_UpdateSessionsAct :
    let claimed := session .claimed id
    let opened (n : Nat) := session .opened fun u => { u with written := 0x800000 - 2048, bufs := List.replicate n [1] }
    let erasing := session .erasing id
    let waiting := session .opened fun u => { u with bufs := [[1], [2]], waiting := some 2048 }
    let verifying := session .verifying id
    (up.answers .mgmt .upd 0 ∧ up.stopsServed ∧ (0xFFFFFFFF : Word).toNat % 65536 ≠ 0 ∧ up.upd.st = .free ∧
      claimed.upd.st ≠ .free) ∧
    (claimed.takes .mgmt .upd 0 ∧ claimed.upd.owner = Master.mgmt.code ∧ claimed.upd.st = .claimed ∧ 1 ≤ 12 % 8 ∧
      12 % 8 ≤ 4 ∧ claimed.bankHeld (11 / 8 % 2) = false) ∧
    ((opened 1).upd.st = .opened ∧ 1 ≤ 2048 % 4096 ∧ 2048 % 4096 ≤ 2048 ∧
      (opened 1).upd.written + 2048 % 4096 ≤ (flashRegion (opened 1).upd.cls (opened 1).upd.bank).2 ∧
      (opened 1).upd.bufs.length < 2 ∧ 2 ≤ (opened 2).upd.bufs.length ∧ (opened 1).takes .mgmt .upd 0) ∧
    (erasing.porst = false ∧ erasing.islandOn 28 = true ∧ erasing.upd.st = .erasing ∧
      erasing.thm.flashSuspended = false ∧ erasing.takes .mgmt .upd 0) ∧
    (waiting.upd.bufs = [1] :: [[2]] ∧ waiting.upd.waiting = some 2048 ∧ (opened 1).upd.waiting = none) ∧
    (verifying.upd.st = .verifying ∧ verifying.upd.bufs = [] ∧ verifying.verifyCode = 1) ∧
    (claimed.upd.st ≠ .free ∧ claimed.upd.lastCmdAt + max 1 (claimed.fget Reg.UPD_CLAIM_TO_TIMEOUT) * ms ≤
      max claimed.now (70000 * ms)) := by decide +kernel

/-- An image of class 1 with an empty payload and a signature of zeros in slot B. -/
def imaged : State :=
  { session .verifying (fun u => { u with written := 128 }) with
    flash := memPut blank [] 0xC00000 ([0x56, 0x52, 0x54, 0x53, 1, 0, 1, 2] ++ List.replicate 120 0) }

theorem firmware_verifies {s : State} {base : Nat} (hb : (flashRegion s.upd.cls s.upd.bank).1 = base) (h1 : s.upd.cls = 1)
    (hw : s.upd.written = 128) (h : s.signatureOk base = true) (hc : (s.container base).magicOk = true ∧
      (s.container base).cver = 1 ∧ (s.container base).cls = 1 ∧ (s.container base).profile = 2 ∧
      (s.container base).length = 0) : s.verifyCode = 0 := by
  obtain ⟨c1, c2, c3, c4, c5⟩ := hc
  simp only [State.verifyCode, hb]
  simp [h1, hw, h, c1, c2, c3, c4, c5, keyOk]

/-- The signature rests on the key of the boot ROM, which the spec does not give (`Config.vendorKey` has no body): where
it is good, the image passes. -/
theorem witness_UpdateSessionsAct_verified (h : imaged.signatureOk 0xC00000 = true) :
    imaged.verifyCode = 0 ∧ imaged.upd.st = .verifying ∧ imaged.upd.bufs = [] ∧ imaged.upd.cls = 1 :=
  ⟨firmware_verifies (by decide +kernel) (by decide +kernel) (by decide +kernel) h (by decide +kernel), by decide +kernel⟩

/-- A RECIPE container of R424 and R439 whose payload has the sections given: type, index, data. -/
def recipe (secs : List (Nat × Nat × List Byte)) : List Byte :=
  let at0 := 16 + 16 * secs.length
  let entries := secs.mapIdx fun k x =>
    [BitVec.ofNat 8 x.1, BitVec.ofNat 8 x.2.1, 0, 0] ++ leBytes 4 (at0 + 4 * k) ++ leBytes 4 x.2.2.length ++
      leBytes 4 (crc32c x.2.2).toNat
  let payload := leBytes 4 secs.length ++ List.replicate 12 0 ++ entries.flatten ++ secs.flatMap fun x => x.2.2
  [0x56, 0x52, 0x54, 0x53, 1, 0, 3, 2, 1, 0, 0, 0] ++ leBytes 4 payload.length ++ List.replicate 48 0 ++ payload

/-- A mask slot, a NAT entry and a width of port 95. -/
def loads : List (Nat × Nat × List Byte) := [(3, 63, [1, 2, 3, 4]), (2, 95, [5, 0, 0, 0x80]), (1, 95, [6, 0, 0, 0])]

/-- A session that has verified a recipe in bank B. -/
def recipeSession : State :=
  let c := recipe loads
  { session .verifying (fun u => { u with cls := 3, written := 64 + c.length }) with flash := memPut blank [] 0x2400000 c }

/-- Where the key of the integrator (OTP, `Config.integratorKeyHash`) and the signature are good, the recipe passes. -/
theorem witness_UpdateSessionsAct_recipe (hk : keyOk (recipeSession.container 0x2400000) = true)
    (h : recipeSession.signatureOk 0x2400000 = true) :
    recipeSession.verifyCode = 0 ∧ recipeSession.upd.st = .verifying ∧ recipeSession.upd.bufs = [] ∧ recipeSession.upd.cls = 3 ∧
    (1 = 0 ↔ recipeSession.upd.bank ≠ 0) = False := by
  have hb : (flashRegion recipeSession.upd.cls recipeSession.upd.bank).1 = 0x2400000 := by decide +kernel
  have hc : (recipeSession.container 0x2400000).magicOk = true ∧ (recipeSession.container 0x2400000).cver = 1 ∧
      (recipeSession.container 0x2400000).cls = 3 ∧ (recipeSession.container 0x2400000).profile = 2 ∧
      (recipeSession.container 0x2400000).sfmt = 1 ∧
      recipeSession.upd.written = 128 + (recipeSession.container 0x2400000).length ∧ recipeSession.upd.cls = 3 := by
    decide +kernel
  have hr : recipeOk (fun o n => recipeSession.flashBytes (0x2400000 + 64 + o) n)
      (recipeSession.container 0x2400000).length = true := by decide +kernel
  refine ⟨?_, by decide +kernel, by decide +kernel, by decide +kernel, by decide +kernel⟩
  obtain ⟨c1, c2, c3, c4, c5, c6, c7⟩ := hc
  simp only [State.verifyCode, hb]
  simp [h, hk, c1, c2, c3, c4, c5, c6, c7, hr]

/-- A record set of a COMMIT record alone. -/
def oneRecord (sseq : Nat) : RecordSet :=
  ⟨1, sseq, [], 0, leBytes 4 sseq ++ leBytes 4 0 ++ leBytes 4 (crc32c []).toNat ++ leBytes 4 0⟩

/-- A session that has verified a CONFIG image with one set; area A holds an older one. -/
def configSession : State :=
  let set := recommit (oneRecord 9) 9
  let head : List Byte := [0x56, 0x52, 0x54, 0x53, 1, 0, 4, 2, 0, 0, 0, 0] ++ leBytes 4 set.length ++ List.replicate 48 0
  ({ session .verifying (fun u => { u with cls := 4, bank := 0, written := 128 + set.length }) with
    flash := memPut blank (memPut blank [] 0x3400000 (recommit (oneRecord 5) 5)) 0x3800000 (head ++ set) }).fput
      Reg.UPD_SFMT_RUN 1

theorem configSession_newest : configSession.newestSet (fun _ => true) = some (0, oneRecord 5) := by decide +kernel

theorem configSession_payload : setOf (configSession.payload 0x3800000) = some (oneRecord 9) := by decide +kernel

theorem witness_UpdateSessionsAct_config (hk : keyOk (configSession.container 0x3800000) = true)
    (h : configSession.signatureOk 0x3800000 = true) :
    configSession.verifyCode = 0 ∧ configSession.upd.st = .verifying ∧ configSession.upd.bufs = [] ∧
    configSession.upd.cls = 4 ∧ setOf (configSession.payload (flashRegion 4 0).1) = some (oneRecord 9) ∧
    configSession.newestSet (fun _ => true) = some (0, oneRecord 5) ∧ configSession.fget Reg.UPD_SFMT_RETAINED = 0 := by
  have hb : (flashRegion configSession.upd.cls configSession.upd.bank).1 = 0x3800000 := by decide +kernel
  have hc : (configSession.container 0x3800000).magicOk = true ∧ (configSession.container 0x3800000).cver = 1 ∧
      (configSession.container 0x3800000).cls = 4 ∧ (configSession.container 0x3800000).profile = 2 ∧
      configSession.upd.written = 128 + (configSession.container 0x3800000).length ∧ configSession.upd.cls = 4 ∧
      configSession.fget Reg.UPD_SFMT_RUN = 1 := by decide +kernel
  refine ⟨?_, by decide +kernel, by decide +kernel, by decide +kernel, configSession_payload, configSession_newest,
    by decide +kernel⟩
  obtain ⟨c1, c2, c3, c4, c5, c6, c7⟩ := hc
  simp only [State.verifyCode, hb]
  simp [h, hk, c1, c2, c3, c4, c5, c6, c7, configSession_payload, oneRecord]

theorem witness_ActivationAndTrialBoot :
    let unl := up.setLock .upd 0 true
    let dir (f : Dir → Dir) : State := { unl with upd := { unl.upd with copy0 := some (f unl.upd.dir), copy1 := none } }
    let bank1 := dir fun d => { d with rcp1 := true, active := some 0 }
    let trial := dir fun d => { d with
      mgmt := { d.mgmt with pend := some 1, validB := true }, safety := { d.safety with pend := some 1, validB := true } }
    let staging := { up with upd := { up.upd with act := some ⟨1, true, 0⟩ } }
    (bank1.takesUnlocked .mgmt .upd 0 ∧ bank1.upd.dir.rcpValid (3 % 2) = true ∧ bank1.upd.dir.active ≠ some (3 % 2) ∧
      bank1.upd.act = none ∧ bank1.mem = .ready ∧ bank1.devOp = .run ∧ bank1.stopsServed) ∧
    (trial.takesUnlocked .mgmt .upd 0 ∧ selected 3 ≠ [] ∧ selected 1 ≠ [] ∧ trial.devOp = .run ∧ trial.pendAll 3 = true ∧
      trial.pendAll 1 = true) ∧
    (staging.porst = false ∧ staging.islandOn 28 = true ∧ staging.upd.act = some ⟨1, true, 0⟩ ∧ staging.stopsServed) := by decide +kernel

/-- A recipe in bank B that is being staged at the bottom of 64 MiB of spool. -/
def staging (c : List Byte) : State :=
  { up.fput Reg.MEM_CAP_CAP 1 with upd := { up.upd with act := some ⟨1, true, 0⟩ }, flash := memPut blank [] 0x2400000 c }

theorem witness_ActivationAndTrialBoot_staging :
    let good := staging (recipe loads)
    let bad := staging ((recipe loads).set 88 0xFF)
    let armed := good.modPort 84 fun x => { x with st := .printing, sq := .armed, flow := { x.flow with slot := 7 } }
    let read (s : State) (o k : Nat) : List Byte := s.flashBytes (0x2400000 + 64 + o) k
    let n (s : State) := (s.container 0x2400000).length
    let masks (s : State) := s.maskSections (sectionsOf (read s))
    let inUse (s : State) : Bool := (masks s).any fun x => (s.slotUse (x.index / 8)).testBit (x.index % 8)
    ((flashRegion 3 1).1 = 0x2400000 ∧ good.porst = false ∧ good.islandOn 28 = true ∧ good.mem = .ready ∧
      good.upd.act = some ⟨1, true, 0⟩ ∧ good.stageBase + 0x1000000 ≤ good.spoolSize ∧ n good + 64 ≤ 0x1000000 ∧
      good.stopsServed) ∧
    (n bad + 64 ≤ 0x1000000 ∧ recipeOk (read bad) (n bad) = false) ∧
    (recipeOk (read armed) (n armed) = true ∧ inUse armed = true) ∧
    (recipeOk (read good) (n good) = true ∧ inUse good = false ∧ (masks good).map (·.index) = [63] ∧
      good.loadsAtOnce 95 = true ∧ (good.port 95).inFlow = false) ∧
    ((good.modPort 95 fun x => { x with st := .printing, sq := .armed }).port 95).inFlow = true := by decide +kernel

/-- A port whose load is due: the staged recipe holds its NAT, its widths and its parameters, or nothing of its own. -/
theorem witness_ActivationAndTrialBoot_load :
    let due (secs : List (Nat × Nat × List Byte)) (st : PortState) : State :=
      { up.modPort 95 fun x => { x with st := st, recipeLoad := true } with spool := memPut 0 [] 0 (recipe secs) }
    let full := due (loads ++ [(4, 95, [7, 0, 0, 0])]) .standby
    let none_ := due [] .off
    (full.hasPort 95 = true ∧ (full.port 95).recipeLoad = true ∧ full.stopsServed ∧ full.hasParams 95 = true ∧
      full.staged.map (fun x => (x.type, x.index)) = [(3, 63), (2, 95), (1, 95), (4, 95)] ∧
      full.staged.map (fun x => (wordsOf (full.sectionData x))[0]?) =
        [some 0x04030201, some 0x80000005, some 6, some 7] ∧ (full.port 95).st ≠ .off ∧ (full.port 95).st ≠ .service) ∧
    (none_.staged = [] ∧ none_.hasParams 95 = false) ∧
    ((due [(4, 95, [])] .service).hasParams 95 = true ∧ ((due [(4, 95, [])] .service).port 95).st = .service) := by
  decide +kernel

theorem witness_ResetsAndBoot :
    let unl := up.setLock .clk 0 true
    let boot := { up with devOp := .boot, appliesRecords := false, upd := { up.upd with runMgmt := 1 } }
    (State.reset.porst = true ∧ ∀ i, i < 30 → up.upAt i ≤ max up.now 0) ∧
    ({ up with powerAt := 1 }).now < ({ up with powerAt := 1 }).upAt 0 ∧
    (unl.takesUnlocked .smp .clk 0 ∧ unl.thm.shutdown = false ∧ unl.devState = .idle) ∧
    (isLock (regAddr .kps3 0 0x40) = false ∧ pageAt (regAddr .kps3 0 0xFFC) = some .kps3) ∧
    (boot.porst = false ∧ boot.islandOn 28 = true ∧ boot.stopsServed ∧ boot.devOp = .boot ∧ boot.kps.st ≠ .selftest ∧
      boot.upd.runMgmt ≠ 0 ∧ boot.appliesRecords = false) := by decide +kernel

/-! ### The statements over every command -/

theorem witness_StepRunsTheFrontCommand :
    ({ up with pending := [.heartbeat 1, .lockstep 2] }).pending = .heartbeat 1 :: [.lockstep 2] ∧ up.pending = [] := by
  decide +kernel

theorem reset_guarded : State.reset.Guarded where
  latched p _ := ⟨.inl rfl, rfl⟩
  power _ _ := rfl
  flow _ _ := ⟨rfl, rfl⟩
  held _ := ⟨rfl, rfl, rfl, by decide, fun _ _ => rfl⟩
  porst _ := rfl
  sets k e h := by simp [State.reset, State.mset, MSet.reset, Sparse.get] at h

theorem witness_LatchesHoldTheMachineDark :
    let s := { State.reset with pending := [.porstNRelease 5 false false] }
    s.Guarded ∧ step s = exec (.porstNRelease 5 false false) State.reset :=
  ⟨⟨reset_guarded.latched, reset_guarded.power, reset_guarded.flow, reset_guarded.held, reset_guarded.porst,
    reset_guarded.sets⟩, rfl⟩

theorem witness_MemoriesStayCanonical :
    ({ up with band := [(0, 1), (5, 255)], flash := [(3, 0)] }).memoriesWf = true ∧
    ({ up with band := [(0, 0)] }).memoriesWf = false ∧ ({ up with flash := [(4, 1), (3, 0)] }).memoriesWf = false := by
  decide +kernel

theorem witness_CommandChecksInOrder :
    let waits := up.modPort 95 fun x => { x with
      stalled := [.write .host [(Reg.PL_MOUNT_LO_MOUNT.addr 95, leBytes 4 5)]], busyNow := true }
    (waits.present .ft 95 = true ∧ waits.shutTo .host = false ∧ waits.behind .host .ft 95 = some 95) ∧
    let page (v : Word) (p : Page) (s : State) := (s.at 0).commandOf .mgmt p 0 (v.toNat % 256) (v.toNat / 256)
    let parts (v : Word) (p : Page) (s : State) := (page v p s).map fun c => (c.1, c.2.argOk, c.2.unlock, c.2.legal, c.2.cond)
    let cfg := ((({ up with mem := .off }).setLock .mem 0 true).fput Reg.MEM_CFG_CH_EN 1).fput Reg.MEM_CFG_DENSITY 1
    (up.answers .mgmt .mem 0 ∧ up.stopsServed ∧ (up.setExec .mem 0 true).exec? .mem 0 = true ∧ up.exec? .mem 0 = false) ∧
    parts 0xEF .mem up = none ∧
    (parts 0xFFFFFF01 .bnd0 up).map (·.2.1) = some false ∧
    (up.unlocked .mem 0 = false ∧ (parts 1 .mem up).map (fun c => (c.1, c.2.1, c.2.2.1)) = some (false, true, true)) ∧
    (parts 3 .mem up).map (fun c => (c.2.1, c.2.2.1, c.2.2.2.1)) = some (true, false, false) ∧
    (({ up with mem := .off }).setLock .mem 0 true).unlocked .mem 0 = true ∧
    parts 1 .mem (({ up with mem := .off }).setLock .mem 0 true) = some (false, true, true, true, false) ∧
    parts 1 .mem cfg = some (false, true, true, true, true) ∧ 0xF0 ≤ (0xFFFFFFF0 : Word).toNat % 256 := by decide +kernel

theorem witness_FieldTypesOnWrite :
    (up.answers .smp .kps2 0 ∧ up.stopsServed ∧ up.answers .smp .clk 0 ∧ up.answers .host .dev 0 ∧
      up.answers .host .thm 0) ∧
    (∀ off ∈ [0x40, 0xFFC], wideLow .kps2 off = false ∧ wideHigh .kps2 off = false ∧ off % 4 = 0) ∧
    up.absentPart .kps2 0x40 = false ∧ up.unlocked .thm 0 = false ∧
    (∃ f ∈ fieldsAt .thm Reg.THM_T12_T1.off, f.ty = .rwl ∧
      f.get (up.word (regAddr .thm 0 Reg.THM_T12_T1.off)) ≠ f.get (0 : Word)) := by decide +kernel

theorem witness_UnmappedAccessesCompleteAndAreCounted :
    up.porst = false ∧ up.shutTo .smp = false ∧ up.place 0x3FFFFFF = .unmapped ∧ up.place 0x3FFFFFC = .unmapped ∧
    up.place 0x3FFFFF8 = .unmapped ∧ 0x3FFFFF8 % 8 = 0 ∧ up24.place 0x3807000 = .unmapped ∧ up24.place 0x3800000 ≠ .unmapped ∧
    up.bandBytes ≤ 0x10000000 ∧ up24.bandBytes ≤ 0x4000000 := by decide +kernel

theorem witness_FirstClaimTakesTheSlot :
    up.answers .smp .upd 0 ∧ (0x10001 : Word).toNat % 2 ^ 16 ≠ 0 ∧ up.upd.st = .free ∧ (0xFFFF0000 : Word).toNat % 2 ^ 16 = 0 ∧
    (session .claimed id).upd.st ≠ .free ∧ (session .claimed id).answers .smp .upd 0 := by decide +kernel

/-! ### Well-formed commands: the last value that each range admits, and the first that it does not -/

theorem test_wf_addresses :
    (∀ c ∈ [Instr.registerWrite 0 .host 0x3FFFFFF 1 1, .registerWrite 0 .host 0x3FFFFF8 8 0,
      .aliasAccess 0 .host ⟨0x7FFFFF, 1⟩ none, .aliasAccess 0 .host ⟨0x7FFFFC, 4⟩ (some (leBytes 4 0)),
      .wideLowerWrite 0 .mgmt 0x3FFFFFF 0, .wideUpperWrite 0 .smp 0x3FFFFFF 0, .wideLowerRead 0 .host ⟨0x3FFFFFF, 1⟩], c.wf = true) ∧
    (∀ c ∈ [Instr.registerWrite 0 .host 0x4000000 1 1, .registerWrite 0 .host 0 0 0, .registerWrite 0 .host 0 1 256,
      .registerWrite 0 .host 0x3FFFFFC 8 0,
      .aliasAccess 0 .host ⟨0x800000, 1⟩ none, .aliasAccess 0 .host ⟨0, 4⟩ (some (leBytes 2 0)),
      .wideLowerWrite 0 .mgmt 0x4000000 0, .wideUpperWrite 0 .smp 0x4000000 0, .wideLowerRead 0 .host ⟨0x4000000, 1⟩,
      .wideLowerRead 0 .host ⟨0, 0⟩], c.wf = false) := by decide +kernel

theorem test_wf_host :
    (∀ c ∈ [Instr.bar2Write 0 0xFFFFFFF [1], .bar2Read 0 0xFFFFFF8 8, .bar4Access 0 0xFFFFFFFF 1 none, .pcieLinkUp 0 5 8,
      .aerError 0 ⟨.malformed, [0, 0, 0, 0]⟩, .configurationRequest 0 (.maxPayload 4096), .configurationRequest 0 (.bar 5 0),
      .configurationRequest 0 (.read (.aerHeader 3))], c.wf = true) ∧
    (∀ c ∈ [Instr.bar2Write 0 0x10000000 [1], .bar2Read 0 0xFFFFFF8 9, .bar4Access 0 0xFFFFFFFF 2 none, .pcieLinkUp 0 6 8,
      .pcieLinkUp 0 5 3, .aerError 0 ⟨.malformed, [0, 0, 0]⟩, .configurationRequest 0 (.maxReadReq 64),
      .configurationRequest 0 (.bar 6 0), .configurationRequest 0 (.read (.bar 6)),
      .configurationRequest 0 (.read (.aerHeader 4))], c.wf = false) := by decide +kernel

theorem test_wf_pages :
    (∀ c ∈ [Instr.lockWrite 0 .host .lk 95 0, .causeClear 0 .host .fbk 95 0, .causeForce 0 .host .mgp 7 0,
      .nop 0 .smp .dev 0, .partWake 0 .eth 1], c.wf = true) ∧
    (∀ c ∈ [Instr.lockWrite 0 .host .lk 96 0, .causeClear 0 .host .fbk 96 0, .causeForce 0 .host .mgp 8 0,
      .nop 0 .smp .dev 1, .partWake 0 .eth 2], c.wf = false) := by decide +kernel

theorem test_wf_ports :
    (∀ c ∈ [Instr.wptrWrite 0 .host 95 0, .shadowNow 0 .host 95, .ready 0 .host 95, .natWrite 0 .host 95 12287 0,
      .widthTableWrite 0 .host 95 127 0, .portSvcEnter 0 .host 95 0xFFFFFF, .phaseStart 0 95 15, .ackFrame 0 95 0xFFFF 255,
      .statusFrame 0 95 255 0xFFFF 0 0 0 0, .identFrame 0 95 ⟨1, 0, 3, 15, 3, 0xFFFF, 0, 0, 0, 0⟩, .cfgAckFrame 0 95 255,
      .historyEntryCapture 0 .host 31, .stbRogue 0 95 ⟨2, 0⟩], c.wf = true) ∧
    (∀ c ∈ [Instr.wptrWrite 0 .host 96 0, .shadowNow 0 .host 96, .ready 0 .host 96, .natWrite 0 .host 95 12288 0,
      .widthTableWrite 0 .host 95 128 0, .portSvcEnter 0 .host 95 0x1000000, .phaseStart 0 95 16, .ackFrame 0 95 0x10000 0,
      .statusFrame 0 95 256 0 0 0 0 0, .identFrame 0 95 ⟨1, 0, 3, 16, 3, 0, 0, 0, 0, 0⟩, .cfgAckFrame 0 95 256,
      .historyEntryCapture 0 .host 32, .stbRogue 0 95 ⟨3, 0⟩], c.wf = false) := by decide +kernel

theorem test_wf_groups :
    (∀ c ∈ [Instr.maskSlotWrite 0 .host 7 7 16383 0, .sineTableWrite 0 .host 7 511 0, .pvtSegmentWrite 0 .host 7 1023 0,
      .calResultWrite 0 .host 0xF9 3 0, .ringReset 0 .host 0xFFFFFF, .trainComplete 0 15, .lineClockTick 0 7,
      .observerTick 0 95, .scrClrCnt 0 .host 7 0xFFFFFF, .enable 0 .host 95, .pvtStart 0 .host 95 0xFFFFFF,
      .pwmPeriod 0 7 4095], c.wf = true) ∧
    (∀ c ∈ [Instr.maskSlotWrite 0 .host 7 8 0 0, .sineTableWrite 0 .host 7 512 0, .pvtSegmentWrite 0 .host 7 1024 0,
      .calResultWrite 0 .host 0xFA 3 0, .ringReset 0 .host 0x1000000, .trainComplete 0 16, .lineClockTick 0 8,
      .observerTick 0 96, .scrClrCnt 0 .host 7 0x1000000, .enable 0 .host 96, .pvtStart 0 .host 96 0,
      .pwmPeriod 0 7 4096], c.wf = false) := by decide +kernel

theorem test_wf_streams :
    (∀ c ∈ [Instr.jstStart 0 .host 7 0xFFFFFF, .engineGrant 0 7, .descriptorComplete 0 7 15, .ethEnable 0 .host 1,
      .ethLinkUp 0 1 3, .bxDataTx 0 7, .txWptrWrite 0 .host 15 0, .bxEpochRx 0 7 [] [] [] [], .ptpFrameTx 0 7 3 true ⟨0, []⟩,
      .ethFrameRx 0 7 ⟨3, false, []⟩, .msgLost 0 29, .clkLoss 0 29 0,
      .safeRb 0 127], c.wf = true) ∧
    (∀ c ∈ [Instr.jstStart 0 .host 8 0, .engineGrant 0 8, .descriptorComplete 0 7 16, .ethEnable 0 .host 2,
      .ethLinkUp 0 1 4, .bxDataTx 0 8, .txWptrWrite 0 .host 16 0, .bxEpochRx 0 8 [] [] [] [], .ptpFrameTx 0 7 4 true ⟨0, []⟩,
      .ethFrameRx 0 7 ⟨4, false, []⟩, .msgLost 0 30, .clkLoss 0 30 0,
      .safeRb 0 128], c.wf = false) := by decide +kernel

/-! ### Witnesses: the statements about what a command leaves alone speak of commands that answer -/

/-- No access waits here, and one command of each family that a frame statement names answers a next state. -/
theorem witness_CounterCommandsTouchTheirCounters :
    (∀ p j, up.behind .host p j = none) ∧ (∃ u, exec (.clrUnmapped 0 .host) up = .next u) ∧ ∃ u, exec (.enClrCnt 0 .host 95) up = .next u :=
  ⟨fun _ _ => rfl, ⟨_, rfl⟩, ⟨_, rfl⟩⟩

theorem witness_MotionAndFeedbackCommandsTouchTheirUnit :
    (∀ p j, up.behind .host p j = none) ∧ (∃ u, exec (.setPos 0 .host 95) up = .next u) ∧ ∃ u, exec (.fbkOff 0 .host 0) up = .next u :=
  ⟨fun _ _ => rfl, ⟨_, rfl⟩, ⟨_, rfl⟩⟩

theorem witness_OtherCommandsTouchTheirUnit :
    (∀ p j, up.behind .host p j = none) ∧ (∃ u, exec (.idReq 0 .host 95) up = .next u) ∧ ∃ u, exec (.lnkOn 0 .host) up = .next u :=
  ⟨fun _ _ => rfl, ⟨_, rfl⟩, ⟨_, rfl⟩⟩

theorem witness_OnlyStoringCommandsChangeBytes :
    (∃ u, exec (.bar2Write 0 0 [1]) up = .next u) ∧ storesBand (.bar2Write 0 0 [1]) = true ∧
    storesBand (.bar2Read 0 0 1) = false ∧ storesSpool (.scrubBlock 0) = false ∧ storesFlash (.devReset 0 .host) = false :=
  ⟨⟨_, rfl⟩, by decide⟩


/-! ### The spec's worked examples, and other effects worked out by hand, one command each -/

/-- The state after a command. -/
def after (c : Instr) (s : State) : State :=
  match exec c s with
  | .next u => u
  | _ => s

/-- What the host reads at a BAR0 offset. -/
def rd (s : State) (a : Nat) : Word := (s.peek .host a).1

/-- 02, "commanding a printing port": HP05 is PRINTING and its fire-timing page has counted six commands. -/
def hp05 : State := (up.modPort 5 fun x => { x with st := .printing, sq := .printing, pwrEn := true }).setWord 0x114010 0x06000000

theorem test_service_entry_is_deferred :
    let u := after (.registerWrite 0 .host 0x11400C 4 0x10) hp05
    rd u 0x114010 = 0x07000010 ∧ (u.port 5).st = .printing ∧ (u.port 5).svcPend ≠ .none ∧ rd u 0x114000 = 0x00100500 := by
  decide +kernel

theorem test_power_command_is_rejected_while_printing :
    let u := after (.registerWrite 0 .host 0x11400C 4 0x114) (hp05.setWord 0x114010 0x07000010)
    rd u 0x114010 = 0x08000114 ∧ (rd u 0x114014).getLsbD 31 = true ∧ (u.port 5).pwrEn = true := by decide +kernel

/-- R48, R60: NOP completes OK and counts. -/
theorem test_nop_counts : rd (after (.nop 0 .host .ft 5) hp05) 0x114010 = 0x07000000 := by decide +kernel

/-- R54, R55: a narrow write is ignored; to an unmapped address it is counted all the same. -/
theorem test_narrow_writes :
    let u := after (.registerWrite 0 .mgmt 0xC000 2 0x5AFE) up
    rd u Reg.DEV_UNMAPPED_COUNT.addr = 1 ∧ rd u Reg.DEV_UNMAPPED_ADDR_ADDR.addr = 0x6000C000 ∧
    (after (.registerWrite 0 .mgmt 0x100024 2 0x5AFE) up).unlocked .ft 0 = false ∧
    (after (.registerWrite 0 .mgmt 0x100024 4 0x5AFE) up).unlocked .ft 0 = true := by decide +kernel

/-- 00, FB37: bit 1 of feedback group 3, behind summary bit 11. -/
theorem test_attention_of_channel_37 :
    let u := (up.setWord (regAddr .fbk 37 0x18) 8).setWord (regAddr .fbk 37 0x14) 8
    u.fbAttn 3 = 2 ∧ u.sumBit 11 = true := by decide +kernel

/-- 12, "two ports in one handler": HP40 misses an ACK; CAUSE_EN of its link page has bit 3 set. -/
theorem test_attention_of_port_40 :
    let u := (up.setWord 0x1A3018 8).setWord 0x1A3014 8
    u.signals .lk 40 = true ∧ u.signals .lk 41 = false ∧ (after (.causeClear 0 .host .lk 40 8) u).signals .lk 40 = false := by
  decide +kernel

/-- 04, "a nozzle masked in mid-page": NAT_IMM of entry 1,400 of HP17. -/
theorem test_immediate_nat_write :
    let s := after (.registerWrite 0 .host 0x41044 4 0x38000579) up
    let u := after (.registerWrite 0 .host 0x4100C 4 0x00578502) s
    u.natS 17 1400 = 0x38000579 ∧ u.natA 17 1400 = 0x38000579 ∧ u.natA 17 1401 = 0xC8000000 ∧
    (u.port 17).dirty = (s.port 17).dirty ∧ rd u 0x41010 = 0x01000002 := by decide +kernel

/-- 04: the dither of column 1,500 on line 120, in a seam of 64 columns that starts at 1,472. -/
theorem test_seam_dither :
    ditherB 12 8 = 9 ∧ seamHigh true 64 28 120 = true ∧ seamHigh false 64 28 120 = false := by decide +kernel

/-- HP17 with the geometry of the example of 04: each die word is PRESENT, REDUND, NOZZLES, COL_BASE. -/
def hp17 : State :=
  let s := up.setRing 17 { Ring.reset with st := .run, base := 0, size := 1, cols := 5632 }
  let die (s : State) (e : Nat × Nat × Nat) : State :=
    s.setAword (Reg.SCR_DIE_PRESENT.addr 1 5 e.1) (BitVec.ofNat 32 (0xA0000000 + 0x10000 * e.2.1 + e.2.2))
  [(0, 3072, 0), (1, 3072, 1472), (2, 3072, 2944), (3, 2432, 4416)].foldl die s

/-- 04, the owners of column 1,500 on line 120 (in the seam) and of column 700 on lines 120 and 121 (in die 0). -/
theorem test_column_owners :
    hp17.owner 17 120 1500 = some 3128 ∧ hp17.owner 17 120 700 = some 1400 ∧ hp17.owner 17 121 700 = some 1401 ∧
    hp17.geomOk 17 = true := by decide +kernel

/-- 04, lines 120 and 121: nozzle 1,400 is masked and its drop goes to 1,401, whose density adjustment lowers a
threshold of 73 to 70 and one of 180 to 174; a value of 96 prints a drop on line 120 alone. -/
def masked17 : State :=
  let s := (hp17.setNatA 17 1400 0x38000579).setNatA 17 1401 0x08840000
  let s := (s.setAword (Reg.SCR_PCFG_XORG.addr 1 5) (0x01008000 + 40)).modPort 17 fun x =>
    { x with flow := { x.flow with slot := 3, phaseX := 17, phaseY := 200 } }
  { s with masks := memPut 0 (memPut 0 s.masks (65536 * (8 * 1 + 3) + 256 * 64 + 245) [73]) (65536 * (8 * 1 + 3) + 256 * 65 + 245) [180] }

theorem test_masked_nozzle_thresholds :
    masked17.threshold 17 120 700 4 = 70 ∧ masked17.threshold 17 121 700 4 = 174 ∧ natDensity 0x08840000 = 4 ∧
    masked17.hideOf 17 120 700 = .subst 1400 1401 ∧ masked17.hideOf 17 121 700 = .own 1401 := by decide +kernel

/-- 05: the peak of the plan of six members at 0 and six at 2,260, with CRED 3 and WIN 2,260, paced by the clock and by
the media. -/
theorem test_plan_peak :
    let l := List.replicate 6 ⟨3, 0, 2260⟩ ++ List.replicate 6 ⟨3, 2260, 2260⟩
    planPeak ⟨true, 20833, 0, 18, 4800⟩ l = 18 ∧ planOk ⟨true, 20833, 0, 18, 4800⟩ l = true ∧
    planPeak ⟨false, 20833, 0, 18, 4800⟩ l = 36 := by decide +kernel

/-- 05, "one phase of HP40": CRED 2, GAP 5 ns, envelopes 2,772, 1,802 and 1,386 units; A and B rise at the start of the
phase, C 5 ns after B falls at 450.5 ns; the falls are at 693.0, 450.5 and 802.0 ns. -/
theorem test_phase_of_hp40 :
    phasePlan 2 5000 [2772, 1802, 1386] 0 [0, 1, 2] = [⟨0, 0, 693000⟩, ⟨1, 0, 450500⟩, ⟨2, 455500, 802000⟩] := by
  decide +kernel

/-- 06: the map 0xD9D9 over the five lines of nozzle 7,000 (codes 1 A, 2 B, 3 C; no drop on line n + 2), and H3's step. -/
theorem test_history_of_nozzle_7000 :
    [1, 3, 6, 5].map (mapClass 0xD9D9) = [2, 3, 1, 2] ∧ mapClass 0 3 = 1 ∧ [1, 2, 3].map stepDown = [2, 3, 3] ∧
    advanceHist [(7000, 1)] [7000] = [(7000, 3)] ∧ advanceHist [(7000, 7)] [] = [(7000, 6)] ∧
    advanceHist [(7000, 4)] [] = [] := by decide +kernel

/-- 06: with TB_k = 480 + 32k and HYST 8, 756 gives band 8 and then 770 band 9; 764 keeps band 9, for TB9 - 8 is 760. -/
theorem test_bands_of_die_2 :
    let s := (List.range 8).foldl (fun s i =>
      s.setAword (Reg.EN_TB_EVEN.addr 40 i) (BitVec.ofNat 32 ((512 + 64 * i) * 65536 + 480 + 64 * i))) up
    s.bandBits 40 0 756 = 0x1FE ∧ s.bandBits 40 0x1FE 770 = 0x3FE ∧ s.bandBits 40 0x3FE 764 = 0x3FE ∧
    s.bandBits 40 0x3FE 755 = 0x1FE := by decide +kernel

/-! ### Worked examples of placement, health, motion, Joist, Halyard, Bexgar and Kingpost -/

/-- 07, one line of HP40: the row offsets of its four dies, MOUNT 700,000 counts and PITCH 25.4 mm / 1,200. -/
def hp40 : State :=
  let q (n : Nat) : Word := BitVec.ofNat 32 n
  let s := (List.range 4).foldl (fun s d =>
    s.setAword (Reg.SCR_DIE_PRESENT.addr 3 4 d) (q (0xA0000000 + 0x10000 * 3072 + 3072 * d))) up
  let s := (s.setAword (Reg.PL_MOUNT_LO_MOUNT.addr 40) 0).setAword (Reg.PL_MOUNT_HI_MOUNT.addr 40) (q 700000)
  (s.setAword (Reg.PL_GRP_PITCH_LO_PITCH.addr 36) 0x2AAAAAAB).setAword (Reg.PL_GRP_PITCH_HI_PITCH.addr 36) 0x15

/-- With no row offsets ctr is 0, and X(300) of a page at S = 2,000 is 700,000 + 2,300 pitches. -/
theorem test_target_position :
    hp40.pitch 3 = 0x152AAAAAAB / 2 ^ 32 ∧ hp40.rowCtr 40 = 0 ∧
    hp40.target 40 2000 300 = 700000 + 2300 * (0x152AAAAAAB / 2 ^ 32) := by decide +kernel

/-- 07: tau of the example is 98.425 ns, here to within 1 ps; the times are on the 250 ps grid (98.5 ns). -/
theorem test_crossing_and_grid :
    (match crossing (7486850325 / 10000) (1016 / 1000) (2 / 1000000) (7486851325 / 10000) with
      | some tau => decide (98424 / 1000000 < tau ∧ tau < 98426 / 1000000)
      | none => false) = true ∧
    gridPs 98425 = 98500 ∧ gridPs 98374 = 98250 ∧ gridPs 98375 = 98500 := by decide +kernel

/-- 08, one primitive of HP40: the reported g and r of nozzles 7,000 to 7,002, and the record of nozzle 7,002. -/
theorem test_health_of_primitive :
    [q412 (970 / 1000), q412 (91 / 10000), q412 (65 / 100), q412 (775 / 10000), q412 (11 / 10), q412 (29 / 100)] =
      [0x0F85, 0x0025, 0x0A66, 0x013D, 0x1199, 0x04A3] ∧
    recordBits 7002 2 true false 0 5 0x1199 0x04A3 = 0x04A3119900519B5A ∧
    recordBits 7002 2 true true 0 5 0x1199 0x04A3 = 0x04A3119900539B5A ∧
    healthChange 0 1 true false = some 1 ∧ healthChange 0 2 true false = some 2 ∧ healthChange 2 0 true false = none := by
  decide +kernel

/-- 09, one move of AX07: tick 2,000 cruises, tick 2,001 brakes, tick 3,000 lands. -/
theorem test_move_of_ax07 :
    planStep (128256 / 10) 256000 256000 2560000 2560000 = ⟨256 / 10, 256000, false⟩ ∧
    (planStep 12800 256000 256000 2560000 2560000).v = 255744 ∧
    planStep (128 / 10000) 256 256000 2560000 2560000 = ⟨128 / 10000, 0, true⟩ := by decide +kernel

/-- 09: the four addresses of tick 1,502. -/
theorem test_addresses_of_ax07 :
    [up.addrOf 7 (256064 / 10), up.addrOf 7 (256128 / 10), up.addrOf 7 (256192 / 10), up.addrOf 7 (256256 / 10)] =
      [6, 13, 19, 26] := by decide +kernel

/-- 10: the funnel's split of 600 bytes on both sides. -/
theorem test_funnel_split :
    sideAccesses false 0x7003 600 =
      [(0x7003, 1), (0x7004, 4), (0x7008, 248), (0x7100, 256), (0x7200, 88), (0x7258, 2), (0x725A, 1)] ∧
    sideAccesses false 0x1005 600 =
      [(0x1005, 1), (0x1006, 2), (0x1008, 248), (0x1100, 256), (0x1200, 88), (0x1258, 4), (0x125C, 1)] := by
  decide +kernel

/-- R297: SWAP of 16-bit units, of the halves of a word, and of both. -/
theorem test_swap :
    swapBytes 1 [1, 2, 3, 4, 5, 6] = [2, 1, 4, 3, 6, 5] ∧ swapBytes 3 [1, 2, 3, 4] = [4, 3, 2, 1] ∧
    swapBytes 2 [1, 2, 3, 4] = [3, 4, 1, 2] := by decide +kernel

/-- 11: an offset of +400 ns with integ 0 makes INC 0x1_FFFF_F873. -/
theorem test_slewing :
    let u := up.servo (400 * 65536) 0
    u.hal.integ = 25 ∧ u.hal.adj = 225 ∧ u.hal.inc = 0x1FFFFF873 := by decide +kernel

/-- 11, one lost frame: with 101 expected, 102 arrives: NACK(101, GAP). -/
theorem test_lost_frame :
    let s := bexgar (fun x => { x with st := .up, expect := 101 }) id id
    let u := after (.bxDataRx 0 7 (bxOctets 9 7 ⟨1, s.lineId, false, 102, 0, 15, 0, [1]⟩) []) s
    (u.bx 7).expect = 101 ∧ ((u.bx 7).out.map fun f => (f.type, f.ack, f.sub)) = some (3, 101, 0) := by decide +kernel

/-- 13: the message of a stuck strobe B of HP40. -/
theorem test_message_word :
    msgWord 1 40 kindStbStuck 2 1 = 0x2A018001 ∧ msgSource 0x2A018001 = 0xA8 ∧ msgKind 0x2A018001 = 1 ∧
    msgSev 0x2A018001 = 2 ∧ msgDetail 0x2A018001 = 1 := by decide +kernel

/-- R93: CRC-32C of "123456789". -/
theorem test_crc32c : crc32c [0x31, 0x32, 0x33, 0x34, 0x35, 0x36, 0x37, 0x38, 0x39] = 0xE3069283 := by decide +kernel

/-- 12, "reading DEV_PART": the bytes that are sent, and bytes 1 to 5 of the POLL that follows. -/
theorem test_serial_port_reads_part :
    let u := after (.smpPoll 0) (after (.smpAccessDone 0) (after (.smpRead 0 (smpReadBytes 0x40)) up))
    (smpReadBytes 0x40).take 5 = [0x0B, 0, 0, 0, 0x40] ∧ (smpReadBytes 0x40).length = 9 ∧
    (u.smp.sdo.drop 1).take 5 = [0x41, 0, 0, 0x96, 0] := by decide +kernel

/-- R315: the FCS is the CRC-32 of IEEE 802.3, whose check value is 0xCBF43926. -/
theorem test_fcs : fcs [0x31, 0x32, 0x33, 0x34, 0x35, 0x36, 0x37, 0x38, 0x39] = 0xCBF43926 := by decide +kernel

/-- R23, R425: SHA-256 of "abc" (FIPS 180-4). -/
theorem test_sha256 : (sha256 [0x61, 0x62, 0x63]).take 8 = [0xBA, 0x78, 0x16, 0xBF, 0x8F, 0x01, 0xCF, 0xEA] := by
  decide +kernel

/-- 06: the default overdrive window of 10 s has bins of 156.25 ms. -/
theorem test_overdrive_bins : up.binLen 40 = 156250 * us := by decide +kernel

/-- 16, step 3 of swapping a head: SVC_POWER with bit 0 = 1 in SERVICE raises PWR_EN and starts the link (R48, R168). -/
theorem test_head_powers_up :
    let s := up.modPort 40 fun x => { x with st := .service }
    let u := after (.registerWrite 7 .host 0x1A000C 4 0x114) s
    (u.port 40).pwrEn = true ∧ (u.port 40).link = .idle ∧ rd u 0x1A0010 = 0x01000014 := by decide +kernel

/-- R24, R66: LOCK takes 0x5AFE from a master and reads 1; any other value locks the page. -/
theorem test_lock_word :
    let u := after (.lockWrite 0 .host .bnd0 0 0x5AFE) up
    u.unlocked .bnd0 0 = true ∧ (after (.lockWrite 0 .host .bnd0 0 0x5AFF) u).unlocked .bnd0 0 = false := by decide +kernel

/-- R427: the first claim takes the slot; the second returns BUSY (3) and changes nothing. -/
theorem test_claim :
    let u := after (.updClaim 0 .host 0x1234) up
    u.upd.st = .claimed ∧ u.upd.token = 0x1234 ∧
    (after (.updClaim 0 .mgmt 0x4321) u).upd.token = 0x1234 := by decide +kernel

/-- The table gives the commands no bits (log 16). -/
theorem test_no_bits : decodeTableWord 32 0x5AFE = none ∧ State.reset.withFetchWord 32 0x5AFE = State.reset := ⟨rfl, rfl⟩

/-- R156, R157, R159, R164, R165: a LINE frame of four dies takes 3,132 bytes and 1,566 + 2 symbol times with its SOF and EOF;
the headers as the tables lay them out. -/
theorem test_link_frames :
    let dies : List (Nat × List Nat) := (List.range 4).map fun d => (d, [2360, 1540, 1180])
    let ord : List Nat := List.range 16
    let line : LinkFrame := .line 1 0x1234 dies [(7000, 2)] ord
    line.bytes.length = 3132 ∧ line.syms = 1568 ∧ line.header = [1, 1, 0x34, 0x12, 15, 0, 0, 0] ∧
    (line.bytes.drop 12).take 8 = [0, 0, 0x38, 9, 4, 6, 0x9C, 4] ∧ codesByte [(7000, 2)] ord 2 (48 * 8 + 53 / 4) = 8 ∧
    LinkFrame.header (.config 1 4800 140 [0, 1] ord) = [2, 1, 0xC0, 0x12, 140, 0, 3, 0] ∧
    (LinkFrame.body (.config 1 4800 140 [0, 1] ord)).take 2 = [0x10, 0x32] ∧
    LinkFrame.header (.trim 1 true 5040 64 []) = [3, 3, 0xB0, 0x13, 64, 0, 0, 0] ∧
    markerByte 0 5 = 0xB0 ∧ markerByte 3 0x1236 = 0xC3 ∧
    LinkFrame.header .idReq = [5, 0, 0, 0, 0, 0, 0, 0] ∧ LinkFrame.header (.start 0) = [6, 0, 0, 0, 0, 0, 0, 0] := by
  decide +kernel

/-- R154, log 141: published words of the 8b/10b code: K28.5, D0.0, D21.5 and D11.7 at one disparity or both. -/
theorem test_line_code :
    codeSym false .idle = (0x0FA, true) ∧ codeSym true .idle = (0x305, false) ∧
    codeSym false (.data 0) = (0x274, false) ∧ codeSym false (.data 0xB5) = (0x2AA, false) ∧
    codeSym true (.data 0xB5) = (0x2AA, true) ∧ codeSym true (.data 0xEB) = (0x348, false) := by decide +kernel

end Sys2Proof.Tests
end

section
/-! Writes of a page's registers by a master (R54, R57, R61): the bytes of a word as one piece, the place of a register,
and the page that it reaches. -/

namespace Sys2Proof.Machine

/-! ### A word as bytes -/

theorem leNat_leBytes (n v : Nat) : leNat (leBytes n v) = v % 256 ^ n := by
  induction n generalizing v with
  | zero => simp [leBytes, leNat, Nat.mod_one]
  | succ n ih =>
    rw [leBytes, leNat, ih, BitVec.toNat_ofNat, show 256 ^ (n + 1) = 256 * 256 ^ n from Nat.pow_succ', Nat.mod_mul]

@[simp] theorem length_leBytes (n v : Nat) : (leBytes n v).length = n := by
  induction n generalizing v with
  | zero => rfl
  | succ n ih => simp [leBytes, ih]

/-- The four bytes of a word spell the word. -/
@[simp] theorem ofNat_leNat_leBytes (v : Word) : BitVec.ofNat 32 (leNat (leBytes 4 v.toNat)) = v := by
  apply BitVec.eq_of_toNat_eq
  have h : v.toNat < 256 ^ 4 := v.isLt
  rw [leNat_leBytes, BitVec.toNat_ofNat, Nat.mod_eq_of_lt h, Nat.mod_eq_of_lt v.isLt]

/-- R54: an aligned word is one piece. -/
theorem writePieces_word {a : Nat} (h : a % 4 = 0) (v : Nat) : writePieces a (leBytes 4 v) = [(a, leBytes 4 v)] := by
  have e : a / 4 * 4 = a := by omega
  have whole : (leBytes 4 v).take 4 = leBytes 4 v := List.take_of_length_le (Nat.le_of_eq (length_leBytes 4 v))
  simp [writePieces, pieces, h, e, whole, List.range_succ]

/-! ### Addresses of pages -/

theorem regAddr_mod_four (p : Page) (i off : Nat) : regAddr p i off % 4 = off % 4 := by
  cases p <;> simp only [regAddr, Page.base, Page.stride] <;> omega

theorem regAddr_lt_window {p : Page} {i off : Nat} (hi : i < p.count) (ho : off < 0x1000) : regAddr p i off < windowBase := by
  cases p <;> simp only [regAddr, Page.base, Page.stride, Page.count, windowBase] at hi ⊢ <;> omega

/-- An address at which a page stands is that of an offset in one of the copies of the page. -/
theorem locate_some {a : Nat} {p : Page} {i off : Nat} (h : locate a = some (p, i, off)) :
    i < p.count ∧ off < 0x1000 ∧ a = regAddr p i off := by
  simp only [locate, Option.map_eq_some_iff, Prod.mk.injEq] at h
  obtain ⟨q, hf, rfl, rfl, rfl⟩ := h
  have hit := List.find?_some hf
  simp only [Bool.and_eq_true, decide_eq_true_eq] at hit
  obtain ⟨⟨h1, h2⟩, h3⟩ := hit
  refine ⟨h2, h3, ?_⟩
  have := Nat.div_add_mod (a - q.base) q.stride
  simp only [regAddr]
  omega

/-- R53: a register of a page stands at its address. -/
theorem State.place_regAddr (s : State) {p : Page} {i off : Nat} (hi : i < p.count) (ho : off < 0x1000) (h4 : off % 4 = 0) :
    s.place (regAddr p i off) = .reg p i off := by
  have hw := regAddr_lt_window hi ho
  have hn : s.native (regAddr p i off) = regAddr p i off := by
    rw [State.native, if_neg (by omega)]
  simp only [State.place, hn, if_pos hw, placeOf, locate_regAddr hi ho]
  rw [Nat.div_mul_cancel (Nat.dvd_of_mod_eq_zero h4)]

/-! ### A page that answers -/

theorem State.answers_at {s : State} {m : Master} {p : Page} {i : Nat} (t : Time) (h : s.answers m p i) :
    (s.at t).answers m p i :=
  ⟨State.present_at t h.1, h.2.1, h.2.2⟩

/-- R61, R454: as time goes on no page begins to carry out a command. -/
theorem State.exec?_at {s : State} {p : Page} {i : Nat} (t : Time) (h : s.exec? p i = false) : (s.at t).exec? p i = false := by
  simp only [State.exec?, State.resetting, Bool.or_eq_false_iff, Bool.and_eq_false_iff, decide_eq_false_iff_not, Nat.not_lt]
    at h ⊢
  exact ⟨h.1, h.2.imp_right fun h => Nat.le_trans h (Nat.le_max_left ..)⟩

/-- R66: as time goes on a page stays unlocked. -/
theorem State.takesUnlocked_at {s : State} {m : Master} {p : Page} {i : Nat} (t : Time) (h : s.takesUnlocked m p i) :
    (s.at t).takesUnlocked m p i :=
  ⟨⟨State.answers_at t h.1.1, State.exec?_at t h.1.2⟩, h.2⟩

/-- R57: a word that no access and no transfer holds up reaches the page. -/
theorem State.busWrite_reg {s : State} {m : Master} {p : Page} {i off : Nat} (h : s.answers m p i) (ho : off < 0x1000)
    (h4 : off % 4 = 0) (hs : isShadowed p off = false) (v : Word) :
    s.busWrite m (regAddr p i off) (leBytes 4 v.toNat) = s.writePage m p i off v := by
  obtain ⟨hp, -, hb⟩ := h
  have hi := State.present_count hp
  have place := s.place_regAddr hi ho h4
  have free : s.waitsFor m (regAddr p i off) = none := by simp [State.waitsFor, place, hb, hs]
  rw [State.busWrite, writePieces_word (by rw [regAddr_mod_four, h4])]
  simp only [State.putPieces, free, State.putPiece, length_leBytes, if_true, State.poke, place, ofNat_leNat_leBytes]
  rfl

/-- R54: REGISTER_WRITE of a word to a page that answers. -/
theorem exec_registerWrite_reg {s : State} {m : Master} {p : Page} {i off : Nat} (t : Time) (h : s.answers m p i)
    (ho : off < 0x1000) (h4 : off % 4 = 0) (hs : isShadowed p off = false) (v : Word) :
    exec (.registerWrite t m (regAddr p i off) 4 v.toNat) s = .next ((s.at t).writePage m p i off v).settle := by
  have ha := State.answers_at t h
  rw [← State.busWrite_reg ha ho h4 hs v, ← State.by_of _ m (fun s => s.busWrite m _ _) ha.2.1]
  rfl

/-! ### Where the registers of a page stand -/

/-- A field's register stands at one of its copies, none of them before the first or behind the last. -/
theorem Fld.at?_bounds {f : Fld} {off : Nat} (h : f.at? off = true) :
    f.off ≤ off ∧ off ≤ f.off + (f.n1 - 1) * f.s1 + (f.n2 - 1) * f.s2 := by
  simp only [Fld.at?, List.any_eq_true, List.mem_range, beq_iff_eq] at h
  obtain ⟨i, hi, j, hj, rfl⟩ := h
  have := Nat.mul_le_mul_right f.s1 (show i ≤ f.n1 - 1 by omega)
  have := Nat.mul_le_mul_right f.s2 (show j ≤ f.n2 - 1 by omega)
  omega

/-- R59, R73: the common header holds no shadowed register. -/
theorem shadowed_behind_header : (Page.all.all fun p => p.fields.all fun f => !f.shadowed || decide (0x40 ≤ f.off)) = true := by
  decide +kernel

theorem isShadowed_header (p : Page) {off : Nat} (h : off < 0x40) : isShadowed p off = false := by
  simp only [isShadowed, fieldsAt, List.any_filter, List.any_eq_false, Bool.and_eq_true, not_and]
  intro f hf hat hsh
  have h1 := List.all_eq_true.mp (List.all_eq_true.mp shadowed_behind_header p (Page.mem_all p)) f hf
  have h2 := (Fld.at?_bounds hat).1
  simp only [hsh, Bool.not_true, Bool.false_or, decide_eq_true_eq] at h1
  omega

/-- R59: a write of the common header that raises no stop-request line. -/
theorem State.writePage_header {s : State} {m : Master} {p : Page} {i off : Nat} {v : Word} (hp : s.present p i = true)
    (ho : off < 0x40) (hs : (s.writeHeader m p i off v).kps.stops = []) :
    s.writePage m p i off v = s.writeHeader m p i off v := by
  simp [State.writePage, hp, ho, State.serveStops_nil _ hs]

end Sys2Proof.Machine
end

section
/-! The common header of a page, as its masters write it (R59, R64, R66, R69, R77). -/

namespace Sys2Proof.Machine

/-! ### What settling leaves in CAUSE (R69, R351) -/

theorem State.dropMsi_word_cause (s : State) :
    s.dropMsi.word (regAddr .pen 0 0x14) = s.word (regAddr .pen 0 0x14) ∨
    s.dropMsi.word (regAddr .pen 0 0x14) = s.word (regAddr .pen 0 0x14) ||| s.live .pen 0 := by
  cases h : s.pcie.msiPend
  · exact .inl (by rw [State.dropMsi, h]; rfl)
  · exact .inr (by rw [State.dropMsi, h]; exact s.word_setWord_self _ (s.cause .pen 0))

/-- Raising an MSI latches in CAUSE what was present before it, or what is present after it. -/
theorem State.raiseMsi_word_cause (s : State) :
    s.raiseMsi.word (regAddr .pen 0 0x14) = s.word (regAddr .pen 0 0x14) ∨
    s.raiseMsi.word (regAddr .pen 0 0x14) = s.word (regAddr .pen 0 0x14) ||| s.live .pen 0 ∨
    s.raiseMsi.word (regAddr .pen 0 0x14) = s.word (regAddr .pen 0 0x14) ||| s.raiseMsi.live .pen 0 := by
  rw [State.raiseMsi]
  split
  · have := s.dropMsi_word_cause
    rw [State.fadd, State.word_fput_ne _ _ _ _ _ _ (by decide)]
    exact this.imp id .inl
  · exact .inr (.inr (State.word_setWord_self ..))

/-- R69, R351: settling latches in CAUSE conditions that are present before it or after it, and that in the host
interface's page alone. -/
theorem State.settle_word_cause (s : State) {p : Page} {i : Nat} (hi : i < p.count) :
    s.settle.word (regAddr p i 0x14) = s.word (regAddr p i 0x14) ∨
    p = .pen ∧ s.settle.word (regAddr p i 0x14) = s.word (regAddr p i 0x14) ||| s.live p i ∨
    s.settle.word (regAddr p i 0x14) = s.word (regAddr p i 0x14) ||| s.settle.live p i := by
  by_cases hp : p = .pen
  · subst hp
    obtain rfl : i = 0 := by simpa [Page.count] using hi
    simp only [true_and]
    rw [State.settle]
    split
    · cases !s.pcie.actWas && s.fbit Reg.PEN_CTL_MSI_MIRROR
      · exact .inl rfl
      · exact s.raiseMsi_word_cause
    · exact s.dropMsi_word_cause.imp id .inl
  · exact .inl (s.settle_word (by rw [pageAt_regAddr hi (by decide)]; simpa using hp))

/-- R69: what CAUSE of a page reads, of the bits written 1, once that write has been settled. -/
theorem State.cause_settle_causeClear (s : State) {p : Page} {i : Nat} (hi : i < p.count) (v : Word) :
    (s.causeClear p i v).settle.cause p i &&& v = (s.live p i ||| (s.causeClear p i v).settle.live p i) &&& v := by
  have hw : (s.causeClear p i v).word (regAddr p i 0x14) = (s.word (regAddr p i 0x14) &&& ~~~v) ||| s.live p i :=
    State.word_setWord_self ..
  have hl : p = .pen → (s.causeClear p i v).live p i = s.live p i := by rintro rfl; rfl
  have masked (w l r : Word) : (w &&& ~~~v ||| l ||| r) &&& v = (l ||| r) &&& v := by
    ext b hb
    cases hv : v[b] <;> simp [hv]
  rw [State.cause]
  rcases (s.causeClear p i v).settle_word_cause hi with h | ⟨hp, h⟩ | h
  · rw [h, hw, masked]
  · rw [h, hw, hl hp, BitVec.or_assoc _ (s.live p i) (s.live p i), BitVec.or_self, masked]
  · rw [h, hw, BitVec.or_assoc _ (State.live _ p i) (State.live _ p i), BitVec.or_self, masked]

/-! ### CMD_STATUS (R59) -/

/-- What a counted command with RESULT OK leaves in CMD_STATUS that held `w`. -/
def okStatus (w : Word) (code : Nat) : Word :=
  ((w &&& 0x00FFFF00 ||| BitVec.ofNat 32 ((w.toNat / 2 ^ 24 + 1) % 256 * 2 ^ 24 + code % 256)) &&& 0xFFFFF8FF) |||
    BitVec.ofNat 32 (resOk % 8 * 256)

theorem toNat_okStatus (w : Word) (code : Nat) :
    (okStatus w code).toNat =
      (w.toNat &&& 0x00FFFF00 ||| ((w.toNat / 2 ^ 24 + 1) % 256 * 2 ^ 24 + code % 256)) &&& 0xFFFFF8FF := by
  simp only [okStatus, BitVec.toNat_or, BitVec.toNat_and, BitVec.toNat_ofNat]
  rw [Nat.mod_eq_of_lt (show (w.toNat / 2 ^ 24 + 1) % 256 * 2 ^ 24 + code % 256 < 2 ^ 32 by omega)]
  simp

theorem okStatus_seq (w : Word) (code : Nat) : (okStatus w code).toNat / 2 ^ 24 = (w.toNat / 2 ^ 24 + 1) % 256 := by
  rw [toNat_okStatus, ← Nat.shiftRight_eq_div_pow, Nat.shiftRight_and_distrib, Nat.shiftRight_or_distrib,
    Nat.shiftRight_and_distrib]
  rw [show 0x00FFFF00 >>> 24 = 0 by decide, show 0xFFFFF8FF >>> 24 = 2 ^ 8 - 1 by decide, Nat.and_zero, Nat.zero_or,
    Nat.and_two_pow_sub_one_eq_mod, Nat.shiftRight_eq_div_pow]
  omega

theorem okStatus_code (w : Word) {code : Nat} (hc : code < 256) : (okStatus w code).toNat % 256 = code := by
  rw [toNat_okStatus, show 256 = 2 ^ 8 by decide, Nat.and_mod_two_pow, Nat.or_mod_two_pow, Nat.and_mod_two_pow]
  rw [show 0x00FFFF00 % 2 ^ 8 = 0 by decide, show 0xFFFFF8FF % 2 ^ 8 = 2 ^ 8 - 1 by decide, Nat.and_zero, Nat.zero_or,
    Nat.and_two_pow_sub_one_eq_mod]
  omega

theorem okStatus_result (w : Word) (code : Nat) : (okStatus w code).toNat / 256 % 8 = resOk := by
  rw [toNat_okStatus]
  show _ / 2 ^ 8 % 2 ^ 3 = resOk
  rw [← Nat.shiftRight_eq_div_pow, Nat.shiftRight_and_distrib, Nat.and_mod_two_pow,
    show 0xFFFFF8FF >>> 8 % 2 ^ 3 = 0 by decide, Nat.and_zero]

theorem State.word_countCmd_ok (s : State) (p : Page) (i code : Nat) :
    ((s.countCmd p i code).setResult p i resOk).word (statusAddr p i) = okStatus (s.word (statusAddr p i)) code := by
  simp only [State.setResult, State.countCmd, State.word_setWord_self]
  rfl

/-- R59, R61: a command is carried out where CMD_STATUS of its page is counted from what it was, with RESULT OK. -/
theorem State.carriedOut_of_okStatus {s u : State} {p : Page} {i code : Nat} (hc : code < 256)
    (h : u.word (statusAddr p i) = okStatus (s.word (statusAddr p i)) code) : s.carriedOut u p i code := by
  simp only [State.carriedOut, State.counted, State.cmdSeq, State.cmdCode, State.result, h]
  exact ⟨⟨okStatus_seq _ _, okStatus_code _ hc⟩, okStatus_result _ _⟩

/-- R61: counting a command and its result leave every word but CMD_STATUS alone. -/
theorem State.word_countCmd_ok_ne (s : State) {p : Page} {i code a : Nat} (h : a ≠ statusAddr p i) :
    ((s.countCmd p i code).setResult p i resOk).word a = s.word a := by
  rw [State.setResult, State.word_setWord_ne _ _ h, State.countCmd, State.word_setWord_ne _ _ h]

/-! ### NOP and CLR_UNMAPPED (R64, R77) -/

/-- R69, R428: before a command of a page its conditions may be latched, and the update slot counts from now. -/
theorem State.beforeCommand_frame (s : State) (m : Master) (p : Page) (i : Nat) :
    s.beforeCommand m p i = { s with regs := (s.beforeCommand m p i).regs, upd := (s.beforeCommand m p i).upd } := by
  simp only [State.beforeCommand, State.updTouch, State.onChan, State.onAxis]
  repeat' split
  all_goals rfl

theorem State.beforeCommand_word (s : State) (m : Master) (p : Page) (i : Nat) {a : Nat} (h : a ≠ regAddr p i 0x14) :
    (s.beforeCommand m p i).word a = s.word a := by
  simp only [State.beforeCommand, State.updTouch, State.onChan, State.onAxis]
  split
  · split <;> rfl
  · split
    · exact State.word_setWord_ne _ _ h
    · rfl
  · split
    · exact State.word_setWord_ne _ _ h
    · rfl
  · rfl

theorem State.beforeCommand_answers {s : State} {m : Master} {p : Page} {i : Nat} (h : s.answers m p i) :
    (s.beforeCommand m p i).answers m p i := by
  obtain ⟨hp, hs, hb⟩ := h
  have isl : Reg.CLK_ISL_ON_ON.addr ≠ regAddr p i 0x14 := fun e =>
    absurd ((regAddr_inj (p := .clk) (by decide) (by decide) (State.present_count hp) (by decide)).mp e).2.2 (by decide)
  have on (k : Nat) : (s.beforeCommand m p i).islandOn k = s.islandOn k := by
    rw [State.islandOn, State.fget, s.beforeCommand_word m p i isl, s.beforeCommand_frame]
    rfl
  refine ⟨?_, ?_, ?_⟩
  · rw [← hp]
    unfold State.present
    rw [on, s.beforeCommand_frame]
    rfl
  · rw [← hs, s.beforeCommand_frame]
    rfl
  · rw [← hb, s.beforeCommand_frame]
    rfl

theorem State.beforeCommand_takes {s : State} {m : Master} {p : Page} {i : Nat} (h : s.takes m p i) :
    (s.beforeCommand m p i).takes m p i := by
  refine ⟨State.beforeCommand_answers h.1, ?_⟩
  rw [← h.2, State.exec?, s.beforeCommand_word m p i (by simp [statusAddr, regAddr]), s.beforeCommand_frame]
  rfl

/-- R61: a command that passes every check acts with RESULT OK, on the page that takes it. -/
theorem State.command_takes {s : State} {m : Master} {p : Page} {i : Nat} (h : s.takes m p i) (code arg : Nat) (c : CmdSpec)
    (ha : c.argOk = true) (hu : c.unlock = true → s.unlocked p i = true) (hl : c.legal = true) (hc : c.cond = true) :
    s.command m p i code arg false (some c) = c.eff ((s.countCmd p i code).setResult p i resOk) :=
  s.command_ok m p i code arg c h.1.1 h.1.2.1 h.1.2.2 h.2 ha hu hl hc

/-- R59: settling leaves CMD_STATUS alone. -/
theorem State.settle_word_status (s : State) {p : Page} {i : Nat} (hi : i < p.count) :
    s.settle.word (statusAddr p i) = s.word (statusAddr p i) := by
  refine s.settle_word_of_ne (fun e => ?_) (fun e => ?_) <;>
    exact absurd ((regAddr_inj (q := .pen) hi (by decide) (by decide) (by decide)).mp e).2.2 (by decide)

/-- R64: NOP is carried out by a page that takes a command. -/
theorem gives_nop {s : State} {m : Master} {p : Page} {i : Nat} (t : Time) (h : s.takes m p i) :
    Gives (.nop t m p i) s fun u => s.carriedOut u p i 0 := by
  have hx : ((s.at t).beforeCommand m p i).takes m p i :=
    State.beforeCommand_takes ⟨State.answers_at t h.1, State.exec?_at t h.2⟩
  refine ⟨_, rfl, ?_⟩
  rw [State.command_takes hx 0 0 nopSpec rfl (by simp [nopSpec]) rfl rfl]
  refine State.carriedOut_of_okStatus (by decide) ?_
  rw [State.settle_word_status _ (State.present_count h.1.1)]
  show State.word (State.setResult _ _ _ _) _ = _
  rw [State.word_countCmd_ok,
    State.beforeCommand_word _ _ _ _ (by simp [statusAddr, regAddr])]
  rfl

/-- R77: CLR_UNMAPPED clears the count and the address of unmapped accesses. -/
theorem gives_clrUnmapped {s : State} {m : Master} (t : Time) (h : s.takes m .dev 0) (hs : s.stopsServed) :
    Gives (.clrUnmapped t m) s fun u =>
      s.carriedOut u .dev 0 1 ∧ u.fget Reg.DEV_UNMAPPED_COUNT = 0 ∧ u.word Reg.DEV_UNMAPPED_ADDR_ADDR.addr = 0 := by
  have hx : (s.at t).takes m .dev 0 := ⟨State.answers_at t h.1, State.exec?_at t h.2⟩
  let x := ((s.at t).countCmd .dev 0 1).setResult .dev 0 resOk
  have hw : (s.at t).writeHeader m .dev 0 0x0C 0x01 =
      (x.fput Reg.DEV_UNMAPPED_COUNT 0).setWord Reg.DEV_UNMAPPED_ADDR_ADDR.addr 0 :=
    State.command_takes hx 1 0 { eff := fun s => (s.fput Reg.DEV_UNMAPPED_COUNT 0).setWord Reg.DEV_UNMAPPED_ADDR_ADDR.addr 0 }
      rfl (by simp) rfl rfl
  refine ⟨_, rfl, ?_⟩
  rw [State.by_of _ _ _ hx.1.2.1, State.writePage_header hx.1.1 (by decide) (by rw [hw]; exact hs), hw]
  refine ⟨State.carriedOut_of_okStatus (by decide) ?_, ?_, ?_⟩
  · rw [State.settle_word_status _ (by decide), State.word_setWord_ne _ _ (by decide),
      State.word_fput_ne _ _ _ _ _ _ (by decide)]
    exact State.word_countCmd_ok ..
  · rw [State.settle_fget _ _ _ _ _ (by decide)]
    show Fld.get _ (State.word _ _) = _
    rw [State.word_setWord_ne _ _ (by decide)]
    exact State.fget_fput_self _ _ (by decide) _ _ _ _
  · rw [State.settle_word _ (by decide), State.word_setWord_self]

end Sys2Proof.Machine
end

section
/-! Writes of CAUSE_EN, LOCK and CAUSE (R66, R69), and of a register by its field types (R20, R66, R67). -/

namespace Sys2Proof.Machine

/-! ### CAUSE_EN, LOCK, CAUSE -/

/-- R59: a register of the common header other than CAUSE stands at none of the words that settling may write. -/
theorem State.settle_word_header (s : State) {p : Page} {i off : Nat} (hi : i < p.count) (ho : off < 0x40)
    (hc : off ≠ 0x14) : s.settle.word (regAddr p i off) = s.word (regAddr p i off) := by
  refine s.settle_word_of_ne (fun e => ?_) (fun e => ?_)
  · have h : off = 0xA0 := ((regAddr_inj (q := .pen) hi (by omega) (by decide) (by decide)).mp e).2.2
    omega
  · exact hc ((regAddr_inj (q := .pen) hi (by omega) (by decide) (by decide)).mp e).2.2

/-- A register of a page is set to a word, and settled: every word of another page than PEN keeps its value. -/
theorem State.settle_setWord_word_ne (s : State) {a b : Nat} (w : Word) (hp : pageAt b ≠ some .pen) (h : b ≠ a) :
    (s.setWord a w).settle.word b = s.word b := by
  rw [State.settle_word _ hp, State.word_setWord_ne _ _ h]

/-- R59: a write of CAUSE_EN leaves the defined bits of the word. -/
theorem gives_write_causeEn {s : State} {m : Master} {p : Page} {i : Nat} (t : Time) (h : s.answers m p i)
    (hs : s.stopsServed) (v : Word) :
    Gives (.registerWrite t m (regAddr p i 0x18) 4 v.toNat) s fun u =>
      u.word (regAddr p i 0x18) = v &&& causeMask p ∧
      ∀ a, pageAt a ≠ some .pen → a ≠ regAddr p i 0x18 → u.word a = s.word a := by
  refine ⟨_, exec_registerWrite_reg t h (by decide) (by decide) (isShadowed_header p (by decide)) v, ?_⟩
  rw [State.writePage_header (off := 0x18) (v := v) (State.present_at t h.1) (by decide) hs]
  exact ⟨(State.settle_word_header _ (State.present_count h.1) (by decide) (by decide)).trans (State.word_setWord_self ..),
    fun a => State.settle_setWord_word_ne _ _⟩

/-- R66: LOCK_WRITE unlocks the page for 0x5AFE, and locks it for every other word. -/
theorem gives_lockWrite {s : State} {m : Master} {p : Page} {i : Nat} (t : Time) (h : s.answers m p i)
    (hs : s.stopsServed) (v : Word) :
    Gives (.lockWrite t m p i v) s fun u =>
      u.unlocked p i = (v == 0x5AFE) ∧
      ∀ a, pageAt a ≠ some .pen → a ≠ regAddr p i 0x24 → u.word a = s.word a := by
  have ha := State.answers_at t h
  refine ⟨_, rfl, ?_⟩
  rw [State.by_of _ _ _ ha.2.1, State.ordered_of _ _ _ _ _ _ _ ha.2.2, State.writePage_header (off := 0x24) (v := v) ha.1 (by decide) hs]
  refine ⟨?_, fun a => State.settle_setWord_word_ne _ _⟩
  rw [State.unlocked, State.settle_word_header _ (State.present_count h.1) (by decide) (by decide)]
  show (State.word (State.setWord _ _ (if v == 0x5AFE then 1 else 0)) _ == 1) = _
  rw [State.word_setWord_self]
  cases v == 0x5AFE <;> rfl

/-- R69: CAUSE_CLEAR leaves, of the bits written 1, those whose condition is present as it acts. -/
theorem gives_causeClear {s : State} {m : Master} {p : Page} {i : Nat} (t : Time) (h : s.answers m p i)
    (hs : s.stopsServed) (v : Word) :
    Gives (.causeClear t m p i v) s fun u =>
      u.cause p i &&& v = ((s.at t).live p i ||| u.live p i) &&& v ∧
      ∀ a, pageAt a ≠ some .pen → a ≠ regAddr p i 0x14 → u.word a = s.word a := by
  have ha := State.answers_at t h
  refine ⟨_, rfl, ?_⟩
  rw [State.by_of _ _ _ ha.2.1, State.ordered_of _ _ _ _ _ _ _ ha.2.2, State.writePage_header (off := 0x14) (v := v) ha.1 (by decide) hs]
  exact ⟨State.cause_settle_causeClear _ (State.present_count h.1) v, fun a => State.settle_setWord_word_ne _ _⟩

/-! ### Fields of one register -/

/-- Bit `b` is one of the field's. -/
abbrev Fld.bit (f : Fld) (b : Nat) : Prop := f.lo ≤ b ∧ b ≤ f.hi

/-- The field fits in a word. -/
abbrev Fld.fits (f : Fld) : Prop := f.lo ≤ f.hi ∧ f.hi < 32

/-- Two fields share no bit. -/
abbrev Fld.apart (f g : Fld) : Prop := f.hi < g.lo ∨ g.hi < f.lo

theorem Fld.getLsbD_mask {f : Fld} (hf : f.fits) (b : Nat) : f.mask.getLsbD b = decide (f.lo ≤ b ∧ b ≤ f.hi) := by
  obtain ⟨h1, h2⟩ := hf
  rw [Fld.mask, BitVec.getLsbD_ofNat, Nat.mul_comm, Nat.testBit_two_pow_mul, Nat.testBit_two_pow_sub_one, Fld.width]
  simp only [← Bool.decide_and, ge_iff_le, decide_eq_decide]
  omega

/-- A field reads the same in two words that agree in its bits. -/
theorem Fld.get_congr {f : Fld} {w x : Word} (h : ∀ b, f.bit b → w.getLsbD b = x.getLsbD b) : f.get w = f.get x := by
  apply Nat.eq_of_testBit_eq
  intro k
  simp only [Fld.get, ← Nat.shiftRight_eq_div_pow, Nat.testBit_mod_two_pow, Nat.testBit_shiftRight, BitVec.testBit_toNat]
  by_cases hk : k < f.width
  · rw [h (f.lo + k) ⟨by omega, by simp only [Fld.width] at hk; omega⟩]
  · simp [hk]

/-- R20: what a write of a field leaves in one of the bits of the word. -/
theorem getLsbD_writeField {f : Fld} (unl cfg : Bool) (old v : Word) {b : Nat} (hb : b < 32) :
    (writeField f unl cfg old v).getLsbD b =
      match f.ty with
      | .ro | .wo => old.getLsbD b
      | .rw1c => old.getLsbD b && !(v.getLsbD b && f.mask.getLsbD b)
      | .rwl => if unl && f.mask.getLsbD b then v.getLsbD b else old.getLsbD b
      | .rw | .rws => if !(f.config && !cfg) && f.mask.getLsbD b then v.getLsbD b else old.getLsbD b := by
  have merge : (old &&& ~~~f.mask ||| v &&& f.mask).getLsbD b =
      if f.mask.getLsbD b then v.getLsbD b else old.getLsbD b := by
    simp only [BitVec.getLsbD_or, BitVec.getLsbD_and, BitVec.getLsbD_not, hb, decide_true, Bool.true_and]
    cases f.mask.getLsbD b <;> simp
  rw [writeField]
  cases f.ty with
  | ro | wo => rfl
  | rw1c => simp only [BitVec.getLsbD_and, BitVec.getLsbD_not, hb, decide_true, Bool.true_and]
  | rwl =>
    cases unl
    · rfl
    · exact merge
  | rw | rws =>
    cases f.config && !cfg
    · exact merge
    · rfl

/-- R20: a write of a field leaves the bits beside it alone. -/
theorem getLsbD_writeField_off {f : Fld} (hf : f.fits) (unl cfg : Bool) (old v : Word) {b : Nat} (hb : b < 32)
    (h : ¬ f.bit b) : (writeField f unl cfg old v).getLsbD b = old.getLsbD b := by
  have hm : f.mask.getLsbD b = false := (f.getLsbD_mask hf b).trans (decide_eq_false h)
  rw [getLsbD_writeField unl cfg old v hb]
  cases f.ty <;> simp [hm]

/-- R20: what a field takes from a written word is up to what it held and the word alone. -/
theorem getLsbD_writeField_congr {f : Fld} (unl cfg : Bool) {w x : Word} (v : Word) {b : Nat} (hb : b < 32)
    (h : w.getLsbD b = x.getLsbD b) : (writeField f unl cfg w v).getLsbD b = (writeField f unl cfg x v).getLsbD b := by
  rw [getLsbD_writeField unl cfg w v hb, getLsbD_writeField unl cfg x v hb, h]

/-- R20: the value of a field that held `old` once `v` has been written to its register. -/
def Fld.taken (f : Fld) (unl : Bool) (old v : Word) : Nat :=
  match f.ty with
  | .rw | .rws => f.get v
  | .rwl => if unl then f.get v else f.get old
  | .ro | .wo => f.get old
  | .rw1c => f.get (old &&& ~~~v)

/-- R20: the value that a field takes from a written word, where no config state shuts it out. -/
theorem Fld.get_writeField {f : Fld} (hf : f.fits) (unl : Bool) (old v : Word) :
    f.get (writeField f unl true old v) = f.taken unl old v := by
  have bits (x : Word) (h : ∀ b, b < 32 → f.mask.getLsbD b = true → (writeField f unl true old v).getLsbD b = x.getLsbD b) :
      f.get (writeField f unl true old v) = f.get x :=
    Fld.get_congr fun b hb =>
      h b (by have := hf.2; have := hb.2; omega) ((f.getLsbD_mask hf b).trans (decide_eq_true hb))
  rw [Fld.taken]
  cases hty : f.ty with
  | rw | rws => exact bits v fun b hb hm => by simp [getLsbD_writeField _ _ _ _ hb, hty, hm]
  | rwl =>
    cases unl
    · exact bits old fun b hb hm => by simp [getLsbD_writeField _ _ _ _ hb, hty]
    · exact bits v fun b hb hm => by simp [getLsbD_writeField _ _ _ _ hb, hty, hm]
  | ro | wo => exact bits old fun b hb hm => by simp [getLsbD_writeField _ _ _ _ hb, hty]
  | rw1c =>
    refine bits _ fun b hb hm => ?_
    rw [getLsbD_writeField _ _ _ _ hb, hty]
    simp only [BitVec.getLsbD_and, BitVec.getLsbD_not, hm, hb, decide_true, Bool.true_and, Bool.and_true]

/-- R20: a field keeps its value when fields that share no bit with it are written. -/
theorem Fld.get_foldl_writeField_off (unl cfg : Bool) (v : Word) {f : Fld} (hf : f.fits) {fs : List Fld} (fit : ∀ g ∈ fs, g.fits)
    (apart : ∀ g ∈ fs, f.apart g) (old : Word) :
    f.get (fs.foldl (fun w g => writeField g unl cfg w v) old) = f.get old := by
  induction fs generalizing old with
  | nil => rfl
  | cons g gs ih =>
    rw [List.foldl_cons, ih (fun x hx => fit x (List.mem_cons_of_mem _ hx)) (fun x hx => apart x (List.mem_cons_of_mem _ hx))]
    refine Fld.get_congr fun b hb => getLsbD_writeField_off (fit g List.mem_cons_self) unl cfg old v ?_ ?_
    · have := hf.2; have := hb.2; omega
    · rcases apart g List.mem_cons_self with h | h <;> simp only [Fld.bit] at hb ⊢ <;> omega

/-- R20: of the fields of one register, which share no bit, each takes its own bits of a written word. -/
theorem Fld.get_foldl_writeField (unl cfg : Bool) (v : Word) {f : Fld} {fs : List Fld} (fit : ∀ g ∈ fs, g.fits)
    (apart : fs.Pairwise Fld.apart) (hf : f ∈ fs) (old : Word) :
    f.get (fs.foldl (fun w g => writeField g unl cfg w v) old) = f.get (writeField f unl cfg old v) := by
  induction fs generalizing old with
  | nil => cases hf
  | cons g gs ih =>
    obtain ⟨hg, apart⟩ := List.pairwise_cons.mp apart
    have fit' : ∀ x ∈ gs, x.fits := fun x hx => fit x (List.mem_cons_of_mem _ hx)
    rw [List.foldl_cons]
    rcases List.mem_cons.mp hf with rfl | hf
    · exact get_foldl_writeField_off unl cfg v (fit f List.mem_cons_self) fit' (fun x hx => hg x hx) _
    · rw [ih fit' apart hf]
      refine Fld.get_congr fun b hb => ?_
      have hb32 : b < 32 := by have := (fit' f hf).2; have := hb.2; omega
      refine getLsbD_writeField_congr unl cfg v hb32 (getLsbD_writeField_off (fit g List.mem_cons_self) unl cfg old v hb32 ?_)
      rcases hg f hf with h | h <;> simp only [Fld.bit] at hb ⊢ <;> omega

/-! ### Registers that have no effect of their own -/

/-- The pages whose registers have no effect of their own when written. -/
abbrev plainPages : List Page := [.thm, .kps2, .clk, .dev]

/-- The last offset at which a copy of the field's register stands. -/
def Fld.last (f : Fld) : Nat := f.off + (f.n1 - 1) * f.s1 + (f.n2 - 1) * f.s2

theorem fields_fit : (Page.all.all fun p => p.fields.all fun f => decide f.fits) = true := by decide +kernel

/-- The fields of a plain page share no bit, or stand in registers that lie apart. -/
theorem plainPages_apart : (plainPages.all fun p => decide (p.fields.Pairwise fun f g =>
    f.apart g ∨ f.last < g.off ∨ g.last < f.off)) = true := by decide +kernel

theorem plainPages_unshadowed : (plainPages.all fun p => p.fields.all fun f => !f.shadowed) = true := by decide +kernel

theorem fits_of_mem_fieldsAt {p : Page} {off : Nat} {f : Fld} (h : f ∈ fieldsAt p off) : f.fits :=
  of_decide_eq_true (List.all_eq_true.mp (List.all_eq_true.mp fields_fit p (Page.mem_all p)) f (List.mem_filter.mp h).1)

theorem fieldsAt_apart {p : Page} (hp : p ∈ plainPages) (off : Nat) : (fieldsAt p off).Pairwise Fld.apart := by
  have h := of_decide_eq_true (List.all_eq_true.mp plainPages_apart p hp)
  refine List.pairwise_filter.mpr (h.imp fun {f g} h hf hg => ?_)
  have bf := Fld.at?_bounds hf
  have bg := Fld.at?_bounds hg
  simp only [Fld.last] at h
  rcases h with h | h | h
  · exact h
  · omega
  · omega

theorem isShadowed_plain {p : Page} (hp : p ∈ plainPages) (off : Nat) : isShadowed p off = false := by
  have h := List.all_eq_true.mp (List.all_eq_true.mp plainPages_unshadowed p hp)
  refine List.any_eq_false.mpr fun f hf => ?_
  simpa using h f (List.mem_filter.mp hf).1

/-- R20, R66, R67: what a write of a register without config fields does: each field takes its bits, and LOCKED is set at
least where a locked field would have changed. -/
theorem State.writeReg_cases (s : State) (p : Page) (i off : Nat) (v : Word) :
    let s' := s.setWord (regAddr p i off)
      ((fieldsAt p off).foldl (fun w f => writeField f (s.unlocked p i) true w v) (s.word (regAddr p i off)))
    s.writeReg p i off v true none = s'.lockedCause p i ∨
    s.writeReg p i off v true none = s' ∧ ¬ (s.unlocked p i = false ∧
      ∃ f ∈ fieldsAt p off, f.ty = .rwl ∧ f.get (s.word (regAddr p i off)) ≠ f.get v) := by
  simp only [State.writeReg]
  split
  · exact .inl rfl
  · next h =>
    refine .inr ⟨rfl, fun ⟨hu, f, hf, ht, hv⟩ => h ?_⟩
    simp only [hu, Bool.not_false, Bool.true_and, Bool.and_eq_true, Bool.or_eq_true, List.any_eq_true, beq_iff_eq, bne_iff_ne]
    exact ⟨⟨f, hf, ht⟩, .inl ⟨f, hf, ht, hv⟩⟩

theorem State.writeReg_kps (s : State) (p : Page) (i off : Nat) (v : Word) :
    (s.writeReg p i off v true none).kps = s.kps := by
  rcases s.writeReg_cases p i off v with h | ⟨h, -⟩ <;> rw [h] <;> rfl

/-- R67: a write of a register leaves every other word alone but the page's CAUSE. -/
theorem State.writeReg_word_ne (s : State) (p : Page) (i off : Nat) (v : Word) {a : Nat} (h1 : a ≠ regAddr p i off)
    (h2 : a ≠ regAddr p i 0x14) : (s.writeReg p i off v true none).word a = s.word a := by
  rcases s.writeReg_cases p i off v with h | ⟨h, -⟩ <;> rw [h]
  · rw [State.lockedCause, State.word_setWord_ne _ _ h2, State.word_setWord_ne _ _ h1]
  · rw [State.word_setWord_ne _ _ h1]

/-- R20: what a write of a register leaves in each of its fields. -/
theorem State.writeReg_get (s : State) {p : Page} (hp : p ∈ plainPages) (i : Nat) {off : Nat} (ho : off ≠ 0x14) (v : Word) {f : Fld}
    (hf : f ∈ fieldsAt p off) :
    f.get ((s.writeReg p i off v true none).word (regAddr p i off)) =
      f.taken (s.unlocked p i) (s.word (regAddr p i off)) v := by
  have hne : regAddr p i off ≠ regAddr p i 0x14 := by simp only [regAddr]; omega
  rw [← Fld.get_writeField (fits_of_mem_fieldsAt hf), ← Fld.get_foldl_writeField _ true v
    (fun _ => fits_of_mem_fieldsAt) (fieldsAt_apart hp off) hf]
  rcases s.writeReg_cases p i off v with h | ⟨h, -⟩ <;> rw [h]
  · rw [State.lockedCause, State.word_setWord_ne _ _ hne, State.word_setWord_self]
  · rw [State.word_setWord_self]

/-- R66: a write that would change a locked field sets LOCKED. -/
theorem State.writeReg_locked (s : State) {p : Page} {i off : Nat} {v : Word} (hu : s.unlocked p i = false)
    (hf : ∃ f ∈ fieldsAt p off, f.ty = .rwl ∧ f.get (s.word (regAddr p i off)) ≠ f.get v) :
    ((s.writeReg p i off v true none).word (regAddr p i 0x14)).getLsbD 30 = true := by
  rcases s.writeReg_cases p i off v with h | ⟨-, h⟩
  · rw [h, State.lockedCause, State.word_setWord_self, BitVec.getLsbD_or]
    exact Bool.or_true _
  · exact absurd ⟨hu, hf⟩ h

/-- A word to a register of a plain page is stored by its field types. -/
theorem State.writePage_plain {s : State} {m : Master} {p : Page} {i off : Nat} (v : Word) (hp : p ∈ plainPages)
    (h : s.present p i = true) (ho : 0x40 ≤ off) (hl : wideLow p off = false) (hh : wideHigh p off = false)
    (ha : s.absentPart p off = false) :
    s.writePage m p i off v = ((s.latch p i).writeReg p i off v true none).serveStops := by
  have store (x : State) : x.storeReg p i off v = x.writeReg p i off v true none := by
    simp only [plainPages, List.mem_cons, List.not_mem_nil, or_false] at hp
    have hv : x.profileWord p off v = v := by
      rcases hp with rfl | rfl | rfl | rfl <;> simp [State.profileWord]
    rcases hp with rfl | rfl | rfl | rfl <;> simp only [State.storeReg, State.writeBlocked, State.configState, hv]
  have block : s.writeBlock m p i off v = (s.latch p i).storeWide m p i off v := by
    simp only [plainPages, List.mem_cons, List.not_mem_nil, or_false] at hp
    have hsh := isShadowed_plain (p := p) (by simpa using hp) off
    rcases hp with rfl | rfl | rfl | rfl <;> simp [State.writeBlock, hsh]
  simp only [State.writePage, h, Bool.not_true, Bool.false_eq_true, if_false, show ¬ off < 0x40 by omega, ha, block,
    State.storeWide, hl, hh, store]

/-- R20, R66, R67: a write of a register of a plain page acts by the types of its fields. -/
theorem gives_write_plain {s : State} {m : Master} {p : Page} {i off : Nat} (t : Time) (h : s.answers m p i)
    (hs : s.stopsServed) (v : Word) (hp : p ∈ plainPages) (ho : 0x40 ≤ off) (ho' : off < 0x1000) (h4 : off % 4 = 0)
    (hl : wideLow p off = false) (hh : wideHigh p off = false) (ha : s.absentPart p off = false) :
    Gives (.registerWrite t m (regAddr p i off) 4 v.toNat) s fun u =>
      (∀ f ∈ fieldsAt p off, f.get (u.word (regAddr p i off)) =
        f.taken (s.unlocked p i) (s.word (regAddr p i off)) v) ∧
      (s.unlocked p i = false → (∃ f ∈ fieldsAt p off, f.ty = .rwl ∧ f.get (s.word (regAddr p i off)) ≠ f.get v) →
        (u.word (regAddr p i 0x14)).getLsbD 30 = true) ∧
      ∀ a, a ≠ regAddr p i off → a ≠ regAddr p i 0x14 → a ≠ Reg.PEN_MSI_CNT_COUNT.addr → a ≠ regAddr .pen 0 0x14 →
        u.word a = s.word a := by
  have hi := State.present_count h.1
  have other (o : Nat) (h : o < 0x1000) : pageAt (regAddr p i o) ≠ some .pen := by
    rw [pageAt_regAddr hi h]
    rintro ⟨⟩
    simp [plainPages] at hp
  let x := (s.at t).latch p i
  have hx (a : Nat) (h : a ≠ regAddr p i 0x14) : x.word a = s.word a := State.word_setWord_ne _ _ h
  have hxr : x.word (regAddr p i off) = s.word (regAddr p i off) := hx _ (by simp only [regAddr]; omega)
  have hxu : x.unlocked p i = s.unlocked p i := by
    rw [State.unlocked, hx _ (by simp only [regAddr]; omega)]
    rfl
  refine ⟨_, exec_registerWrite_reg t h ho' h4 (isShadowed_plain hp off) v, ?_⟩
  rw [State.writePage_plain v hp (State.present_at t h.1) ho hl hh ha, show (s.at t).latch p i = x from rfl,
    State.serveStops_nil (x.writeReg p i off v true none) ((congrArg Kps.stops (x.writeReg_kps ..)).trans hs)]
  refine ⟨fun f hf => ?_, fun hu hf => ?_, fun a h1 h2 h3 h4 => ?_⟩
  · rw [State.settle_word _ (other off ho'), ← hxu, ← hxr]
    exact x.writeReg_get hp i (by omega) v hf
  · rw [State.settle_word _ (other _ (by decide))]
    rw [← hxu] at hu
    rw [← hxr] at hf
    exact x.writeReg_locked hu hf
  · rw [State.settle_word_of_ne _ h3 h4, State.writeReg_word_ne _ _ _ _ _ h1 h2]
    exact hx a h2

/-- Settles O1: each clause by the lemma about its command. -/
theorem registerCommandsAct : Obligations.RegisterCommandsAct := by
  intro s t m p i h hs
  exact ⟨gives_write_causeEn t h hs, gives_lockWrite t h hs, gives_causeClear t h hs,
    fun he => gives_nop t ⟨h, he⟩, fun hd he => gives_clrUnmapped t ⟨hd, he⟩ hs,
    fun off v hp ho ho' h4 hl hh ha => gives_write_plain t h hs v hp ho ho' h4 hl hh ha⟩

end Sys2Proof.Machine
end

section
/-! What the choice of firmware slots at a boot changes (R433), and how PORST_N falls and rises (R446, R448). -/

namespace Sys2Proof.Machine

/-! ### Words that an operation leaves alone -/

/-- Every register word at an address of `A` reads in `u` as in `s`. -/
def State.sameOn (A : Nat → Prop) (s u : State) : Prop := ∀ a, A a → u.word a = s.word a

section
variable {A : Nat → Prop} {s u v : State}

theorem State.sameOn_refl (s : State) : s.sameOn A s := fun _ _ => rfl

theorem State.sameOn_trans (h : s.sameOn A u) (h' : u.sameOn A v) : s.sameOn A v := fun a ha => (h' a ha).trans (h a ha)

theorem State.sameOn_congr (h : u.regs = s.regs) (h2 : u.ul24 = s.ul24) : s.sameOn A u := fun a _ => State.word_congr h h2 a

theorem State.sameOn_setWord (s : State) {b : Nat} (w : Word) (h : ¬ A b) : s.sameOn A (s.setWord b w) :=
  fun _ ha => State.word_setWord_ne _ _ fun e => h (e ▸ ha)

theorem State.sameOn_fput (s : State) (f : Fld) (v i j k : Nat) (h : ¬ A (f.addr i j k)) : s.sameOn A (s.fput f v i j k) :=
  s.sameOn_setWord _ h

theorem State.sameOn_fadd (s : State) (f : Fld) (n i j k : Nat) (h : ¬ A (f.addr i j k)) : s.sameOn A (s.fadd f n i j k) :=
  s.sameOn_setWord _ h

theorem State.sameOn_raise (s : State) (f : Fld) (i : Nat) (h : ¬ A (f.addr i)) : s.sameOn A (s.raise f i) :=
  s.sameOn_setWord _ h

theorem State.sameOn_latch (s : State) (p : Page) (i : Nat) (h : ¬ A (regAddr p i 0x14)) : s.sameOn A (s.latch p i) :=
  s.sameOn_setWord _ h

theorem State.sameOn_when {f : State → State} (c : Bool) (h : s.sameOn A (f s)) : s.sameOn A (s.when c f) := by
  cases c
  · exact s.sameOn_refl
  · exact h

theorem State.sameOn_forEach (l : List Nat) {f : State → Nat → State} (h : ∀ s, ∀ k ∈ l, State.sameOn A s (f s k)) (s : State) :
    s.sameOn A (s.forEach l f) :=
  State.forEach_keeps State.sameOn_refl (fun _ _ _ => State.sameOn_trans) l h s

end

/-! ### The choice of a firmware slot -/

/-- Of the registers, only the causes and the settings formats of the UPD page differ; beside them only the update unit's
record does. -/
def State.bootOnly (s u : State) : Prop :=
  u = { s with regs := u.regs, upd := u.upd } ∧ s.sameOn (fun a => a ≠ Reg.UPD_CAUSE_REVERTED.addr ∧ a ≠ Reg.UPD_SFMT_RUN.addr) u

section
variable {s u v : State}

theorem State.bootOnly_refl (s : State) : s.bootOnly s := ⟨rfl, s.sameOn_refl⟩

theorem State.bootOnly_trans (h : s.bootOnly u) (h' : u.bootOnly v) : s.bootOnly v :=
  ⟨h'.1.trans (congrArg (fun x : State => { x with regs := v.regs, upd := v.upd }) h.1), State.sameOn_trans h.2 h'.2⟩

theorem State.bootOnly_modUpd (s : State) (f : Upd → Upd) : s.bootOnly (s.modUpd f) := ⟨rfl, State.sameOn_congr rfl rfl⟩

theorem State.bootOnly_changeDir (s : State) (f : Dir → Dir) : s.bootOnly (s.changeDir f) := ⟨rfl, State.sameOn_congr rfl rfl⟩

theorem State.bootOnly_fput (s : State) (f : Fld) (n : Nat) (h : f.addr = Reg.UPD_CAUSE_REVERTED.addr ∨ f.addr = Reg.UPD_SFMT_RUN.addr) :
    s.bootOnly (s.fput f n) :=
  ⟨rfl, s.sameOn_fput f n 0 0 0 fun hn => h.elim hn.1 hn.2⟩

/-- R433: the slot that the directory picks is picked with a change of the directory at most. -/
theorem State.bootOnly_pickSlot (s : State) (cls : Nat) : s.bootOnly (s.pickSlot cls).1 := by
  simp only [State.pickSlot]
  split
  · exact s.bootOnly_refl
  · split <;> dsimp only <;> exact s.bootOnly_changeDir _

/-- R433: choosing a slot reports an old slot, or the other one in place of the one picked. -/
theorem State.bootOnly_bootSlot (s : State) (cls : Nat) : s.bootOnly (s.bootSlot cls).1 := by
  have reverted (x : State) (c : Bool) : x.bootOnly (if c then x.raise Reg.UPD_CAUSE_REVERTED else x) := by
    cases c
    · exact x.bootOnly_refl
    · exact x.bootOnly_fput _ _ (.inl rfl)
  have other (x : State) : x.bootOnly ((x.modUpd fun u => { u with fallback := true }).raise Reg.UPD_CAUSE_FALLBACK) :=
    State.bootOnly_trans (x.bootOnly_modUpd _) (State.bootOnly_fput _ _ _ (.inl rfl))
  have verified (x : State) (e : FwEntry) (b : Nat) : x.bootOnly
      (if e.valid b && x.slotOk cls b then (x, b + 1)
       else if e.valid (1 - b) && x.slotOk cls (1 - b) then
         ((x.modUpd fun u => { u with fallback := true }).raise Reg.UPD_CAUSE_FALLBACK, 2 - b)
       else (x, 0)).1 := by
    split
    · exact x.bootOnly_refl
    · split
      · exact other x
      · exact x.bootOnly_refl
  exact State.bootOnly_trans (State.bootOnly_trans (s.bootOnly_pickSlot cls) (reverted _ _)) (verified _ _ _)

/-- R433, R448: the safety cluster is released with a slot. -/
theorem State.bootOnly_bootSafety (s : State) : s.bootOnly s.bootSafety :=
  State.bootOnly_trans (s.bootOnly_bootSlot 2) (State.bootOnly_modUpd _ fun u => { u with runSafety := (s.bootSlot 2).2 })

/-- R433, R443: the management cluster boots. -/
theorem State.bootOnly_bootMgmt (s : State) : s.bootOnly s.bootMgmt :=
  State.bootOnly_trans (State.bootOnly_trans (s.bootOnly_bootSlot 1) (State.bootOnly_modUpd _ fun u => { u with runMgmt := (s.bootSlot 1).2 }))
    (State.bootOnly_fput _ Reg.UPD_SFMT_RUN _ (.inr rfl))

end

/-! ### PORST_N -/

/-- R351: where no interrupt is enabled and no MSI waits, settling changes the host interface's record alone. -/
theorem State.settle_quiet {s : State} (h : s.penEn = 0) (hm : s.pcie.msiPend = false) :
    s.settle = { s with pcie := { s.pcie with msiPend := false, msiPendBit := false, actWas := false } } := by
  have ha : s.actNow = false := by simp [State.actNow, h]
  simp [State.settle, ha, State.dropMsi, hm, State.when]

theorem penEn_of_no_regs {s : State} (h : s.regs = []) : s.penEn = 0 := by
  have z (b : Bool) : Reg.PEN_EN_LO_EN.get (resetWord b Reg.PEN_EN_LO_EN.addr) = 0 ∧
      Reg.PEN_EN_HI_EN.get (resetWord b Reg.PEN_EN_HI_EN.addr) = 0 := by cases b <;> decide
  simp [State.penEn, State.fget, State.word, h, Sparse.get, z]

/-- R446: PORST_N low resets the whole device but the flash with its directory, and the model's own queue. -/
theorem gives_porstNAssert (s : State) (t : Time) :
    Gives (.porstNAssert t) s fun u => u.porst = true ∧ u.regs = [] ∧ u.active = [] ∧ u.ports = [] ∧ u.kps = Kps.reset ∧
      u.band = [] ∧ u.spool = [] ∧ u.axes = [] ∧ u.flash = s.flash ∧ u.upd.dir = s.upd.dir ∧ u.pending = s.pending := by
  refine ⟨_, rfl, ?_⟩
  rw [State.settle_quiet (penEn_of_no_regs rfl) rfl]
  exact ⟨rfl, rfl, rfl, rfl, rfl, rfl, rfl, rfl, rfl, rfl, rfl⟩

/-- PORST_N_RELEASE while PORST_N is high: no effect (log 9). -/
theorem gives_porstNRelease_high {s : State} (t : Time) (prof ftm : Bool) (h : s.porst = false) :
    Gives (.porstNRelease t prof ftm) s fun u => u.porst = false ∧ u.ul24 = s.ul24 ∧ u.ports = s.ports ∧ u.kps = s.kps := by
  have hx : (s.at t).porstHigh prof ftm = s.at t := by simp [State.porstHigh, h]
  refine ⟨_, rfl, ?_⟩
  rw [hx]
  exact ⟨(State.settle_porst _).trans h, State.settle_ul24 _, State.settle_ports _, State.settle_kps _⟩

/-- R448: the island of every number that a profile has is on in its mask, and no other. -/
theorem bootIslands_lt (ul24 : Bool) : bootIslands ul24 < 2 ^ 30 := by cases ul24 <;> decide

/-- R448, log 41: a step of the boot ends no earlier than it begins. -/
theorem State.le_bootStep (s : State) (from0 limit : Time) : from0 ≤ s.bootStep from0 limit := Nat.le_add_right ..

/-- R192: counting the bins anew changes the ports only. -/
theorem State.startBins_frame (s : State) : s.startBins = { s with ports := s.startBins.ports } :=
  State.forEach_keeps (P := fun s u => u = { s with ports := u.ports }) (fun _ => rfl)
    (fun _ _ c h h' => h'.trans (congrArg (fun x : State => { x with ports := c.ports }) h)) _ (fun _ _ _ => rfl) s

/-- R4, R5, R446, R448: the straps are sampled, and the islands of the profile are on, each from its instant on. -/
def State.porstPowered (s : State) (prof ftm : Bool) : State :=
  let x := { s with
    porst := false, ul24 := prof, ftmStrap := ftm, regs := [], active := [], widthShadow := [],
    widthActive := [], relAt := s.now, bootFrom := s.now, appliesRecords := true, devOp := DevOp.boot
    hal := { Hal.reset with baseTick := s.now / 2000 } }
  let x := x.releaseSafety.powerUp
  State.powerIslands { x with kps := { Kps.reset with heartbeatAt := x.kpsAt } } (bootIslands prof)

theorem State.porstHigh_low {s : State} (h : s.porst = true) (prof ftm : Bool) :
    s.porstHigh prof ftm = (s.porstPowered prof ftm).startBins.bootSafety.bootMgmt := by
  simp only [State.porstHigh, h, Bool.not_true, Bool.false_eq_true, if_false]
  rfl

/-- R448: the islands that are powered are those of the profile. -/
theorem State.porstPowered_islands (s : State) (prof ftm : Bool) :
    (s.porstPowered prof ftm).fget Reg.CLK_ISL_ON_ON = bootIslands prof := by
  rw [State.porstPowered, State.powerIslands, State.fget_fput_ne _ _ _ _ _ _ _ _ _ _ (by decide),
    State.fget_fput_self _ _ (by decide)]
  exact Nat.mod_eq_of_lt (bootIslands_lt prof)

/-- R448: the steps of the boot come in their order. -/
theorem State.porstPowered_order (s : State) (prof ftm : Bool) :
    (s.porstPowered prof ftm).sillAt ≤ (s.porstPowered prof ftm).kpsAt ∧
    (s.porstPowered prof ftm).kpsAt ≤ (s.porstPowered prof ftm).powerAt :=
  ⟨State.le_bootStep .., Nat.le_trans (Nat.le_max_right ..) (State.le_bootStep ..)⟩

/-- R4, R5, R446, R448: PORST_N rises while it is low. -/
theorem gives_porstNRelease_low {s : State} (t : Time) (prof ftm : Bool) (h : s.porst = true) :
    Gives (.porstNRelease t prof ftm) s fun u => u.porst = false ∧ u.ul24 = prof ∧
      u.ftmStrap = ftm ∧ u.fget Reg.CLK_ISL_ON_ON = bootIslands prof ∧ u.kps.st = Kps.reset.st ∧ u.devOp = .boot ∧
      u.relAt = max s.now t ∧ u.flash = s.flash ∧ u.sillAt ≤ u.kpsAt ∧ u.kpsAt ≤ u.powerAt ∧
      (∀ i, u.upAt i ≤ max s.now t → (u.islandOn i = true ↔ (bootIslands prof).testBit i = true)) ∧
      (∀ i, max s.now t < u.upAt i → u.islandOn i = false) := by
  let y := (s.at t).porstPowered prof ftm
  let v := y.startBins.bootSafety.bootMgmt
  have hv : y.startBins.bootOnly v := State.bootOnly_trans (State.bootOnly_bootSafety _) (State.bootOnly_bootMgmt _)
  have frame : v.settle = { y with
      regs := v.settle.regs, pcie := v.settle.pcie, upd := v.upd, ports := y.startBins.ports } :=
    v.settle_frame.trans (congrArg (fun x : State => { x with regs := v.settle.regs, pcie := v.settle.pcie })
      (hv.1.trans (congrArg (fun x : State => { x with regs := v.regs, upd := v.upd }) y.startBins_frame)))
  have field {α : Type} (g : State → α) := congrArg g frame
  have islands : v.settle.fget Reg.CLK_ISL_ON_ON = bootIslands prof := by
    rw [State.settle_fget _ _ _ _ _ (by decide), State.fget, hv.2 _ (by decide), ← (s.at t).porstPowered_islands prof ftm]
    rw [y.startBins_frame]
    rfl
  have now : v.settle.now = max s.now t := field State.now
  have on (i : Nat) : v.settle.islandOn i = ((bootIslands prof).testBit i && decide (v.settle.upAt i ≤ max s.now t)) := by
    rw [State.islandOn, islands, now]
  have ends : exec (.porstNRelease t prof ftm) s = .next v.settle := by
    show Host.Outcome.next ((s.at t).porstHigh prof ftm).settle = _
    rw [State.porstHigh_low (s := s.at t) h]
  refine ⟨v.settle, ends, field State.porst, field State.ul24, field State.ftmStrap, islands,
    field fun x => x.kps.st, field State.devOp, field State.relAt, field State.flash, ?_, ?_, ?_, ?_⟩
  · rw [field State.sillAt, field State.kpsAt]
    exact ((s.at t).porstPowered_order prof ftm).1
  · rw [field State.kpsAt, field State.powerAt]
    exact ((s.at t).porstPowered_order prof ftm).2
  · intro i hi
    simp [on, hi]
  · intro i hi
    simp [on, Nat.not_le.mpr hi]

end Sys2Proof.Machine
end

section
/-! DEV_RESET and MGMT_RESET (R21, R452 to R454): what they keep and what they leave. -/

namespace Sys2Proof.Machine

/-! ### Maps through a filter of their pairs -/

/-- A key all of whose pairs are taken out reads as unlisted. -/
theorem Sparse.get_filterMap_none {α : Type} (d : Nat → α) {g : Nat × α → Option (Nat × α)} {k : Nat}
    (hg : ∀ e e', g e = some e' → e'.1 = e.1) (hk : ∀ v, g (k, v) = none) (m : Sparse α) :
    Sparse.get d (m.filterMap g) k = d k := by
  induction m with
  | nil => rfl
  | cons e r ih =>
    obtain ⟨j, w⟩ := e
    rw [List.filterMap_cons]
    cases h : g (j, w) with
    | none => exact ih
    | some e' =>
      have hj : e'.1 ≠ k := by
        rw [hg _ _ h]
        rintro rfl
        rw [hk] at h
        cases h
      simpa [Sparse.get, hj] using ih

/-- A key all of whose pairs stay reads as before. -/
theorem Sparse.get_filterMap_some {α : Type} (d : Nat → α) {g : Nat × α → Option (Nat × α)} {k : Nat}
    (hg : ∀ e e', g e = some e' → e'.1 = e.1) (hk : ∀ v, g (k, v) = some (k, v)) (m : Sparse α) :
    Sparse.get d (m.filterMap g) k = Sparse.get d m k := by
  induction m with
  | nil => rfl
  | cons e r ih =>
    obtain ⟨j, w⟩ := e
    rw [List.filterMap_cons]
    by_cases hj : j = k
    · subst hj
      simp [hk, Sparse.get]
    · cases h : g (j, w) with
      | none => simpa [Sparse.get, hj] using ih
      | some e' =>
        have hj' : e'.1 ≠ k := by rw [hg _ _ h]; exact hj
        simpa [Sparse.get, hj, hj'] using ih

/-- What every listed value and the unlisted one have, every read has. -/
theorem Sparse.get_of_all {α : Type} {P : α → Prop} {d : Nat → α} (hd : ∀ k, P (d k)) {m : Sparse α} (h : ∀ e ∈ m, P e.2) (k : Nat) :
    P (Sparse.get d m k) := by
  induction m with
  | nil => exact hd k
  | cons e r ih =>
    obtain ⟨j, w⟩ := e
    rw [Sparse.get]
    split
    · exact h (j, w) List.mem_cons_self
    · exact ih fun e he => h e (List.mem_cons_of_mem _ he)

/-! ### The registers and ports after a soft reset (R21, R452) -/

/-- Soft reset gives the registers, and the ports, what R21 leaves. -/
theorem State.softReset_frame (s : State) :
    s.softReset = { s with
      ftm := if s.ftmActive then FtmState.none else s.ftm
      regs := s.softRegs, active := [], heldLow := [], captures := [], waking := [], stopPending := false
      ports := softPorts s.ports, rings := [], spool := [], ue := s.ue.filter fun e => softStore e.1
      ce := s.ce.filter fun e => softStore e.1, mem := MemState.off, memCfg := State.reset.memCfg, scrubAt := 0
      scrubbed := s.now, chans := [], axes := [], mgroups := []
      msets := [], jchans := [], engines := [], hal := { Hal.reset with baseTick := s.now / 2000 }, eths := []
      lnk := Lnk.reset, calTurn := [], clocks := [], ticks := []
      pcie := { s.pcie with msiPend := false, msiPendBit := false, actWas := false }
      upd := { Upd.reset with
        copy0 := s.upd.copy0, copy1 := s.upd.copy1, runMgmt := s.upd.runMgmt, runSafety := s.upd.runSafety
        fallback := s.upd.fallback }
      cals := s.softReset.cals } :=
  State.forEach_keeps (P := fun s u => u = { s with cals := u.cals }) (fun _ => rfl)
    (fun _ _ c h h' => h'.trans (congrArg (fun x : State => { x with cals := c.cals }) h)) _ (fun _ _ _ => rfl) _

section
variable (s : State)
theorem State.softReset_now : s.softReset.now = s.now := by rw [State.softReset_frame]
theorem State.softReset_band : s.softReset.band = s.band := by rw [State.softReset_frame]
theorem State.softReset_masks : s.softReset.masks = s.masks := by rw [State.softReset_frame]
theorem State.softReset_flash : s.softReset.flash = s.flash := by rw [State.softReset_frame]
theorem State.softReset_kps : s.softReset.kps = s.kps := by rw [State.softReset_frame]
end

/-- The registers after a soft reset stand at addresses at which they stood before. -/
theorem softRegs_keys (ul24 : Bool) (e e' : Nat × Word) (h : (if isLock e.1 then none
      else if Page.keeps (pageAt e.1) then some e
      else if softWord ul24 e.1 e.2 = resetWord ul24 e.1 then none else some (e.1, softWord ul24 e.1 e.2)) = some e') :
    e'.1 = e.1 := by
  split at h
  · cases h
  · split at h
    · cases h; rfl
    · split at h <;> cases h; rfl

/-- R21: a register of the Sill and Kingpost pages that is no lock keeps its word through a soft reset. -/
theorem State.softReset_word_keeps (s : State) {a : Nat} (hl : isLock a = false) (hk : Page.keeps (pageAt a) = true) :
    s.softReset.word a = s.word a := by
  rw [State.softReset_frame]
  exact Sparse.get_filterMap_some _ (softRegs_keys s.ul24) (fun v => by simp [hl, hk]) _

/-- Every page begins at a multiple of 0x1000. -/
theorem regAddr_mod_page (p : Page) (i : Nat) {off : Nat} (h : off < 0x1000) : regAddr p i off % 0x1000 = off := by
  cases p <;> simp only [regAddr, Page.base, Page.stride] <;> omega

theorem specialReset_lock (ul24 : Bool) (p : Page) (i : Nat) : specialReset ul24 p i 0x24 = none := by
  cases p <;> simp [specialReset]

theorem tableReset_lock : (Page.all.all fun p => decide (tableReset p 0x24 = 0)) = true := by decide +kernel

/-- R66: a lock that stands in no register file reads locked. -/
theorem resetWord_lock (ul24 : Bool) {a : Nat} (h : a % 0x1000 = 0x24) : resetWord ul24 a = 0 := by
  rw [resetWord]
  split
  · rfl
  · next p i off hloc =>
    obtain ⟨hi, ho, rfl⟩ := locate_some hloc
    obtain rfl : off = 0x24 := (regAddr_mod_page p i ho).symm.trans h
    rw [specialReset_lock]
    exact of_decide_eq_true (List.all_eq_true.mp tableReset_lock p (Page.mem_all p))

/-- R66: every lock is locked by a soft reset. -/
theorem State.softReset_word_lock (s : State) {a : Nat} (h : a % 0x1000 = 0x24) : s.softReset.word a = 0 := by
  rw [State.softReset_frame, ← resetWord_lock s.ul24 h]
  refine Sparse.get_filterMap_none _ (softRegs_keys s.ul24) (fun v => ?_) _
  cases hloc : locate a with
  | none => simp [isLock, softWord, pageAt, hloc, Page.keeps]
  | some x =>
    obtain ⟨p, i, off⟩ := x
    obtain ⟨hi, ho, rfl⟩ := locate_some hloc
    obtain rfl : off = 0x24 := (regAddr_mod_page p i ho).symm.trans h
    simp [isLock, hloc]

/-- R48: a port that is OFF with PWR_EN low. -/
def Port.isOff (x : Port) : Prop := x.st = .off ∧ x.pwrEn = false

/-- R452: a soft reset leaves every port OFF, with PWR_EN low. -/
theorem State.softReset_port (s : State) (p : Nat) : (s.softReset.port p).isOff := by
  rw [State.softReset_frame]
  refine Sparse.get_of_all (P := Port.isOff) (fun _ => ⟨rfl, rfl⟩) (fun e he => ?_) p
  obtain ⟨e', -, he⟩ := List.mem_filterMap.mp he
  simp only at he
  split at he
  · cases he
  · cases he; exact ⟨rfl, rfl⟩

/-! ### What a reset does beside (R193, R428, R458) -/

/-- The words that a commanded reset leaves to the soft reset: the locks, those of the Kingpost and THM pages, and
CMD_STATUS of the CLK page. -/
abbrev resetKept (a : Nat) : Prop := a % 0x1000 = 0x24 ∨ (0x2000 ≤ a ∧ a < 0x7000) ∨ a = statusAddr .clk 0

theorem not_resetKept_en (p : Nat) : ¬ resetKept (regAddr .en p 0x14) := by
  simp only [resetKept, statusAddr, regAddr, Page.base, Page.stride]
  omega

/-- R193: the overdrive budget of a port is evaluated: the port changes, and its causes may be latched. -/
theorem State.exhaust_frame (s : State) (p : Nat) : s.exhaust p = { s with regs := (s.exhaust p).regs, ports := (s.exhaust p).ports } := by
  simp only [State.exhaust]
  split
  · split <;> rfl
  · split <;> rfl

theorem State.exhaust_sameOn (s : State) (p : Nat) : s.sameOn resetKept (s.exhaust p) := by
  simp only [State.exhaust]
  split
  · split <;> exact State.sameOn_congr rfl rfl
  · split
    · exact State.sameOn_trans (s.sameOn_latch .en p (not_resetKept_en p)) (State.sameOn_congr rfl rfl)
    · exact s.sameOn_refl

theorem State.exhaust_port (s : State) (p q : Nat) (h : (s.port q).isOff) : ((s.exhaust p).port q).isOff := by
  have budget (x : State) (hx : x.ports = s.ports) (b : Budget) : ((x.modPort p fun x => { x with budget := b }).port q).isOff := by
    rw [State.port_modPort, State.port_congr hx, State.port_congr hx]
    split
    · next e => subst e; exact h
    · exact h
  simp only [State.exhaust]
  split
  · split
    · exact budget s rfl _
    · exact h
  · split
    · exact budget (s.latch .en p) rfl _
    · exact h

/-- What a reset, beside the soft reset, writes outside the words of `resetKept`. -/
def State.resetOnly (s u : State) : Prop :=
  u = { s with regs := u.regs, upd := u.upd, kps := { s.kps with paths := u.kps.paths } } ∧ s.sameOn resetKept u

section
variable {s u v : State}

theorem State.resetOnly_refl (s : State) : s.resetOnly s := ⟨rfl, s.sameOn_refl⟩

theorem State.resetOnly_trans (h : s.resetOnly u) (h' : u.resetOnly v) : s.resetOnly v := by
  refine ⟨h'.1.trans ?_, State.sameOn_trans h.2 h'.2⟩
  exact congrArg (fun x : State => { x with regs := v.regs, upd := v.upd, kps := { x.kps with paths := v.kps.paths } }) h.1

theorem State.resetOnly_setWord (s : State) {a : Nat} (w : Word) (h : ¬ resetKept a) : s.resetOnly (s.setWord a w) :=
  ⟨rfl, s.sameOn_setWord w h⟩

theorem State.resetOnly_modUpd (s : State) (f : Upd → Upd) : s.resetOnly (s.modUpd f) := ⟨rfl, State.sameOn_congr rfl rfl⟩

theorem State.resetOnly_send (s : State) (cls inst kind sev detail : Nat) : s.resetOnly (s.send cls inst kind sev detail) := by
  simp only [State.send, State.post]
  split <;> exact ⟨rfl, State.sameOn_congr rfl rfl⟩

theorem State.resetOnly_of_bootOnly (h : s.bootOnly u) : s.resetOnly u := by
  refine ⟨?_, fun a ha => h.2 a ⟨fun e => absurd ha (by rw [e]; decide), fun e => absurd ha (by rw [e]; decide)⟩⟩
  refine h.1.trans ?_
  rw [h.1]

/-- R431, R452, R453: a reset ends the update session with its result. -/
theorem State.resetOnly_endSession (s : State) (code : Nat) (dest : UpdState) : s.resetOnly (s.endSession code dest) := by
  have drop : s.resetOnly (s.dropSession dest) := by
    refine State.resetOnly_trans ?_ (State.resetOnly_modUpd _ _)
    cases s.upd.waiting.isSome
    · exact s.resetOnly_refl
    · exact s.resetOnly_setWord _ (by decide)
  have result (x : State) : x.resetOnly (x.fput Reg.UPD_RESULT_CODE code) := x.resetOnly_setWord _ (by decide)
  have cause (x : State) : x.resetOnly (if code = 0 then x.raise Reg.UPD_CAUSE_DONE else x.raise Reg.UPD_CAUSE_FAIL) := by
    split <;> exact x.resetOnly_setWord _ (by decide)
  exact State.resetOnly_trans (State.resetOnly_trans (State.resetOnly_trans drop (result _)) (cause _))
    (State.resetOnly_send _ _ _ _ _ _)

/-- R458: a reset notes its kind and its master. -/
theorem State.resetOnly_noteReset (s : State) (kind : Nat) (m : Master) : s.resetOnly (s.noteReset kind (some m)) :=
  State.resetOnly_trans (State.resetOnly_trans (s.resetOnly_setWord _ (by decide)) (State.resetOnly_setWord _ _ (by decide)))
    (State.resetOnly_setWord _ _ (by decide))

/-- R77, R458: CLK_RST_CAUSE after a commanded reset, whatever that reset counts. -/
theorem State.rstCause_noteReset (s : State) (kind : Nat) (m : Master) (hk : kind < 16) {u : State}
    (hu : u.word Reg.CLK_RST_CAUSE_LAST.addr = (s.noteReset kind (some m)).word Reg.CLK_RST_CAUSE_LAST.addr) :
    u.fget Reg.CLK_RST_CAUSE_LAST = kind ∧ u.fget Reg.CLK_RST_CAUSE_MASTER = m.code := by
  have hw : u.word Reg.CLK_RST_CAUSE_LAST.addr =
      Reg.CLK_RST_CAUSE_MASTER.set (Reg.CLK_RST_CAUSE_LAST.set (s.word Reg.CLK_RST_CAUSE_LAST.addr) kind) m.code := by
    rw [hu]
    show State.word (State.fput _ _ _) _ = _
    rw [State.word_fput, if_pos (by decide), State.raise, State.word_fput_ne _ _ _ _ _ _ (by decide), State.word_fput, if_pos rfl]
  have hm : m.code < 4 := by cases m <;> decide
  constructor
  · rw [State.fget, hw, Fld.get_set_apart _ _ (by decide) (by decide), Fld.get_set _ (by decide)]
    exact Nat.mod_eq_of_lt hk
  · show Fld.get _ (u.word Reg.CLK_RST_CAUSE_LAST.addr) = _
    rw [hw, Fld.get_set _ (by decide)]
    exact Nat.mod_eq_of_lt hm

end

end Sys2Proof.Machine
end

section
/-! The two commanded resets, carried out (R452 to R454, R458). -/

namespace Sys2Proof.Machine

/-! ### DEV_RESET -/

/-- R193: the overdrive budget of every port is evaluated anew. -/
def State.exhausted (s : State) : State := s.forEach (s.ports.map (·.1)) State.exhaust

/-- R193, R428, R458: the soft reset with the budgets evaluated anew, the session ended and the reset noted. -/
def State.resetNoted (s : State) (m : Master) : State :=
  ((s.softReset.exhausted.when s.upd.inSession fun s => s.endSession 10 .free).noteReset 3 (some m)).fadd Reg.CLK_RST_CNT_DEV 1

/-- R454: the islands come back within 10 µs; the device boots from now on. -/
def State.rebooting (s : State) : State :=
  let s := { s.drew with islandsAt := s.now + s.drawn % (10 * us + 1) }
  { s with devOp := DevOp.boot, bootFrom := s.now, appliesRecords := true }

theorem State.devReset_eq (s : State) (m : Master) : s.devReset m = (s.resetNoted m).rebooting.bootMgmt := by
  unfold State.devReset State.resetNoted State.rebooting State.exhausted
  rfl

theorem State.exhausted_frame (s : State) :
    s.exhausted = { s with regs := s.exhausted.regs, ports := s.exhausted.ports } :=
  State.forEach_keeps (P := fun s u => u = { s with regs := u.regs, ports := u.ports }) (fun _ => rfl)
    (fun _ _ c h h' => h'.trans (congrArg (fun x : State => { x with regs := c.regs, ports := c.ports }) h)) _
    (fun s k _ => s.exhaust_frame k) s

theorem State.exhausted_sameOn (s : State) : s.sameOn resetKept s.exhausted :=
  State.sameOn_forEach _ (fun s k _ => s.exhaust_sameOn k) s

theorem State.exhausted_port {s : State} (h : ∀ q, (s.port q).isOff) : ∀ q, (s.exhausted.port q).isOff :=
  State.forEach_inv (P := fun s => ∀ q, (s.port q).isOff) _ (fun s k _ h q => s.exhaust_port k q (h q)) s h

/-- R428, R458: a session under way ends, and the reset is noted and counted. -/
theorem State.resetOnly_noted (s : State) (m : Master) (c : Bool) (dest : UpdState) (kind : Nat) {f : Fld}
    (hf : f.addr = Reg.CLK_RST_CNT_DEV.addr) :
    s.resetOnly (((s.when c fun s => s.endSession 10 dest).noteReset kind (some m)).fadd f 1) := by
  refine State.resetOnly_trans (State.resetOnly_trans ?_ (State.resetOnly_noteReset _ kind m)) (State.resetOnly_setWord _ _ ?_)
  · cases c
    · exact s.resetOnly_refl
    · exact s.resetOnly_endSession 10 dest
  · show ¬ resetKept f.addr
    rw [hf]
    decide

theorem State.rebooting_sameOn {A : Nat → Prop} (s : State) : s.sameOn A s.rebooting := State.sameOn_congr rfl rfl

section
variable (s : State) (m : Master)

theorem State.resetOnly_resetNoted : s.softReset.exhausted.resetOnly (s.resetNoted m) :=
  State.resetOnly_noted _ m _ _ 3 rfl

/-- R452: what DEV_RESET keeps and what it changes, whole. -/
theorem State.devReset_frame : s.devReset m = { State.rebooting { s.softReset with
      regs := (s.resetNoted m).regs, upd := (s.resetNoted m).upd, ports := s.softReset.exhausted.ports
      kps := { s.softReset.kps with paths := (s.resetNoted m).kps.paths } } with
    regs := (s.devReset m).regs, upd := (s.devReset m).upd } := by
  have noted : s.resetNoted m = { s.softReset with
      regs := (s.resetNoted m).regs, upd := (s.resetNoted m).upd, ports := s.softReset.exhausted.ports
      kps := { s.softReset.kps with paths := (s.resetNoted m).kps.paths } } :=
    (State.resetOnly_resetNoted s m).1.trans (congrArg (fun x : State => { x with
      regs := (s.resetNoted m).regs, upd := (s.resetNoted m).upd
      kps := { x.kps with paths := (s.resetNoted m).kps.paths } }) s.softReset.exhausted_frame)
  rw [State.devReset_eq]
  exact (State.bootOnly_bootMgmt _).1.trans (congrArg (fun x : State => { x.rebooting with
    regs := (s.resetNoted m).rebooting.bootMgmt.regs, upd := (s.resetNoted m).rebooting.bootMgmt.upd }) noted)

/-- R21: beside the soft reset, DEV_RESET leaves the words of `resetKept` alone. -/
theorem State.devReset_sameOn : s.softReset.sameOn resetKept (s.devReset m) := by
  have noted := State.sameOn_trans s.softReset.exhausted_sameOn (State.resetOnly_resetNoted s m).2
  have booted := (State.resetOnly_of_bootOnly (State.bootOnly_bootMgmt (s.resetNoted m).rebooting)).2
  rw [State.devReset_eq]
  exact State.sameOn_trans (State.sameOn_trans noted (State.rebooting_sameOn _)) booted

/-- R458: DEV_RESET is the latest reset, with its master. -/
theorem State.devReset_rstCause {u : State} (hu : u.word Reg.CLK_RST_CAUSE_LAST.addr = (s.devReset m).word Reg.CLK_RST_CAUSE_LAST.addr) :
    u.fget Reg.CLK_RST_CAUSE_LAST = 3 ∧ u.fget Reg.CLK_RST_CAUSE_MASTER = m.code := by
  have boot := (State.bootOnly_bootMgmt (s.resetNoted m).rebooting).2 Reg.CLK_RST_CAUSE_LAST.addr (by decide)
  have wait := State.rebooting_sameOn (A := fun _ => True) (s.resetNoted m) Reg.CLK_RST_CAUSE_LAST.addr trivial
  rw [State.devReset_eq, boot, wait, State.resetNoted, State.fadd, State.word_fput_ne _ _ _ _ _ _ (by decide)] at hu
  exact State.rstCause_noteReset _ 3 m (by decide) hu

theorem State.devReset_now : (s.devReset m).now = s.now :=
  (congrArg State.now (s.devReset_frame m)).trans s.softReset_now
theorem State.devReset_devOp : (s.devReset m).devOp = .boot := by rw [State.devReset_frame]; rfl
theorem State.devReset_band : (s.devReset m).band = s.band :=
  (congrArg State.band (s.devReset_frame m)).trans s.softReset_band
theorem State.devReset_masks : (s.devReset m).masks = s.masks :=
  (congrArg State.masks (s.devReset_frame m)).trans s.softReset_masks
theorem State.devReset_flash : (s.devReset m).flash = s.flash :=
  (congrArg State.flash (s.devReset_frame m)).trans s.softReset_flash

/-- R452: DEV_RESET keeps Kingpost's record but for the messages under way. -/
theorem State.devReset_kps : (s.devReset m).kps = { s.kps with paths := (s.resetNoted m).kps.paths } :=
  (congrArg State.kps (s.devReset_frame m)).trans
    (congrArg (fun k : Kps => { k with paths := (s.resetNoted m).kps.paths }) s.softReset_kps)

/-- R454: the islands are back within 10 µs. -/
theorem State.devReset_islandsAt : (s.devReset m).islandsAt ≤ s.now + 10 * us := by
  rw [congrArg State.islandsAt (s.devReset_frame m)]
  show s.softReset.now + _ % _ ≤ _
  rw [s.softReset_now]
  exact Nat.add_le_add_left (Nat.le_of_lt_succ (Nat.mod_lt _ (by decide))) _

/-- R48, R452: every port is OFF, with PWR_EN low. -/
theorem State.devReset_port (p : Nat) : ((s.devReset m).port p).isOff := by
  rw [State.port_congr (congrArg State.ports (s.devReset_frame m))]
  exact State.exhausted_port s.softReset_port p

/-- R66, R452: every lock is locked. -/
theorem State.devReset_word_lock {a : Nat} (h : a % 0x1000 = 0x24) : (s.devReset m).word a = 0 :=
  (s.devReset_sameOn m a (.inl h)).trans (s.softReset_word_lock h)

/-- R21: the Kingpost and THM pages, and CMD_STATUS of the CLK page, keep their words. -/
theorem State.devReset_word_keeps {a : Nat} (hl : isLock a = false) (hk : Page.keeps (pageAt a) = true) (ha : resetKept a) :
    (s.devReset m).word a = s.word a :=
  (s.devReset_sameOn m a ha).trans (s.softReset_word_keeps hl hk)

end

/-- No word of `resetKept` is one that settling may write. -/
theorem State.settle_word_resetKept (s : State) {a : Nat} (h : resetKept a) : s.settle.word a = s.word a :=
  s.settle_word_of_ne (fun e => absurd h (by rw [e]; decide)) (fun e => absurd h (by rw [e]; decide))

/-- R21: the registers of the Kingpost and THM pages lie from 0x2000 to 0x6FFF. -/
theorem keptPage_bounds {a : Nat} (h : pageAt a = some .thm ∨ pageAt a = some .kps0 ∨ pageAt a = some .kps1 ∨
    pageAt a = some .kps2 ∨ pageAt a = some .kps3) : 0x2000 ≤ a ∧ a < 0x7000 := by
  have bounds (p : Page) (hp : p ∈ [Page.thm, .kps0, .kps1, .kps2, .kps3]) (h : pageAt a = some p) : 0x2000 ≤ a ∧ a < 0x7000 := by
    simp only [pageAt, Option.map_eq_some_iff] at h
    obtain ⟨⟨q, i, off⟩, hloc, rfl⟩ := h
    obtain ⟨hi, ho, rfl⟩ := locate_some hloc
    simp only [List.mem_cons, List.not_mem_nil, or_false] at hp
    rcases hp with rfl | rfl | rfl | rfl | rfl <;> simp only [regAddr, Page.base, Page.stride, Page.count] at hi ⊢ <;> omega
  rcases h with h | h | h | h | h <;> exact bounds _ (by simp) h

/-- R21, R452, R454, R458: DEV_RESET, carried out. -/
theorem gives_devReset {s : State} {m : Master} (t : Time) (h : s.takesUnlocked m .clk 0) (ht : s.thm.shutdown = false)
    (hi : s.devState = .idle) :
    Gives (.devReset t m) s fun u => s.carriedOut u .clk 0 2 ∧ u.devOp = .boot ∧
      (∀ p, (u.port p).st = .off ∧ (u.port p).pwrEn = false) ∧ (∀ p i, u.unlocked p i = false) ∧
      (∀ a, isLock a = false → pageAt a = some .thm ∨ pageAt a = some .kps0 ∨ pageAt a = some .kps1 ∨
        pageAt a = some .kps2 ∨ pageAt a = some .kps3 → u.word a = s.word a) ∧
      u.kps.dsafe = s.kps.dsafe ∧ u.kps.portClear = s.kps.portClear ∧ u.band = s.band ∧ u.masks = s.masks ∧
      u.flash = s.flash ∧ u.fget Reg.CLK_RST_CAUSE_LAST = 3 ∧ u.fget Reg.CLK_RST_CAUSE_MASTER = m.code ∧
      u.islandsAt ≤ max s.now t + 10 * us ∧ (max s.now t < u.islandsAt → u.exec? .clk 0 = true) := by
  have hx := State.takesUnlocked_at t h
  let x := ((s.at t).countCmd .clk 0 2).setResult .clk 0 resOk
  let v := x.devReset m
  have ends : exec (.devReset t m) s = .next v.settle := by
    show Host.Outcome.next (State.settle (State.command _ _ _ _ _ _ _ _)) = _
    rw [State.command_takes hx.1 2 0 (specDevReset (s.at t) m) rfl (fun _ => hx.2) (by simp [specDevReset]; exact hi) rfl]
    show Host.Outcome.next (State.settle (if x.thm.shutdown then x else x.devReset m)) = _
    rw [if_neg (by rw [show x.thm = s.thm from rfl, ht]; decide)]
  have hk : v.settle.kps = { s.kps with paths := (x.resetNoted m).kps.paths } := v.settle_kps.trans (x.devReset_kps m)
  have cause := x.devReset_rstCause m (v.settle_word_of_ne (a := Reg.CLK_RST_CAUSE_LAST.addr) (by decide) (by decide))
  refine ⟨v.settle, ends, State.carriedOut_of_okStatus (by decide) ?_, v.settle_devOp.trans (x.devReset_devOp m), fun p => ?_,
    fun p i => ?_, fun a hl hp => ?_, by rw [hk], by rw [hk], v.settle_band.trans (x.devReset_band m),
    v.settle_masks.trans (x.devReset_masks m), v.settle_flash.trans (x.devReset_flash m), cause.1, cause.2, ?_, fun hw => ?_⟩
  · rw [State.settle_word_resetKept _ (.inr (.inr rfl)), x.devReset_word_keeps m (by decide) (by decide) (.inr (.inr rfl))]
    exact State.word_countCmd_ok ..
  · rw [State.port_congr v.settle_ports]
    exact x.devReset_port m p
  · have lock := regAddr_mod_page p i (off := 0x24) (by decide)
    rw [State.unlocked, State.settle_word_resetKept _ (.inl lock), x.devReset_word_lock m lock]
    rfl
  · have range := keptPage_bounds hp
    have keeps : Page.keeps (pageAt a) = true := by rcases hp with h | h | h | h | h <;> rw [h] <;> rfl
    rw [State.settle_word_resetKept _ (.inr (.inl range)), x.devReset_word_keeps m hl keeps (.inr (.inl range))]
    exact State.word_countCmd_ok_ne _ (by simp only [statusAddr, regAddr, Page.base, Page.stride]; omega)
  · rw [v.settle_islandsAt]
    exact x.devReset_islandsAt m
  · have now : v.settle.now = max s.now t := v.settle_now.trans (x.devReset_now m)
    rw [State.exec?, State.resetting, now, decide_eq_true hw]
    exact Bool.or_true _

/-! ### MGMT_RESET -/

/-- R453, R458: the session of the management cluster ends, and the reset is noted and counted. -/
def State.mgmtNoted (s : State) (m : Master) : State :=
  ((s.when (s.upd.inSession && s.upd.owner == Master.mgmt.code) fun s => s.endSession 10 .claimed).noteReset 4 (some m)).fadd
    Reg.CLK_RST_CNT_MGMT 1

/-- R58, R453: the management cluster boots from now on; what it held of wide fields is gone. -/
def State.mgmtRebooting (s : State) : State :=
  let booting := s.devOp = DevOp.boot
  let s := { s with heldLow := s.heldLow.filter fun h => h.master != Master.mgmt.code }
  { s with
    devOp := DevOp.boot, bootFrom := s.now
    devOpBack := if booting then s.devOpBack else s.devOp
    appliesRecords := if booting then s.appliesRecords else false }

theorem State.mgmtReset_eq (s : State) (m : Master) : s.mgmtReset m = (s.mgmtNoted m).mgmtRebooting.bootMgmt := by
  unfold State.mgmtReset State.mgmtNoted State.mgmtRebooting
  rfl

theorem State.mgmtRebooting_sameOn {A : Nat → Prop} (s : State) : s.sameOn A s.mgmtRebooting := State.sameOn_congr rfl rfl

section
variable (s : State) (m : Master)

theorem State.resetOnly_mgmtNoted : s.resetOnly (s.mgmtNoted m) := State.resetOnly_noted s m _ _ 4 rfl

/-- R453: what MGMT_RESET keeps and what it changes, whole. -/
theorem State.mgmtReset_frame : s.mgmtReset m = { State.mgmtRebooting { s with
      regs := (s.mgmtNoted m).regs, upd := (s.mgmtNoted m).upd, kps := { s.kps with paths := (s.mgmtNoted m).kps.paths } } with
    regs := (s.mgmtReset m).regs, upd := (s.mgmtReset m).upd } := by
  rw [State.mgmtReset_eq]
  exact (State.bootOnly_bootMgmt _).1.trans (congrArg (fun x : State => { x.mgmtRebooting with
    regs := (s.mgmtNoted m).mgmtRebooting.bootMgmt.regs, upd := (s.mgmtNoted m).mgmtRebooting.bootMgmt.upd })
    (s.resetOnly_mgmtNoted m).1)

theorem State.mgmtReset_ports : (s.mgmtReset m).ports = s.ports := by rw [State.mgmtReset_frame]; rfl
theorem State.mgmtReset_band : (s.mgmtReset m).band = s.band := by rw [State.mgmtReset_frame]; rfl
theorem State.mgmtReset_devOp : (s.mgmtReset m).devOp = .boot := by rw [State.mgmtReset_frame]; rfl
theorem State.mgmtReset_dsafe : (s.mgmtReset m).kps.dsafe = s.kps.dsafe := by rw [State.mgmtReset_frame]; rfl

/-- R453: DEV_OP returns to what it was. -/
theorem State.mgmtReset_devOpBack (h : s.devOp ≠ .boot) : (s.mgmtReset m).devOpBack = s.devOp := by
  rw [State.mgmtReset_frame]
  exact if_neg h

/-- R453: MGMT_RESET leaves the words of `resetKept` alone. -/
theorem State.mgmtReset_sameOn : s.sameOn resetKept (s.mgmtReset m) := by
  have booted := (State.resetOnly_of_bootOnly (State.bootOnly_bootMgmt (s.mgmtNoted m).mgmtRebooting)).2
  rw [State.mgmtReset_eq]
  exact State.sameOn_trans (State.sameOn_trans (s.resetOnly_mgmtNoted m).2 (State.mgmtRebooting_sameOn _)) booted

/-- R458: MGMT_RESET is the latest reset, with its master. -/
theorem State.mgmtReset_rstCause {u : State} (hu : u.word Reg.CLK_RST_CAUSE_LAST.addr = (s.mgmtReset m).word Reg.CLK_RST_CAUSE_LAST.addr) :
    u.fget Reg.CLK_RST_CAUSE_LAST = 4 ∧ u.fget Reg.CLK_RST_CAUSE_MASTER = m.code := by
  have boot := (State.bootOnly_bootMgmt (s.mgmtNoted m).mgmtRebooting).2 Reg.CLK_RST_CAUSE_LAST.addr (by decide)
  have wait := State.mgmtRebooting_sameOn (A := fun _ => True) (s.mgmtNoted m) Reg.CLK_RST_CAUSE_LAST.addr trivial
  rw [State.mgmtReset_eq, boot, wait, State.mgmtNoted, State.fadd, State.word_fput_ne _ _ _ _ _ _ (by decide)] at hu
  exact State.rstCause_noteReset _ 4 m (by decide) hu

end

/-- R453, R454, R458: MGMT_RESET, carried out. -/
theorem gives_mgmtReset {s : State} {m : Master} (t : Time) (h : s.takesUnlocked m .clk 0) (ht : s.thm.shutdown = false) :
    Gives (.mgmtReset t m) s fun u => s.carriedOut u .clk 0 1 ∧ u.devOp = .boot ∧ u.ports = s.ports ∧
      u.band = s.band ∧ u.kps.dsafe = s.kps.dsafe ∧ u.fget Reg.CLK_RST_CAUSE_LAST = 4 ∧
      u.fget Reg.CLK_RST_CAUSE_MASTER = m.code ∧ (s.devOp ≠ .boot → u.devOpBack = s.devOp) := by
  have hx := State.takesUnlocked_at t h
  let x := ((s.at t).countCmd .clk 0 1).setResult .clk 0 resOk
  let v := x.mgmtReset m
  have ends : exec (.mgmtReset t m) s = .next v.settle := by
    show Host.Outcome.next (State.settle (State.command _ _ _ _ _ _ _ _)) = _
    rw [State.command_takes hx.1 1 0 (specMgmtReset m) rfl (fun _ => hx.2) rfl rfl]
    show Host.Outcome.next (State.settle (if x.thm.shutdown then x else x.mgmtReset m)) = _
    rw [if_neg (by rw [show x.thm = s.thm from rfl, ht]; decide)]
  have cause := x.mgmtReset_rstCause m (v.settle_word_of_ne (a := Reg.CLK_RST_CAUSE_LAST.addr) (by decide) (by decide))
  refine ⟨v.settle, ends, State.carriedOut_of_okStatus (by decide) ?_, v.settle_devOp.trans (x.mgmtReset_devOp m),
    v.settle_ports.trans (x.mgmtReset_ports m), v.settle_band.trans (x.mgmtReset_band m),
    (congrArg Kps.dsafe v.settle_kps).trans (x.mgmtReset_dsafe m), cause.1, cause.2,
    fun hd => v.settle_devOpBack.trans (x.mgmtReset_devOpBack m hd)⟩
  rw [State.settle_word_resetKept _ (.inr (.inr rfl)), x.mgmtReset_sameOn m _ (.inr (.inr rfl))]
  exact State.word_countCmd_ok ..

end Sys2Proof.Machine
end

section
/-! The end of a boot (R448, R453): what serving the stop-request lines leaves of the DEV to CLK pages (R374), and
BOOT_DONE. -/

namespace Sys2Proof.Machine

/-! ### What leaving a page flow keeps (R37, R374) -/

/-- Every register word below the SEQ page, those of the DEV to CLK pages, reads in `u` as in `s`. -/
abbrev State.lowKept (s u : State) : Prop := s.sameOn (· < Page.seq.base) u

/-- A field's registers stand from its page's base on. -/
theorem Fld.base_le_addr (f : Fld) (i j k : Nat) : f.page.base ≤ f.addr i j k := by
  simp only [Fld.addr, regAddr]
  omega

theorem State.sameOn_foldl {A : Nat → Prop} {β : Type} (l : List β) {f : State → β → State} (h : ∀ s e, State.sameOn A s (f s e))
    (s : State) : s.sameOn A (l.foldl f s) := by
  induction l generalizing s with
  | nil => exact s.sameOn_refl
  | cons e l ih => exact State.sameOn_trans (h s e) (ih (f s e))

section
variable (s : State) (f : Fld) (h : Page.seq.base ≤ f.page.base)
include h

theorem State.lowKept_fput (v i j k : Nat) : s.lowKept (s.fput f v i j k) :=
  s.sameOn_fput f v i j k (Nat.not_lt.mpr (Nat.le_trans h (f.base_le_addr i j k)))

theorem State.lowKept_fadd (n i j k : Nat) : s.lowKept (s.fadd f n i j k) :=
  s.sameOn_fadd f n i j k (Nat.not_lt.mpr (Nat.le_trans h (f.base_le_addr i j k)))

theorem State.lowKept_raise (i : Nat) : s.lowKept (s.raise f i) :=
  s.sameOn_raise f i (Nat.not_lt.mpr (Nat.le_trans h (f.base_le_addr i 0 0)))

theorem State.lowKept_raiseBnd (p : Nat) : s.lowKept (s.raiseBnd f p) :=
  State.sameOn_trans (s.lowKept_raise f h 0) (State.lowKept_fput _ _ (by decide) _ _ _ _)

end

section
variable (s : State) (p : Nat)

theorem State.lowKept_latch (pg : Page) (i : Nat) (h : Page.seq.base ≤ pg.base) : s.lowKept (s.latch pg i) :=
  s.sameOn_latch pg i (Nat.not_lt.mpr (Nat.le_trans h (by simp only [regAddr]; omega)))

theorem State.lowKept_markDefect : s.lowKept (s.markDefect p) :=
  State.sameOn_trans (s.lowKept_fput _ (by decide) _ _ _ _) (State.lowKept_raise _ _ (by decide) _)

theorem State.lowKept_noteLow : s.lowKept (s.noteLow p) :=
  State.sameOn_when _ (State.sameOn_trans (s.lowKept_raiseBnd _ (by decide) p) (State.lowKept_fput _ _ (by decide) _ _ _ _))

theorem State.lowKept_latchPort : s.lowKept (s.latchPort p) := by
  have pages := State.sameOn_trans (State.sameOn_trans (s.lowKept_latch .ft p (by decide))
    (State.lowKept_latch _ .en p (by decide))) (State.lowKept_latch _ .lk p (by decide))
  have scr (x : State) (g : Nat) : x.lowKept (x.latchScr g) :=
    State.sameOn_trans (x.lowKept_latch .scr g (by decide)) (State.lowKept_fput _ _ (by decide) _ _ _ _)
  refine State.sameOn_trans pages ?_
  simp only [State.latchPort]
  split
  · exact State.sameOn_refl _
  · exact scr _ _

/-- R37, R225: abandoned lines are counted and marked. -/
theorem State.lowKept_abandonLines (n : Nat) : s.lowKept (s.abandonLines p n) := by
  have drop (x : State) : x.lowKept (x.dropLine p .stopped) :=
    State.sameOn_trans (State.sameOn_trans (x.lowKept_fadd _ (by decide) _ _ _ _) (State.lowKept_raise _ _ (by decide) _))
      (State.lowKept_fput _ _ (by decide) _ _ _ _)
  induction n generalizing s with
  | zero => exact s.sameOn_refl
  | succ n ih => exact State.sameOn_trans (drop s) (ih _)

theorem State.lowKept_releaseRows : s.lowKept (s.releaseRows p) := by
  have pace (x : State) : x.lowKept (x.pace p) := State.sameOn_congr rfl rfl
  have ring (x : State) (r : Ring) : x.lowKept (((x.setRing p r).pace p).noteLow p) :=
    State.sameOn_trans (State.sameOn_trans (State.sameOn_congr rfl rfl) (pace _)) (State.lowKept_noteLow _ p)
  simp only [State.releaseRows]
  split
  · exact ring s _
  · exact s.sameOn_refl

theorem State.lowKept_unlink : s.lowKept (s.unlink p) :=
  State.sameOn_trans (State.sameOn_trans (State.sameOn_trans (s.lowKept_latch .lk p (by decide)) (State.sameOn_congr rfl rfl))
    (State.lowKept_fput _ _ (by decide) _ _ _ _)) (State.lowKept_fput _ _ (by decide) _ _ _ _)

/-- R439: a PARAM section gives its values to registers of its port's pages. -/
theorem State.lowKept_putParams (ws : List Word) : s.lowKept (s.putParams p ws) := by
  refine State.sameOn_foldl _ (fun x e => ?_) s
  split
  · next pg i off hloc =>
    split
    · next hp =>
      have high : ¬ e.1 < Page.seq.base := by
        obtain ⟨-, -, h⟩ := locate_some hloc
        rw [h]
        rcases hp.1 with rfl | rfl <;> simp only [regAddr, Page.base] <;> omega
      dsimp only
      split
      · exact State.lowKept_raise _ _ (by decide) _
      · exact x.sameOn_setWord _ high
    · exact x.sameOn_refl
  · exact x.sameOn_refl

theorem State.lowKept_modPort (f : Port → Port) : s.lowKept (s.modPort p f) := State.sameOn_congr rfl rfl

/-- R441: port p takes its PARAM section from the staged copy. -/
theorem State.lowKept_loadParams : s.lowKept (s.loadParams p) := by
  unfold State.loadParams
  refine State.sameOn_trans (State.sameOn_trans (s.lowKept_latchPort p) (State.sameOn_foldl _ (fun x e => ?_) _))
    (State.lowKept_modPort _ p _)
  split
  · exact x.lowKept_putParams p _
  · exact x.sameOn_refl

theorem State.lowKept_recipeDue : s.lowKept (s.recipeDue p) := by
  unfold State.recipeDue
  split
  · split
    · exact s.lowKept_modPort p _
    · exact s.sameOn_refl
  · exact s.sameOn_refl

theorem State.lowKept_stopOver : s.lowKept s.stopOver := by
  unfold State.stopOver
  split
  · exact State.sameOn_congr rfl rfl
  · exact s.sameOn_refl

/-- R47, R441: an activation that ends shows in the SEQ page. -/
theorem State.lowKept_activationCheck : s.lowKept s.activationCheck := by
  have ended (x : State) (l : List Nat) (f : Port → Port) : x.lowKept (((x.forEach l fun s p => s.modPort p f).raise
      Reg.SEQ_CAUSE_ACTIVATED).fput Reg.SEQ_ACT_PAGE_PAGE 0xFFFFFFFF) :=
    State.sameOn_trans (State.sameOn_trans (State.sameOn_forEach l (fun s k _ => s.lowKept_modPort k f) x)
      (State.lowKept_raise _ _ (by decide) _)) (State.lowKept_fput _ _ (by decide) _ _ _ _)
  have written (f : Dir → Dir) : s.lowKept { s.changeDir f with upd := { (s.changeDir f).upd with act := none } } :=
    State.sameOn_congr rfl rfl
  unfold State.activationCheck
  split
  · split
    · exact s.sameOn_refl
    · exact State.sameOn_trans (written _) (ended _ _ _)
  · exact s.sameOn_refl

/-- R37, R48: port p's sequencer returns to IDLE. -/
theorem State.lowKept_goIdle : s.lowKept (s.goIdle p) := by
  have latched := State.sameOn_trans (s.lowKept_latchPort p) (State.lowKept_noteLow _ p)
  have idle (x : State) (f : Port → Port) : x.lowKept ((((x.modPort p f).recipeDue p).stopOver).activationCheck) :=
    State.sameOn_trans (State.sameOn_trans (State.sameOn_trans (x.lowKept_modPort p f) (State.lowKept_recipeDue _ p))
      (State.lowKept_stopOver _)) (State.lowKept_activationCheck _)
  have landed (x : State) (f : Port → Port) : x.lowKept (((x.modPort p f).unlink p).paramsLand p) :=
    State.sameOn_trans (State.sameOn_trans (x.lowKept_modPort p f) (State.lowKept_unlink _ p))
      (State.sameOn_when _ (State.lowKept_loadParams _ p))
  unfold State.goIdle
  refine State.sameOn_trans latched ?_
  dsimp only
  split
  · exact State.sameOn_trans (idle _ _) (landed _ _)
  · exact idle _ _

/-- R37: port p leaves its page flow. -/
theorem State.lowKept_leaveFlow : s.lowKept (s.leaveFlow p) := by
  have lost (x : State) (n : Nat) : x.lowKept ((x.abandonLines p n).markDefect p) :=
    State.sameOn_trans (x.lowKept_abandonLines p n) (State.lowKept_markDefect _ p)
  have idle (x : State) : x.lowKept ((x.goIdle p).releaseRows p) :=
    State.sameOn_trans (x.lowKept_goIdle p) (State.lowKept_releaseRows _ p)
  have ring (x : State) (r : Ring) : x.lowKept (x.setRing p r) := State.sameOn_congr rfl rfl
  unfold State.leaveFlow
  refine State.sameOn_trans (s.lowKept_modPort p fun x => { x with svcPend := .none }) ?_
  dsimp only
  split
  · exact State.sameOn_refl _
  · refine State.sameOn_trans (State.sameOn_trans (State.lowKept_noteLow _ p) ?_) (idle _)
    split
    · split
      · exact State.sameOn_trans (lost _ _) (ring _ _)
      · exact lost _ _
    · exact State.sameOn_refl _

theorem State.lowKept_portDark (dest : PortState) : s.lowKept (s.portDark p dest) :=
  State.sameOn_trans (State.sameOn_trans (s.lowKept_leaveFlow p)
    (State.lowKept_modPort _ p fun x => { x with st := dest, pwrEn := false, svcPend := .none })) (State.lowKept_unlink _ p)

end

/-! ### Stop-request lines (R360, R374) -/

/-- The words of the CLK page. -/
abbrev clkWord (a : Nat) : Prop := Page.clk.base ≤ a ∧ a < Page.seq.base

/-- R374: Port Safe leaves the words of the CLK page alone. -/
theorem State.portSafe_sameOn (s : State) (p : Nat) : s.sameOn clkWord (s.portSafe p) := by
  have abort (x : State) (c : Nat) : x.sameOn clkWord (x.calAbort c true) := by
    unfold State.calAbort
    split
    · exact State.sameOn_trans (x.sameOn_latch .cal 0 (by decide)) (State.sameOn_congr rfl rfl)
    · exact x.sameOn_refl
  have dark (x : State) : x.sameOn clkWord (x.portDark p .safe) := fun a ha => x.lowKept_portDark p .safe a ha.2
  have latched : s.sameOn clkWord { s with kps := { s.kps with portClear := s.kps.portClear.filter (· ≠ p) } } :=
    State.sameOn_congr rfl rfl
  unfold State.portSafe
  split
  · exact s.sameOn_refl
  · refine State.sameOn_trans (State.sameOn_trans (State.sameOn_trans latched (State.sameOn_raise _ Reg.KPS0_CAUSE_PSAFE 0 (by decide)))
      (State.sameOn_forEach (calOf p) (fun x c _ => abort x c) _)) ?_
    dsimp only
    split
    · exact State.sameOn_refl _
    · exact dark _

/-- R360: so does serving the stop-request lines. -/
theorem State.serveStops_sameOn (s : State) : s.sameOn clkWord s.serveStops :=
  State.sameOn_trans (u := { s with kps := { s.kps with stops := [] } }) (State.sameOn_congr rfl rfl)
    (State.sameOn_forEach _ (fun x p _ => x.portSafe_sameOn p) _)

/-! ### BOOT_DONE -/

/-- R448, R453: what the end of a boot gives to DEV_OP: the records, where the boot applies them. -/
def State.booted (s : State) : State :=
  if s.appliesRecords then s.applyRecords.loadActive else { s with devOp := s.devOpBack }

/-- R448: at the end of a boot, BOOT.T_BOOT takes the boot's length, and CAUSE.BOOT_DONE is set. -/
theorem State.bootDone_eq {s : State} (hd : s.devOp = .boot) (hk : s.kps.st ≠ .selftest) (hr : s.upd.runMgmt ≠ 0) :
    s.bootDone = (s.booted.fput Reg.CLK_BOOT_T_BOOT (min 65535 ((s.booted.now - s.booted.bootFrom) / ms))).raise
      Reg.CLK_CAUSE_BOOT_DONE := by
  unfold State.bootDone
  rw [if_neg (by simp [hd, hk, hr])]
  rfl

/-- R448, R453, R458: BOOT_DONE, at the end of a boot. -/
theorem gives_bootDone {s : State} (t : Time) (hp : s.porst = false) (hi : s.islandOn 28 = true) (hs : s.stopsServed)
    (hd : s.devOp = .boot) (hk : s.kps.st ≠ .selftest) (hr : s.upd.runMgmt ≠ 0) :
    Gives (.bootDone t) s fun u => u.fbit Reg.CLK_CAUSE_BOOT_DONE = true ∧
      (s.appliesRecords = false → u.devOp = s.devOpBack ∧ u.ports = s.ports) := by
  let x := s.at t
  let y := x.booted
  let z := (y.fput Reg.CLK_BOOT_T_BOOT (min 65535 ((y.now - y.bootFrom) / ms))).raise Reg.CLK_CAUSE_BOOT_DONE
  have ends : exec (.bootDone t) s = .next z.serveStops.settle := by
    show Host.Outcome.next (State.settle (if !x.porst && x.islandOn 28 then x.bootDone.serveStops else x)) = _
    rw [show x.porst = false from hp, State.islandOn_at t hi, State.bootDone_eq (s := x) hd hk hr]
    rfl
  refine ⟨_, ends, ?_, fun ha => ?_⟩
  · have stays : z.serveStops.fget Reg.CLK_CAUSE_BOOT_DONE = z.fget Reg.CLK_CAUSE_BOOT_DONE :=
      congrArg Reg.CLK_CAUSE_BOOT_DONE.get (z.serveStops_sameOn Reg.CLK_CAUSE_BOOT_DONE.addr (by decide))
    have set : z.fget Reg.CLK_CAUSE_BOOT_DONE = 1 := State.fget_fput_self _ _ (by decide) _ _ _ _
    rw [State.fbit, State.settle_fget _ _ _ _ _ (by decide), stays, set]
    rfl
  · have back : y = { x with devOp := x.devOpBack } := if_neg (by rw [show x.appliesRecords = false from ha]; decide)
    have served : z.serveStops = z := State.serveStops_nil z ((congrArg (fun y : State => y.kps.stops) back).trans hs)
    have ports : y.ports = s.ports := by rw [back]; rfl
    have devOp : y.devOp = s.devOpBack := by rw [back]; rfl
    rw [served]
    exact ⟨z.settle_devOp.trans devOp, z.settle_ports.trans ports⟩

/-- Settles O47: each clause by the lemma about its command. -/
theorem resetsAndBoot : Obligations.ResetsAndBoot := by
  intro s t
  exact ⟨gives_porstNAssert s t, fun prof ftm h => gives_porstNRelease_low t prof ftm h,
    fun prof ftm h => gives_porstNRelease_high t prof ftm h,
    fun m h ht => ⟨fun hi => gives_devReset t h ht hi, gives_mgmtReset t h ht⟩,
    fun hp hi hs hd hk hr => gives_bootDone t hp hi hs hd hk hr⟩

end Sys2Proof.Machine
end
